-- ==== Sys2Proof/Word.lean ====
section
/-! DEFINITION. The word types of the model (R4, R11, R12): 64-bit registers, 32-bit lanes and instruction words, bytes. -/

namespace Sys2Proof

/-- A 64-bit scalar register or state register (R11). -/
abbrev Word := BitVec 64

/-- A 32-bit vector lane (R12) or instruction word (R4). -/
abbrev W32 := BitVec 32

/-- A byte of memory. -/
abbrev Byte := BitVec 8

end Sys2Proof
end

