-- ==== Sys2Proof/Syntax.lean ====
section
/-! DEFINITION. The abstract syntax of the model: the operand types of the instruction words (R64 to R75) and of the
operations and events of the module, and the one inductive Instr with one constructor per row of the opcode table. -/

namespace Sys2Proof

/-- A scalar register g0 to g31 (R11). -/
abbrev GReg := Fin 32
/-- A vector register v0 to v31 (R12). -/
abbrev VReg := Fin 32
/-- A mask register m0 to m7 (R13). -/
abbrev MReg := Fin 8
/-- A range handle h0 to h7 (R14). -/
abbrev HReg := Fin 8

/-- The element types of format V (R72), in the order of their codes 0 to 7. -/
inductive ElemTy where
  | f32 | bf16 | fp16 | s32 | n32 | s16 | s8 | n8
deriving DecidableEq, Repr, Inhabited

/-- The scopes (R75), codes 0 to 5. -/
inductive Scope where
  | tile | truss | gang | partition | device | host
deriving DecidableEq, Repr, Inhabited

/-- The block formats (R55); VPACK.LB and VUNPK.LB code them 0 to 3 (R73). -/
inductive BlkFmt where
  | lb4 | lb6 | lb8 | lb12
deriving DecidableEq, Repr, Inhabited

/-- The formats of MACC2S and MS2ACC (R164), codes 0 to 2. -/
inductive AccFmt where
  | f32 | bf16 | fp16
deriving DecidableEq, Repr, Inhabited

/-- The types of RADD, RMIN and RMAX (R223), codes 0 to 4. -/
inductive RedTy where
  | f32 | s32 | n32 | s64 | n64
deriving DecidableEq, Repr, Inhabited

/-- Where an operation on a counter comes from (R211): the n-th outstanding MS operation of the tile, or the n-th
credit on its way to a sync engine (R188, R190, R230). -/
inductive CtrSource where
  | msOp (n : Nat)
  | credit (n : Nat)
deriving DecidableEq, Repr, Inhabited

/-- Where a request to firmware comes from (R342, R381): the request ring of an ASID, or the command buffer. -/
inductive ReqSource where
  | ring (asid : Nat)
  | command
deriving DecidableEq, Repr, Inhabited

/-- The arrays of R385: those that a background scrub walks, and the register files and tables, which only a read checks. -/
inductive ArrayKind where
  | scratchpad | inbox | accumulator | cim | sync | hbm | registers
deriving DecidableEq, Repr, Inhabited

/-- An array of a site, of a sync engine or of HBM, as a background scrub names it (R385). -/
structure ArrayAt where
  site : Nat
  arr : ArrayKind
deriving DecidableEq, Repr, Inhabited

/-- What a scrub finds in a word (R385). -/
inductive ScrubResult where
  | clean | corrected | uncorrectable
deriving DecidableEq, Repr, Inhabited

/-- An 8-byte location that a host master can write: an offset in BAR0 of a function (R372), or an offset of the control
window (R376). -/
inductive WinAddr where
  | bar0 (func off : Nat)
  | control (off : Nat)
deriving DecidableEq, Repr, Inhabited

/-- A register block of a partition's function, and the host port over which a master reaches it (R369, R378). -/
structure FuncAt where
  func : Nat
  port : Nat
deriving DecidableEq, Repr, Inhabited

/-- An attestation request: its nonce, and the host port over which it comes (R378, R384). -/
structure Challenge where
  port : Nat
  nonce : Word
deriving DecidableEq, Repr, Inhabited

/-- The rows of the opcode table. The constructors up to gresume are the instructions of a tile; the others are the
operations and events of the module, each with the data that says which one it is. -/
inductive Instr where
  /-- ADD (R95). Writes ga + gb modulo 2^64 to gd. -/
  | add (d a b : GReg)
  /-- SUB (R95). Writes ga − gb modulo 2^64 to gd. -/
  | sub (d a b : GReg)
  /-- ADDW (R95). Adds ga and gb and writes the sign-extended low 32 bits of the sum to gd. -/
  | addw (d a b : GReg)
  /-- SUBW (R95). Subtracts gb from ga and writes the sign-extended low 32 bits of the difference to gd. -/
  | subw (d a b : GReg)
  /-- MUL (R95). Writes the low 64 bits of ga × gb to gd. -/
  | mul (d a b : GReg)
  /-- MULH (R95). Writes the high 64 bits of the signed 128-bit product to gd. -/
  | mulh (d a b : GReg)
  /-- MULHN (R95). Writes the high 64 bits of the natural 128-bit product to gd. -/
  | mulhn (d a b : GReg)
  /-- DIV (R96). Signed division truncating toward zero; never traps. -/
  | div (d a b : GReg)
  /-- DIVN (R96). Natural division; division by zero gives all ones. -/
  | divn (d a b : GReg)
  /-- REM (R96). Signed remainder, carrying the sign of the dividend. -/
  | rem (d a b : GReg)
  /-- REMN (R96). Natural remainder. -/
  | remn (d a b : GReg)
  /-- LEA (R95). Writes ga + gb × 2^c to gd, for c from 0 to 4. -/
  | lea (d a b : GReg) (c : Fin 32)
  /-- AND (R95). Writes the bitwise AND of ga and gb to gd. -/
  | and (d a b : GReg)
  /-- OR (R95). Writes the bitwise OR of ga and gb to gd. -/
  | or (d a b : GReg)
  /-- XOR (R95). Writes the bitwise XOR of ga and gb to gd. -/
  | xor (d a b : GReg)
  /-- ANDN (R95). Writes ga AND NOT gb to gd. -/
  | andn (d a b : GReg)
  /-- ORN (R95). Writes ga OR NOT gb to gd. -/
  | orn (d a b : GReg)
  /-- SHL (R97). Shifts ga left by the natural value of gb. -/
  | shl (d a b : GReg)
  /-- SHR (R97). Shifts ga right logically by the natural value of gb. -/
  | shr (d a b : GReg)
  /-- SRA (R97). Shifts ga right arithmetically by the natural value of gb. -/
  | sra (d a b : GReg)
  /-- ROTR (R97). Rotates ga right by gb[5:0]. -/
  | rotr (d a b : GReg)
  /-- MIN (R95). Writes the signed minimum of ga and gb to gd. -/
  | min (d a b : GReg)
  /-- MAX (R95). Writes the signed maximum of ga and gb to gd. -/
  | max (d a b : GReg)
  /-- MINN (R95). Writes the natural minimum of ga and gb to gd. -/
  | minn (d a b : GReg)
  /-- MAXN (R95). Writes the natural maximum of ga and gb to gd. -/
  | maxn (d a b : GReg)
  /-- SEQ (R95). Writes 1 to gd if ga = gb, else 0. -/
  | seq (d a b : GReg)
  /-- SNE (R95). Writes 1 to gd if ga ≠ gb, else 0. -/
  | sne (d a b : GReg)
  /-- SLT (R95). Signed less-than comparison. -/
  | slt (d a b : GReg)
  /-- SLTN (R95). Natural less-than comparison. -/
  | sltn (d a b : GReg)
  /-- SLE (R95). Signed less-or-equal comparison. -/
  | sle (d a b : GReg)
  /-- SLEN (R95). Natural less-or-equal comparison. -/
  | slen (d a b : GReg)
  /-- CSEL (R95). Writes ga to gd if gc ≠ 0, else gb. -/
  | csel (d a b c : GReg)
  /-- CLZ (R95). Counts the leading zero bits of ga. -/
  | clz (d a : GReg)
  /-- CTZ (R95). Counts the trailing zero bits of ga. -/
  | ctz (d a : GReg)
  /-- POPC (R95). Counts the one bits of ga. -/
  | popc (d a : GReg)
  /-- BREV (R95). Reverses the bit order of ga. -/
  | brev (d a : GReg)
  /-- BSWAP (R95). Reverses the byte order of ga. -/
  | bswap (d a : GReg)
  /-- ADDI (R98). Adds the sign-extended imm16 to ga. -/
  | addi (d a : GReg) (imm : BitVec 16)
  /-- ANDI (R98). ANDs ga with the sign-extended imm16. -/
  | andi (d a : GReg) (imm : BitVec 16)
  /-- ORI (R98). ORs ga with the zero-extended imm16. -/
  | ori (d a : GReg) (imm : BitVec 16)
  /-- XORI (R98). XORs ga with the zero-extended imm16. -/
  | xori (d a : GReg) (imm : BitVec 16)
  /-- SHLI (R98). Shifts ga left by an immediate count. -/
  | shli (d a : GReg) (n : Fin 64)
  /-- SHRI (R98). Shifts ga right logically by an immediate count. -/
  | shri (d a : GReg) (n : Fin 64)
  /-- SRAI (R98). Shifts ga right arithmetically by an immediate count. -/
  | srai (d a : GReg) (n : Fin 64)
  /-- SLTI (R98). Signed comparison of ga with the sign-extended immediate. -/
  | slti (d a : GReg) (imm : BitVec 16)
  /-- SLTNI (R98). Natural comparison of ga with the sign-extended immediate. -/
  | sltni (d a : GReg) (imm : BitVec 16)
  /-- MOVHI (R98). Writes the sign-extended imm16 × 2^16 to gd. -/
  | movhi (d : GReg) (imm : BitVec 16)
  /-- BEXT (R99). Extracts a bit field of ga and zero-extends it into gd. -/
  | bext (d a : GReg) (len1 pos : Fin 64)
  /-- BINS (R99). Inserts the low bits of ga into a bit field of gd. -/
  | bins (d a : GReg) (len1 pos : Fin 64)
  /-- ADDL (R77). Long-immediate pair that writes ga + SignExtend(imm36) to gd as one instruction. -/
  | addl (d a : GReg) (imm : BitVec 36)
  /-- CATL (R77). Long-immediate pair that writes ga × 2^28 + imm36[27:0] to gd. -/
  | catl (d a : GReg) (imm : BitVec 36)
  /-- LD (R107). Local load, sign-extended into gd, not interlocked and arriving in issue order. -/
  | ld (d a : GReg) (z : Fin 8) (off : BitVec 13)
  /-- LDN (R107). Local load, zero-extended into gd. -/
  | ldn (d a : GReg) (z : Fin 8) (off : BitVec 13)
  /-- ST (R108). Local store of the low bytes of gs to the raw scratchpad. -/
  | st (v a : GReg) (z : Fin 8) (off : BitVec 13)
  /-- GLD (R111). Global load, sign-extended, after translation and page-mode checks. -/
  | gld (d a : GReg) (z : Fin 8) (off : BitVec 13)
  /-- GLDN (R111). Global load, zero-extended. -/
  | gldn (d a : GReg) (z : Fin 8) (off : BitVec 13)
  /-- GST (R112). Global store, counted in ST until it is visible at DEVICE scope. -/
  | gst (v a : GReg) (z : Fin 8) (off : BitVec 13)
  /-- B (R102). Unconditional PC-relative branch. -/
  | b (disp : BitVec 26)
  /-- BL (R102). Branch that writes a link to g31. -/
  | bl (disp : BitVec 26)
  /-- BEQ (R102). Branches if ga = gb (a ≠ b). -/
  | beq (a b : GReg) (disp : BitVec 16)
  /-- BNE (R102). Branches if ga ≠ gb (a ≠ b). -/
  | bne (a b : GReg) (disp : BitVec 16)
  /-- BLT (R102). Branches on a signed less-than. -/
  | blt (a b : GReg) (disp : BitVec 16)
  /-- BGE (R102). Branches on a signed greater-or-equal. -/
  | bge (a b : GReg) (disp : BitVec 16)
  /-- BLTN (R102). Branches on a natural less-than. -/
  | bltn (a b : GReg) (disp : BitVec 16)
  /-- BGEN (R102). Branches on a natural greater-or-equal. -/
  | bgen (a b : GReg) (disp : BitVec 16)
  /-- JR (R102). Jumps to gv plus a scaled displacement. -/
  | jr (v : GReg) (disp : BitVec 16)
  /-- JLR (R103). Jumps as JR and writes a link to g31 after computing the target. -/
  | jlr (v : GReg) (disp : BitVec 16)
  /-- BMANY (R102). Branches if some active lane of mv is set. -/
  | bmany (v : MReg) (disp : BitVec 16)
  /-- BMNONE (R102). Branches if no active lane of mv is set. -/
  | bmnone (v : MReg) (disp : BitVec 16)
  /-- NOP (R116). Occupies one issue slot. -/
  | nop
  /-- TRAP (R117). Raises TRAPI to S, resuming after the instruction. -/
  | trap (x : BitVec 12)
  /-- SYSC (R117). Raises SYSC to S, resuming after the instruction. -/
  | sysc (x : BitVec 12)
  /-- BREAK (R117). Raises BREAK to S with TPC at the BREAK. -/
  | brk (x : BitVec 12)
  /-- ERET (R40). Returns from S to TPC and to the saved privilege. -/
  | eret
  /-- IDLE (R119). Suspends issue until a wake event. -/
  | idle
  /-- MFS (R120). Reads a state register by index into gd. -/
  | mfs (d : GReg) (x : BitVec 12)
  /-- MTS (R120). Writes ga to a state register by index, under its field rules. -/
  | mts (a : GReg) (x : BitVec 12)
  /-- QUERY (R122). Writes the feature word of a leaf to gd. -/
  | query (d : GReg) (x : BitVec 12)
  /-- TLBINV (R125). Invalidates the micro-TLB entries for the page holding ga. -/
  | tlbinv (a : GReg)
  /-- TLBINV_ALL (R125). Invalidates every micro-TLB entry of the tile's ASID. -/
  | tlbinvAll
  /-- WAIT (R195). Waits until every class count is at or below its field. -/
  | wait (ld st cp mx ms : Fin 16)
  /-- VADD_F (R133). FP32 lane addition. -/
  | vaddF (d a b : VReg) (k : MReg)
  /-- VSUB_F (R133). FP32 lane subtraction. -/
  | vsubF (d a b : VReg) (k : MReg)
  /-- VMUL_F (R133). FP32 lane multiplication. -/
  | vmulF (d a b : VReg) (k : MReg)
  /-- VDIV_F (R133). FP32 lane division. -/
  | vdivF (d a b : VReg) (k : MReg)
  /-- VFMA (R133). Fused a × b + d with one rounding. -/
  | vfma (d a b : VReg) (k : MReg)
  /-- VFMS (R133). Fused a × b − d. -/
  | vfms (d a b : VReg) (k : MReg)
  /-- VFNMA (R133). Fused d − a × b. -/
  | vfnma (d a b : VReg) (k : MReg)
  /-- VMIN_F (R134). FP32 lane minimum, with −0 below +0. -/
  | vminF (d a b : VReg) (k : MReg)
  /-- VMAX_F (R134). FP32 lane maximum. -/
  | vmaxF (d a b : VReg) (k : MReg)
  /-- VABS_F (R133). Clears the sign bit of each lane. -/
  | vabsF (d a : VReg) (k : MReg)
  /-- VNEG_F (R133). Inverts the sign bit of each lane. -/
  | vnegF (d a : VReg) (k : MReg)
  /-- VSQRT (R133). FP32 lane square root. -/
  | vsqrt (d a : VReg) (k : MReg)
  /-- VRCP (R136). Table-driven reciprocal. -/
  | vrcp (d a : VReg) (k : MReg)
  /-- VRSQ (R137). Table-driven reciprocal square root. -/
  | vrsq (d a : VReg) (k : MReg)
  /-- VEXP2 (R138). Table-driven power of two. -/
  | vexp2 (d a : VReg) (k : MReg)
  /-- VLOG2 (R139). Table-driven base-2 logarithm. -/
  | vlog2 (d a : VReg) (k : MReg)
  /-- VTANH (R140). Table-driven hyperbolic tangent. -/
  | vtanh (d a : VReg) (k : MReg)
  /-- VADD_I (R143). 32-bit integer lane addition. -/
  | vaddI (d a b : VReg) (k : MReg) (t : ElemTy)
  /-- VSUB_I (R143). 32-bit integer lane subtraction. -/
  | vsubI (d a b : VReg) (k : MReg) (t : ElemTy)
  /-- VMUL_I (R143). 32-bit integer lane multiplication. -/
  | vmulI (d a b : VReg) (k : MReg) (t : ElemTy)
  /-- VMIN_I (R143). Integer lane minimum by type. -/
  | vminI (d a b : VReg) (k : MReg) (t : ElemTy)
  /-- VMAX_I (R143). Integer lane maximum by type. -/
  | vmaxI (d a b : VReg) (k : MReg) (t : ElemTy)
  /-- VAND (R144). Lane AND. -/
  | vand (d a b : VReg) (k : MReg)
  /-- VOR (R144). Lane OR. -/
  | vor (d a b : VReg) (k : MReg)
  /-- VXOR (R144). Lane XOR. -/
  | vxor (d a b : VReg) (k : MReg)
  /-- VSHL (R144). Lane left shift. -/
  | vshl (d a b : VReg) (k : MReg)
  /-- VSHR (R144). Lane logical right shift. -/
  | vshr (d a b : VReg) (k : MReg)
  /-- VSRA (R144). Lane arithmetic right shift. -/
  | vsra (d a b : VReg) (k : MReg)
  /-- VCMP_EQ_F (R141). FP32 equality compare into a mask. -/
  | vcmpEqF (d : MReg) (a b : VReg) (k : MReg)
  /-- VCMP_NE_F (R141). FP32 inequality compare into a mask. -/
  | vcmpNeF (d : MReg) (a b : VReg) (k : MReg)
  /-- VCMP_LT_F (R141). FP32 less-than compare into a mask. -/
  | vcmpLtF (d : MReg) (a b : VReg) (k : MReg)
  /-- VCMP_LE_F (R141). FP32 less-or-equal compare into a mask. -/
  | vcmpLeF (d : MReg) (a b : VReg) (k : MReg)
  /-- VCMP_UN_F (R141). FP32 unordered compare into a mask. -/
  | vcmpUnF (d : MReg) (a b : VReg) (k : MReg)
  /-- VCMP_EQ_I (R141). Integer equality compare into a mask. -/
  | vcmpEqI (d : MReg) (a b : VReg) (k : MReg) (t : ElemTy)
  /-- VCMP_NE_I (R141). Integer inequality compare into a mask. -/
  | vcmpNeI (d : MReg) (a b : VReg) (k : MReg) (t : ElemTy)
  /-- VCMP_LT_I (R141). Integer less-than compare by type. -/
  | vcmpLtI (d : MReg) (a b : VReg) (k : MReg) (t : ElemTy)
  /-- VCMP_LE_I (R141). Integer less-or-equal compare by type. -/
  | vcmpLeI (d : MReg) (a b : VReg) (k : MReg) (t : ElemTy)
  /-- VSEL (R142). Selects va or vb per lane by a selection mask. -/
  | vsel (d a b : VReg) (k : MReg)
  /-- VBCAST (R145). Broadcasts ga[31:0] into the enabled lanes. -/
  | vbcast (d : VReg) (a : GReg) (k : MReg)
  /-- VMOVS (R145). Moves one lane of va to gd, zero-extended. -/
  | vmovs (d : GReg) (a : VReg) (b : GReg)
  /-- VINS (R145). Inserts ga[31:0] into lane gb of vd. -/
  | vins (d : VReg) (a b : GReg)
  /-- VSHUF (R146). Permutes lanes through a .perm table. -/
  | vshuf (d a : VReg) (p : Fin 32) (k : MReg)
  /-- VSLIDE (R147). Slides lanes by a signed amount. -/
  | vslide (d a : VReg) (b : GReg) (k : MReg)
  /-- VRNG (R149). Draws one generator word per lane and advances the draw counter. -/
  | vrng (d : VReg) (k : MReg)
  /-- VREDSUM_F (R150). FP32 sum over a fixed pairwise tree. -/
  | vredsumF (d a : VReg) (k : MReg)
  /-- VREDMAX (R151). Maximum over the same tree. -/
  | vredmax (d a : VReg) (k : MReg) (t : ElemTy)
  /-- VREDSUM_I (R151). Integer sum modulo 2^32 over the tree. -/
  | vredsumI (d a : VReg) (k : MReg) (t : ElemTy)
  /-- VCVT (R152). Converts each lane between two types. -/
  | vcvt (d a : VReg) (k : MReg) (src dst : ElemTy)
  /-- VPACK_LB (R153). Packs 32 FP32 values into one block of an LB format. -/
  | vpackLb (d a : VReg) (f : BlkFmt) (k : MReg)
  /-- VUNPK_LB (R154). Decodes one block into 32 FP32 lanes. -/
  | vunpkLb (d a : VReg) (f : BlkFmt) (k : MReg)
  /-- VLD (R155). Unit-stride local vector load. -/
  | vld (d : VReg) (a : GReg) (k : MReg) (t : ElemTy)
  /-- VST (R155). Unit-stride local vector store. -/
  | vst (d : VReg) (a : GReg) (k : MReg) (t : ElemTy)
  /-- VLDS (R155). Strided local vector load. -/
  | vlds (d : VReg) (a b : GReg) (k : MReg) (t : ElemTy)
  /-- VSTS (R155). Strided local vector store. -/
  | vsts (d : VReg) (a b : GReg) (k : MReg) (t : ElemTy)
  /-- VLDG (R155). Gather local vector load. -/
  | vldg (d : VReg) (a : GReg) (b : VReg) (k : MReg) (t : ElemTy)
  /-- VSTG (R155). Scatter local vector store. -/
  | vstg (d : VReg) (a : GReg) (b : VReg) (k : MReg) (t : ElemTy)
  /-- VLDX (R158). Transposed load of a square of 32-bit words. -/
  | vldx (d : VReg) (a b : GReg) (k : MReg) (t : ElemTy)
  /-- VGLD (R159). Unit-stride global vector load. -/
  | vgld (d : VReg) (a : GReg) (k : MReg) (t : ElemTy)
  /-- VGST (R159). Unit-stride global vector store. -/
  | vgst (d : VReg) (a : GReg) (k : MReg) (t : ElemTy)
  /-- MAND (R161). Mask AND over the active lanes. -/
  | mand (d a b : MReg)
  /-- MOR (R161). Mask OR. -/
  | mor (d a b : MReg)
  /-- MXOR (R161). Mask XOR. -/
  | mxor (d a b : MReg)
  /-- MNOT (R161). Mask NOT. -/
  | mnot (d a : MReg)
  /-- MPOP (R162). Counts the set active bits of a mask. -/
  | mpop (d : GReg) (a : MReg)
  /-- MFIRST (R162). Finds the lowest set active bit. -/
  | mfirst (d : GReg) (a : MReg)
  /-- MSET (R161). Sets mask bits from ga. -/
  | mset (d : MReg) (a : GReg)
  /-- MLANE (R161). Sets only the mask bit of lane ga. -/
  | mlane (d : MReg) (a : GReg)
  /-- VSETVL (R132). Sets VL to Min(ga, VLMAX) and returns it. -/
  | vsetvl (d a : GReg)
  /-- MCFG (R168). Writes one engine register after range checks. -/
  | mcfg (r : Fin 8) (a : GReg)
  /-- MLOADB (R171). Loads B blocks from a shingle into the CIM store. -/
  | mloadb (a b : GReg)
  /-- MZERO (R178). Writes +0 to an accumulator rectangle. -/
  | mzero (b : GReg)
  /-- MMA (R172). Multiplies shingle A rows by resident B into the accumulator. -/
  | mma (a b : GReg)
  /-- MMAT (R176). Truss matrix multiply with A rows delivered by the truss-row source. -/
  | mmat (a b : GReg)
  /-- MACC2S (R179). Converts an accumulator rectangle into a shingle, optionally clearing it. -/
  | macc2s (a b : GReg) (clr : Bool) (f : AccFmt)
  /-- MS2ACC (R180). Widens shingle elements into the accumulator. -/
  | ms2acc (a b : GReg) (f : AccFmt)
  /-- MSWAP (R182). Exchanges a shingle with a partner virtual tile. -/
  | mswap (a b : GReg)
  /-- MJOIN (R175). Joins a truss plan and sends join notices. -/
  | mjoin (a : GReg)
  /-- MLEAVE (R177). Leaves the truss once MX is empty and sends leave notices. -/
  | mleave
  /-- SHDEF (R183). Defines a shingle as EMPTY. -/
  | shdef (a b : GReg)
  /-- SHFREE (R184). Makes a shingle undefined. -/
  | shfree (a : GReg)
  /-- SHRDY (R184). Marks an EMPTY shingle READY. -/
  | shrdy (a : GReg)
  /-- SHSTAT (R185). Reads word 0 or word 1 of a shingle entry. -/
  | shstat (d a : GReg) (word1 : Bool)
  /-- SHSET (R186). Sets a shingle entry wholly for context restore, at S only. -/
  | shset (a b : GReg) (n : Fin 64)
  /-- CPIN (R189). Fills a shingle from global memory. -/
  | cpin (a b : GReg) (sc : Scope) (acq xp : Bool)
  /-- CPOUT (R190). Drains a shingle to global memory, with release and visibility counters. -/
  | cpout (a b : GReg) (sc : Scope) (rel : Bool)
  /-- CPDEAL (R191). Deals a global range block-cyclically to the shingles of a pattern's tiles. -/
  | cpdeal (a b : GReg) (sc : Scope) (acq xp : Bool)
  /-- CPT (R193). Copies a local shingle into a shingle of another virtual tile. -/
  | cpt (a b : GReg) (xp : Bool)
  /-- SEND (R199). Sends a 64-byte local payload to a channel of a virtual tile. -/
  | send (a b : GReg) (sc : Scope) (rel : Bool)
  /-- SENDV (R199). Sends the 16 lanes of a vector register as a message. -/
  | sendv (a : GReg) (b : VReg) (sc : Scope) (rel : Bool)
  /-- BIND (R203). Binds a handler entry to a channel. -/
  | bind (c : Fin 64) (a : GReg)
  /-- UNBIND (R204). Clears BOUND of a channel. -/
  | unbind (c : Fin 64)
  /-- CHMASK (R205). Writes MASK of the selected channels in one step. -/
  | chmask (a b : GReg)
  /-- DONE (R207). Ends the activation, frees the current message and may finish the tile. -/
  | done (a : GReg) (fin keep : Bool)
  /-- INRD (R208). Reads the metadata of an inbox slot or of the current message. -/
  | inrd (d a : GReg) (cur : Bool)
  /-- INSKIP (R209). Frees the current message and advances to the channel's next message. -/
  | inskip (d : GReg)
  /-- CALLAT (R201). Sends a CALL message to channel 63 of a callee. -/
  | callat (a b : GReg) (sc : Scope) (rel : Bool)
  /-- CADD (R212). Adds to a counter's VALUE. -/
  | cadd (a b : GReg) (sc : Scope) (rel : Bool)
  /-- CWAIT (R216). Holds the tile until a counter condition releases it. -/
  | cwait (a b : GReg) (sc : Scope) (acq nopend : Bool) (texp : Fin 32)
  /-- CRD (R215). Reads a counter's VALUE, or its PEND and flags. -/
  | crd (d a : GReg) (pend : Bool)
  /-- CEXP (R213). Adds an S32 amount to a counter's PEND. -/
  | cexp (a b : GReg)
  /-- CSET (R214). Sets a counter's VALUE and clears PEND and the flags. -/
  | cset (a b : GReg)
  /-- AXCHG (R221). Atomic exchange on a REDUCE line. -/
  | axchg (a b : GReg) (dw : Bool)
  /-- ACAS (R221). Atomic compare-and-swap. -/
  | acas (a b c : GReg) (dw : Bool)
  /-- AADD (R221). Atomic add. -/
  | aadd (a b : GReg) (dw : Bool)
  /-- AMIN (R221). Atomic minimum by type. -/
  | amin (a b : GReg) (dw nat : Bool)
  /-- AMAX (R221). Atomic maximum by type. -/
  | amax (a b : GReg) (dw nat : Bool)
  /-- RADD (R223). Reduction add into a REDUCE line, held under DET. -/
  | radd (a b : GReg) (t : RedTy)
  /-- RMIN (R223). Reduction minimum. -/
  | rmin (a b : GReg) (t : RedTy)
  /-- RMAX (R223). Reduction maximum. -/
  | rmax (a b : GReg) (t : RedTy)
  /-- RSEAL (R226). Seals the tile's reduction epoch on a seal counter. -/
  | rseal (a b : GReg)
  /-- HANDOVER (R229). Hands the pages of a handle range to a new owner, or to READ. -/
  | handover (h : HReg) (a b : GReg) (read : Bool)
  /-- HSET (R233). Sets a range handle's BASE and LEN once its count is zero. -/
  | hset (h : HReg) (a b : GReg)
  /-- FENCE (R234). Release or acquire fence over a set of range handles. -/
  | fence (acq rel : Bool) (sc : Scope) (hs : BitVec 8)
  /-- FENCEA (R235). Fence that waits until every class and handle count is zero. -/
  | fencea (acq rel : Bool) (sc : Scope)
  /-- GSTOP (R236). Asks firmware to stop a gang, at S only. -/
  | gstop (a b : GReg)
  /-- GRESUME (R236). Asks firmware to resume a stopped gang. -/
  | gresume (a b : GReg)
  /-- ASYNCHRONOUS_TRAP (R39). A pending ECC or MXERR trap is taken at the first boundary at U. -/
  | asynchronousTrap
  /-- LOAD_ARRIVAL (R34). A load's data is written to its destination and it leaves its LD and handle counts. -/
  | loadArrival (n : Nat)
  /-- GLOBAL_STORE_VISIBLE (R112). A global store becomes visible at DEVICE scope and leaves ST and its handle counts. -/
  | globalStoreVisible (n : Nat)
  /-- ACCESS_PERFORMED_AT_HOME (R278). A memory request is performed at its byte's home in coherence order. -/
  | accessPerformedAtHome (store : Bool) (n lane : Nat)
  /-- TRANSLATION_WALK (R340). A translation fetched after a micro-TLB or unit miss fills the caches. -/
  | translationWalk (va : Nat)
  /-- MESSAGE_ARRIVAL (R308). A message reaches its destination NI and is accepted, held for reordering, diverted or parked. -/
  | messageArrival (n : Nat)
  /-- MS_ACKNOWLEDGEMENT (R200). The destination's acknowledgement removes an MS operation from its class count. -/
  | msAcknowledgement (n : Nat)
  /-- OVERFLOW_MOVE (R302). Queued messages move into the inbox in rounds once PEND and OCC allow. -/
  | overflowMove
  /-- WAITER_REQUEST (R216). A CWAIT request reaches the counter's home and is evaluated. -/
  | waiterRequest
  /-- COUNTER_OPERATION (R211). A sync engine applies one operation or copy credit to a counter, with saturation. -/
  | counterOperation (src : CtrSource)
  /-- DENY_BIT_UPDATE (R218). A deny-bit change reaches a NI of the partition. -/
  | denyBitUpdate (table engine : Nat)
  /-- CWAIT_RELEASE (R216). A release reaches the NI and the CWAIT completes, with its acquire. -/
  | cwaitRelease
  /-- CWTIMEOUT (R217). A CWAIT deadline passes without a release and the CWAIT traps. -/
  | cwtimeout
  /-- ATOMIC_APPLY (R221). The home engine applies an atomic indivisibly and returns the old value. -/
  | atomicApply (n : Nat)
  /-- REDUCTION_ACCEPT (R225). The home engine accepts a reduction, applying it or holding it under DET. -/
  | reductionAccept (n : Nat)
  /-- SEAL_ACCEPT (R226). A seal is counted in its round at the seal counter's home. -/
  | sealAccept (n : Nat)
  /-- FAULTWAIT_EXPIRY (R343). An open reduction fault is abandoned after FAULTWAIT milliseconds. -/
  | faultwaitExpiry (asid idx : Nat)
  /-- FILL_LANDING (R188). Fill bytes land, advance WMARK and credit the counter, and may make the shingle READY. -/
  | fillLanding (n off len : Nat)
  /-- RELEASE_POINT (R190). CPOUT has read every source byte; the shingle becomes READY and the release counter advances. -/
  | releasePoint (n : Nat)
  /-- VISIBILITY_POINT (R190). CPOUT's writes are visible at SCOPE and the visibility counter advances. -/
  | visibilityPoint (n : Nat)
  /-- COPY_FAULT (R194). A copy fault after issue ends the fill in error and makes ECC due. -/
  | copyFault (n va : Nat)
  /-- REMOTE_FILL (R192). A remote fill starts at the recipient once its shingle admits it. -/
  | remoteFill (n : Nat)
  /-- MSWAP_PAIRING (R182). Paired MSWAPs exchange shingle bytes. -/
  | mswapPairing (n : Nat)
  /-- JOIN_NOTICE (R175). A join notice reaches a truss member. -/
  | joinNotice (n : Nat)
  /-- MJOIN_COMPLETE (R332). All members have joined and are pinned; MJOIN leaves MX. -/
  | mjoinComplete (plan : Nat)
  /-- MMAT_ROW_DELIVERY (R176). A source's A row reaches a member's paired MMAT. -/
  | mmatRowDelivery (n : Nat)
  /-- LEAVE_NOTICE (R177). A leave notice reaches a member; the source's departure completes unpaired MMATs. -/
  | leaveNotice (n : Nat)
  /-- MX_OPERATION_START (R241). The CIM engine starts the next queued operation after its predecessor. -/
  | mxOperationStart
  /-- MX_OPERATION_COMPLETE (R165). An engine operation finishes its last write, leaves MX and sets MSTAT bits. -/
  | mxOperationComplete
  /-- BACKGROUND_CHECKSUM (R181). The per-millisecond macro checksum marks failing rows bad. -/
  | backgroundChecksum (mac : Fin 16)
  /-- SCRUB (R385). A background scrub corrects or counts errors in an array of a site, of a sync engine or of HBM. -/
  | scrub (arr : ArrayAt) (addr : Nat) (res : ScrubResult)
  /-- LAUNCH (R257). A launch record written to the mailbox is checked, refused or accepted. -/
  | launch (func port : Nat) (data : Option (BitVec 512))
  /-- LAUNCH_START (R258). A queued launch starts: GID, virtual tiles, placement and the launch message. -/
  | launchStart (part : Nat)
  /-- SEED (R259). A write to SEED commits the value that later acceptances latch. -/
  | seed (func : FuncAt) (v : Word)
  /-- MBDATA (R374). A 64-byte mailbox write becomes a message to the MBTGT target, or is discarded. -/
  | mbdata (func port entry : Nat) (data : Option (BitVec 512))
  /-- COMPACK (R375). A write to COMPACK takes effect only between COMPACK and COMPHEAD. -/
  | compack (func : FuncAt) (v : Word)
  /-- COMPLETION_RECORD_POST (R375). A completion record is posted to the ring once there is room, and MSI-X is raised. -/
  | completionRecordPost (func : Nat)
  /-- TREE_REPORT (R272). A virtual tile reports its combined status to its parent once finished, its children have reported and MS is zero.
  -/
  | treeReport
  /-- GANG_CLOSE (R273). The gang closes when the root is finished and T and F are zero. -/
  | gangClose (part gid : Nat)
  /-- RETIREMENT (R274). A closed gang drains, frees late messages and resources, posts its record and advances DONECTR. -/
  | retirement (part gid : Nat)
  /-- HOST_CXL_MEM_READ (R292). A host read is checked and performed at its home. -/
  | hostCxlMemRead (port hdm len : Nat)
  /-- HOST_CXL_MEM_WRITE (R292). A host write, with its enabled bytes, is accepted into the port's write queue and completed. -/
  | hostCxlMemWrite (port hdm : Nat) (bytes : List (Option Byte))
  /-- HOST_WRITE_PERFORM (R292). A queued host write is performed at its home in acceptance order. -/
  | hostWritePerform (port : Nat)
  /-- SEMA_READ (R377). A read of SEMA acquires the free semaphore or reports its owner. -/
  | semaRead (m : Nat)
  /-- SEMA_WRITE (R377). The owner's write to SEMA frees the semaphore. -/
  | semaWrite (m : Nat)
  /-- UNFREEZE (R378). The owner unfreezes the masters named in UNFREEZE. -/
  | unfreeze (m : Nat) (v : Word)
  /-- CONTROL_WINDOW_WRITE (R376). A write to a host-visible register with no row of its own. -/
  | controlWindowWrite (m : Nat) (addr : WinAddr) (v : Word)
  /-- PAPPLY (R380). Applies a staging partition record after checking it, and writes PSTATUS. -/
  | papply (m part : Nat) (v : Word)
  /-- PREPARE_IMAGE (R381). Command 1: loads and checks a code object and returns an IMAGE handle. -/
  | prepareImage
  /-- DROP_IMAGE (R381). Command 2: drops a prepared image not in use. -/
  | dropImage
  /-- REMOVE_GANG (R275). Command 3: removes a gang without closing, with KILLED. -/
  | removeGang
  /-- ASSIGN_ASID (R381). Command 4: assigns or frees an ASID with its root and service counters. -/
  | assignAsid
  /-- SELECT_PLACEMENT_TABLE (R381). Command 11: selects a gang's placement table for reading. -/
  | selectPlacementTable
  /-- COUNTERSIGN_MAP (R383). Command 12: verifies the owner's signatures over the map and sets COUNTERSIGNED. -/
  | countersignMap
  /-- MODE (R283). Request kind 1 or command 5: a mode change marks the range pending and waits for its drain. -/
  | mode (src : ReqSource)
  /-- MODE_CHANGE_SWITCH (R283). After the drain, firmware writes the new mode, invalidates translations and signals the counter. -/
  | modeChangeSwitch (n : Nat)
  /-- MAP (R342). Request kind 2 or command 6: maps unmapped pages with zeroed frames. -/
  | map (src : ReqSource)
  /-- UNMAP (R342). Request kind 3 or command 7: drains a range, removes its entries and frees frames. -/
  | unmap (src : ReqSource)
  /-- RESOLVE (R342). Request kind 4 or command 8: retries a faulted reduction. -/
  | resolve (src : ReqSource)
  /-- ABANDON (R342). Request kind 5 or command 9: discards a faulted reduction and sets REDLOST. -/
  | abandon (src : ReqSource)
  /-- FREECTR (R345). Request kind 6 or command 10: removes counters without waiters. -/
  | freectr (src : ReqSource)
  /-- HANDOVER_PERFORM (R230). Once its handle's earlier operations leave, HANDOVER changes the pages, invalidates translations and signals.
  -/
  | handoverPerform (n : Nat)
  /-- GANG_STOP_COMPLETE (R334). Once quiesced, drained and settled on one version, the stop completes and its counter advances. -/
  | gangStopComplete (part gid : Nat)
  /-- PREPARE (R323). A translator records version v + 1 and acknowledges. -/
  | prepare (part gid tr : Nat)
  /-- COMMIT (R323). A translator invalidates cached entries and translates under v + 1. -/
  | commit (part gid tr : Nat)
  /-- ABORT (R323). A translator discards the prepared version. -/
  | abort (part gid tr : Nat)
  /-- VERSION_CHANGE_COMPLETE (R323). Every COMMIT is acknowledged and the version change is complete. -/
  | versionChangeComplete (part gid : Nat)
  /-- DEMAND_SWAP (R325). Firmware serves a tile fault once a free tile or a victim exists. -/
  | demandSwap (part : Nat)
  /-- QUIESCE_COMPLETE (R330). The counts fall to the paired operations; the tile is marked absent, saved and released. -/
  | quiesceComplete
  /-- SWAP_IN (R332). A context is restored onto a free tile and committed resident. -/
  | swapIn
  /-- WHOLE_GANG_SWAP (R334). After a complete gang-stop, every resident tile is saved under one version change. -/
  | wholeGangSwap (part gid : Nat)
  /-- PROXY_WAITER_RELEASE (R329). The release of an absent tile's proxy waiter raises a tile fault. -/
  | proxyWaiterRelease
  /-- PACKET_ROUTING (R297). A router offers a head packet to the listed output with the most free slots. -/
  | packetRouting (site port lane : Nat)
  /-- TIMEOUT_DETECTOR (R299). A flit stands at a lane head for TDET cycles and the router becomes suspect. -/
  | timeoutDetector (site port lane : Nat)
  /-- RIDGE_TOKEN (R300). The token reaches a router; a suspect router captures it and drains flits into the gutter lane. -/
  | ridgeToken
  /-- GUTTER_DELIVERY (R301). A gutter flit is accepted at its destination. -/
  | gutterDelivery (site port : Nat)
  /-- SYNC_PULSE (R311). A sync pulse arrives and the router steps or holds TIME. -/
  | syncPulse (site : Nat)
  /-- TDETCFG (R312). Firmware writes TDET, saturated to 500–8,000. -/
  | tdetcfg (v : Nat)
  /-- BUDGET_INTERVAL (R350). At each 10 µs boundary the budget tree computes the steps and duties. -/
  | budgetInterval
  /-- STEP_CHANGE (R348). A new step is applied at an instruction boundary with the clock paused. -/
  | stepChange
  /-- STEP_PAUSE_END (R250). The clock resumes at the new step, and arrivals and due traps are applied. -/
  | stepPauseEnd
  /-- FETCHDUTY_UPDATE (R249). A new DUTY takes effect at the start of the next 16-cycle window. -/
  | fetchdutyUpdate
  /-- TELEMETRY_SAMPLE (R357). A shelf sample sets the ceiling and may shed or restore classes. -/
  | telemetrySample (freq volt : Nat)
  /-- LOSS_SAMPLE (R357). With no sample for 1 ms, a loss sample with DCFG.LOSS is taken every 250 µs. -/
  | lossSample
  /-- SHED_STOP (R361). A shedding gang reaches a barrier boundary and gang-stop begins. -/
  | shedStop (part gid : Nat)
  /-- GRACE_EXPIRY (R361). At the end of the 1 ms grace, unstopped tiles of shedding gangs get DUTY 1. -/
  | graceExpiry
  /-- PCAP (R355). A write to PCAP.CAP is saturated to CAPLO–CAPHI and counted when clamped. -/
  | pcap (func : FuncAt) (v : Nat)
  /-- PBOOST (R355). A write to PBOOST.MIN is saturated to BOOSTLO–8 and counted when clamped. -/
  | pboost (func : FuncAt) (v : Nat)
  /-- OUTLET_TEMPERATURE_HIGH (R357). Above 60 °C the ceiling is taken as DCFG.LOSS. -/
  | outletTemperatureHigh
  /-- THERMAL_SHUTDOWN (R382). An outlet above 70 °C shuts the module down. -/
  | thermalShutdown
  /-- INPUT_VOLTAGE_FAULT (R382). Input outside 740–860 V for more than 10 ms shuts the module down. -/
  | inputVoltageFault
  /-- POWER_UP (R382). A rim controller boots through the PUF, whose correction succeeds or fails, the image verification and the
  initialisation stages. -/
  | powerUp (ctl : Nat) (puf : Bool)
  /-- BOOT_TIMEOUT (R382). A controller not READY within 30 s is failed; both failed halt the module. -/
  | bootTimeout (ctl : Nat)
  /-- SELFTEST (R383). With both map copies bad, the wafer is tested and a self-built map is written. -/
  | selftest
  /-- LINK_DOWN (R377). Link-down or hot reset of the owner's port frees the semaphore. -/
  | linkDown (m : Nat)
  /-- HOT_RESET (R378). A hot reset of a port unfreezes its master. -/
  | hotReset (m : Nat)
  /-- MODULE_RESET (R378). Module reset unfreezes both masters and clears the counts. -/
  | moduleReset
  /-- SPDM_REQUEST (R384). An attestation request is answered with signed measurement blocks. -/
  | spdmRequest (nonce : Challenge)
  /-- HEARTBEAT_PROBE (R390). Firmware probes an occupied tile's NI every millisecond. -/
  | heartbeatProbe (site : Nat) (reply : Bool)
  /-- LINK_CRC_FAILURE (R390). Eight failed replays fail both routers of a link. -/
  | linkCrcFailure (a b : Nat)
  /-- SALVAGE (R391). The failed tile's context is read and saved, or declared lost. -/
  | salvage (site : Nat)
  /-- REPAIR_RECORD (R391). The repair list is signed and written to both flash copies. -/
  | repairRecord
  /-- REPAIR_REBUILD (R391). Pools, candidate tables, the ring and HOMETAB are recomputed and loaded. -/
  | repairRebuild
  /-- REPAIR_RESUME (R391). Gangs with lost contexts are killed and the others resume. -/
  | repairResume
  /-- UNASSIGNED_ENCODING (R7). A word that no instruction table assigns, or a TAIL reached other than after its HEAD, stands at issue and
  traps ILLEGAL or ILLEGAL_TAIL. -/
  | unassignedEncoding (w : W32) (second : Option W32)
  /-- FETCH_FAULT (R24). A fetch in straight-line flow at or above SHBASE.BASE, or one that meets an uncorrectable error, traps FETCH or ECC
  with BRT 0. -/
  | fetchFault (addr : Word) (ecc : Bool)
  /-- REGISTER_TO_REGISTER_WRITE (R238). At the end of cycle t+L−1 a register-to-register result is written, it releases the scoreboard, and
  it is ordered against a load arriving in the same cycle. -/
  | registerToRegisterWrite (n : Nat)
  /-- TILE_CYCLE (R251). Each counted tile cycle advances PERF events such as CYCLES and the stall events, and the fetch-slot window. -/
  | tileCycle
  /-- WAFER_TIME_TICK (R311). A router adds 1 to TIME every two router cycles. -/
  | waferTimeTick
  /-- OUTLET_TEMPERATURE_NORMAL (R357). The outlet temperature falls back to 60 °C or below, and firmware stops taking the ceiling as
  DCFG.LOSS. -/
  | outletTemperatureNormal
  /-- REQUEST_KIND_NOT_LISTED (R342). Firmware serves a posted request whose KIND is not listed: it writes RESULT 1 and advances DONECTR and
  REQHEAD. -/
  | requestKindNotListed (src : ReqSource)
deriving DecidableEq, Repr, Inhabited

/-- A virtual tile of a live gang: the partition, the GID (R394), and the number VROW × 4,096 + VCOL (R225). -/
structure TileId where
  part : Nat
  gid : Nat
  vt : Nat
deriving DecidableEq, Repr, Inhabited

/-- One turn of the module: the virtual tile that becomes the current one, if a tile is named, and the operation or event
that happens. A turn with no event is one cycle of the current tile (R237, R251). -/
structure Turn where
  who : Option TileId
  event : Option Instr
deriving DecidableEq, Repr, Inhabited

end Sys2Proof
end

