-- ==== Sys2Proof/WellFormed.lean ====
section
/-! DEFINITION. Which terms of Instr are instructions that an encoding can hold (R65 to R77, R163 to R234). The operand types
of Syntax.lean exclude most ill-formed terms; the checks here are those that relate fields or shorten a range. -/

namespace Sys2Proof

/-- The element types that integer vector arithmetic admits (R73): S32 and N32. -/
def ElemTy.isInt32 : ElemTy → Bool
  | .s32 | .n32 => true
  | .f32 | .bf16 | .fp16 | .s16 | .s8 | .n8 => false

/-- The element types that VREDMAX and VLDX admit (R73): F32, S32 and N32. -/
def ElemTy.isWord : ElemTy → Bool
  | .f32 | .s32 | .n32 => true
  | .bf16 | .fp16 | .s16 | .s8 | .n8 => false

/-- Whether a term is an instruction or event that the machine can meet. A word that breaks one of these checks traps
ILLEGAL (R65, R67 to R77, R153, R154, R158, R164, R168, R196, R201, R207, R208, R234); events carry no check here. -/
def Instr.wf : Instr → Bool
  | .add _ _ _ => true
  | .sub _ _ _ => true
  | .addw _ _ _ => true
  | .subw _ _ _ => true
  | .mul _ _ _ => true
  | .mulh _ _ _ => true
  | .mulhn _ _ _ => true
  | .div _ _ _ => true
  | .divn _ _ _ => true
  | .rem _ _ _ => true
  | .remn _ _ _ => true
  | .lea _ _ _ c => decide (c.val ≤ 4)
  | .and _ _ _ => true
  | .or _ _ _ => true
  | .xor _ _ _ => true
  | .andn _ _ _ => true
  | .orn _ _ _ => true
  | .shl _ _ _ => true
  | .shr _ _ _ => true
  | .sra _ _ _ => true
  | .rotr _ _ _ => true
  | .min _ _ _ => true
  | .max _ _ _ => true
  | .minn _ _ _ => true
  | .maxn _ _ _ => true
  | .seq _ _ _ => true
  | .sne _ _ _ => true
  | .slt _ _ _ => true
  | .sltn _ _ _ => true
  | .sle _ _ _ => true
  | .slen _ _ _ => true
  | .csel _ _ _ _ => true
  | .clz _ _ => true
  | .ctz _ _ => true
  | .popc _ _ => true
  | .brev _ _ => true
  | .bswap _ _ => true
  | .addi _ _ _ => true
  | .andi _ _ _ => true
  | .ori _ _ _ => true
  | .xori _ _ _ => true
  | .shli _ _ _ => true
  | .shri _ _ _ => true
  | .srai _ _ _ => true
  | .slti _ _ _ => true
  | .sltni _ _ _ => true
  | .movhi _ _ => true
  | .bext _ _ len1 pos => decide (pos.val + len1.val + 1 ≤ 64)
  | .bins _ _ len1 pos => decide (pos.val + len1.val + 1 ≤ 64)
  | .addl _ _ _ => true
  | .catl _ _ imm => decide (imm.toNat < 2 ^ 28)
  | .ld _ _ z _ => decide (z.val ≤ 3)
  | .ldn _ _ z _ => decide (z.val ≤ 2)
  | .st _ _ z _ => decide (z.val ≤ 3)
  | .gld _ _ z _ => decide (z.val ≤ 3)
  | .gldn _ _ z _ => decide (z.val ≤ 2)
  | .gst _ _ z _ => decide (z.val ≤ 3)
  | .b _ => true
  | .bl _ => true
  | .beq a rb _ => decide (a ≠ rb)
  | .bne a rb _ => decide (a ≠ rb)
  | .blt a rb _ => decide (a ≠ rb)
  | .bge a rb _ => decide (a ≠ rb)
  | .bltn a rb _ => decide (a ≠ rb)
  | .bgen a rb _ => decide (a ≠ rb)
  | .jr _ _ => true
  | .jlr _ _ => true
  | .bmany _ _ => true
  | .bmnone _ _ => true
  | .nop => true
  | .trap _ => true
  | .sysc _ => true
  | .brk _ => true
  | .eret => true
  | .idle => true
  | .mfs _ _ => true
  | .mts _ _ => true
  | .query _ _ => true
  | .tlbinv _ => true
  | .tlbinvAll => true
  | .wait _ _ _ _ _ => true
  | .vaddF _ _ _ _ => true
  | .vsubF _ _ _ _ => true
  | .vmulF _ _ _ _ => true
  | .vdivF _ _ _ _ => true
  | .vfma _ _ _ _ => true
  | .vfms _ _ _ _ => true
  | .vfnma _ _ _ _ => true
  | .vminF _ _ _ _ => true
  | .vmaxF _ _ _ _ => true
  | .vabsF _ _ _ => true
  | .vnegF _ _ _ => true
  | .vsqrt _ _ _ => true
  | .vrcp _ _ _ => true
  | .vrsq _ _ _ => true
  | .vexp2 _ _ _ => true
  | .vlog2 _ _ _ => true
  | .vtanh _ _ _ => true
  | .vaddI _ _ _ _ t => t.isInt32
  | .vsubI _ _ _ _ t => t.isInt32
  | .vmulI _ _ _ _ t => t.isInt32
  | .vminI _ _ _ _ t => t.isInt32
  | .vmaxI _ _ _ _ t => t.isInt32
  | .vand _ _ _ _ => true
  | .vor _ _ _ _ => true
  | .vxor _ _ _ _ => true
  | .vshl _ _ _ _ => true
  | .vshr _ _ _ _ => true
  | .vsra _ _ _ _ => true
  | .vcmpEqF _ _ _ _ => true
  | .vcmpNeF _ _ _ _ => true
  | .vcmpLtF _ _ _ _ => true
  | .vcmpLeF _ _ _ _ => true
  | .vcmpUnF _ _ _ _ => true
  | .vcmpEqI _ _ _ _ t => t.isInt32
  | .vcmpNeI _ _ _ _ t => t.isInt32
  | .vcmpLtI _ _ _ _ t => t.isInt32
  | .vcmpLeI _ _ _ _ t => t.isInt32
  | .vsel _ _ _ _ => true
  | .vbcast _ _ _ => true
  | .vmovs _ _ _ => true
  | .vins _ _ _ => true
  | .vshuf _ _ _ _ => true
  | .vslide _ _ _ _ => true
  | .vrng _ _ => true
  | .vredsumF _ _ _ => true
  | .vredmax _ _ _ t => t.isWord
  | .vredsumI _ _ _ t => t.isInt32
  | .vcvt _ _ _ src dst => decide (src ≠ dst)
  | .vpackLb _ a _ _ => decide (a.val % 2 = 0)
  | .vunpkLb d _ _ _ => decide (d.val % 2 = 0)
  | .vld _ _ _ _ => true
  | .vst _ _ _ _ => true
  | .vlds _ _ _ _ _ => true
  | .vsts _ _ _ _ _ => true
  | .vldg _ _ _ _ _ => true
  | .vstg _ _ _ _ _ => true
  | .vldx d _ _ _ t => decide (d.val % 16 = 0) && t.isWord
  | .vgld _ _ _ _ => true
  | .vgst _ _ _ _ => true
  | .mand _ _ _ => true
  | .mor _ _ _ => true
  | .mxor _ _ _ => true
  | .mnot _ _ => true
  | .mpop _ _ => true
  | .mfirst _ _ => true
  | .mset _ _ => true
  | .mlane _ _ => true
  | .vsetvl _ _ => true
  | .mcfg r _ => decide (r.val ≤ 5)
  | .mloadb _ _ => true
  | .mzero _ => true
  | .mma _ _ => true
  | .mmat _ _ => true
  | .macc2s _ _ _ _ => true
  | .ms2acc _ _ _ => true
  | .mswap _ _ => true
  | .mjoin _ => true
  | .mleave => true
  | .shdef _ _ => true
  | .shfree _ => true
  | .shrdy _ => true
  | .shstat _ _ _ => true
  | .shset _ _ _ => true
  | .cpin _ _ _ _ _ => true
  | .cpout _ _ _ _ => true
  | .cpdeal _ _ _ _ _ => true
  | .cpt _ _ _ => true
  | .send _ _ _ _ => true
  | .sendv _ _ _ _ => true
  | .bind _ _ => true
  | .unbind _ => true
  | .chmask _ _ => true
  | .done _ fin keep => !(fin && keep)
  | .inrd _ a cur => !cur || decide (a = 0)
  | .inskip _ => true
  | .callat _ rb _ _ => decide (rb.val ≤ 28)
  | .cadd _ _ _ _ => true
  | .cwait _ _ _ _ _ _ => true
  | .crd _ _ _ => true
  | .cexp _ _ => true
  | .cset _ _ => true
  | .axchg _ _ _ => true
  | .acas _ _ _ _ => true
  | .aadd _ _ _ => true
  | .amin _ _ _ _ => true
  | .amax _ _ _ _ => true
  | .radd _ _ _ => true
  | .rmin _ _ _ => true
  | .rmax _ _ _ => true
  | .rseal _ _ => true
  | .handover _ _ _ _ => true
  | .hset _ _ _ => true
  | .fence acq rel _ hs => (acq || rel) && decide (hs ≠ 0)
  | .fencea acq rel _ => acq || rel
  | .gstop _ _ => true
  | .gresume _ _ => true
  | .asynchronousTrap => true
  | .loadArrival _ => true
  | .globalStoreVisible _ => true
  | .accessPerformedAtHome _ _ _ => true
  | .translationWalk _ => true
  | .messageArrival _ => true
  | .msAcknowledgement _ => true
  | .overflowMove => true
  | .waiterRequest => true
  | .counterOperation _ => true
  | .denyBitUpdate _ _ => true
  | .cwaitRelease => true
  | .cwtimeout => true
  | .atomicApply _ => true
  | .reductionAccept _ => true
  | .sealAccept _ => true
  | .faultwaitExpiry _ _ => true
  | .fillLanding _ _ _ => true
  | .releasePoint _ => true
  | .visibilityPoint _ => true
  | .copyFault _ _ => true
  | .remoteFill _ => true
  | .mswapPairing _ => true
  | .joinNotice _ => true
  | .mjoinComplete _ => true
  | .mmatRowDelivery _ => true
  | .leaveNotice _ => true
  | .mxOperationStart => true
  | .mxOperationComplete => true
  | .backgroundChecksum _ => true
  | .scrub _ _ _ => true
  | .launch _ _ _ => true
  | .launchStart _ => true
  | .seed _ _ => true
  | .mbdata _ _ _ _ => true
  | .compack _ _ => true
  | .completionRecordPost _ => true
  | .treeReport => true
  | .gangClose _ _ => true
  | .retirement _ _ => true
  | .hostCxlMemRead _ _ _ => true
  | .hostCxlMemWrite _ _ _ => true
  | .hostWritePerform _ => true
  | .semaRead _ => true
  | .semaWrite _ => true
  | .unfreeze _ _ => true
  | .controlWindowWrite _ _ _ => true
  | .papply _ _ _ => true
  | .prepareImage => true
  | .dropImage => true
  | .removeGang => true
  | .assignAsid => true
  | .selectPlacementTable => true
  | .countersignMap => true
  | .mode _ => true
  | .modeChangeSwitch _ => true
  | .map _ => true
  | .unmap _ => true
  | .resolve _ => true
  | .abandon _ => true
  | .freectr _ => true
  | .handoverPerform _ => true
  | .gangStopComplete _ _ => true
  | .prepare _ _ _ => true
  | .commit _ _ _ => true
  | .abort _ _ _ => true
  | .versionChangeComplete _ _ => true
  | .demandSwap _ => true
  | .quiesceComplete => true
  | .swapIn => true
  | .wholeGangSwap _ _ => true
  | .proxyWaiterRelease => true
  | .packetRouting _ _ _ => true
  | .timeoutDetector _ _ _ => true
  | .ridgeToken => true
  | .gutterDelivery _ _ => true
  | .syncPulse _ => true
  | .tdetcfg _ => true
  | .budgetInterval => true
  | .stepChange => true
  | .stepPauseEnd => true
  | .fetchdutyUpdate => true
  | .telemetrySample _ _ => true
  | .lossSample => true
  | .shedStop _ _ => true
  | .graceExpiry => true
  | .pcap _ _ => true
  | .pboost _ _ => true
  | .outletTemperatureHigh => true
  | .thermalShutdown => true
  | .inputVoltageFault => true
  | .powerUp _ _ => true
  | .bootTimeout _ => true
  | .selftest => true
  | .linkDown _ => true
  | .hotReset _ => true
  | .moduleReset => true
  | .spdmRequest _ => true
  | .heartbeatProbe _ _ => true
  | .linkCrcFailure _ _ => true
  | .salvage _ => true
  | .repairRecord => true
  | .repairRebuild => true
  | .repairResume => true
  | .unassignedEncoding _ _ => true
  | .fetchFault _ _ => true
  | .registerToRegisterWrite _ => true
  | .tileCycle => true
  | .waferTimeTick => true
  | .outletTemperatureNormal => true
  | .requestKindNotListed _ => true

/-- Whether a term is an instruction word or pair, and not an operation or event of the module. -/
def Instr.isWord : Instr → Bool
  | .add _ _ _ => true
  | .sub _ _ _ => true
  | .addw _ _ _ => true
  | .subw _ _ _ => true
  | .mul _ _ _ => true
  | .mulh _ _ _ => true
  | .mulhn _ _ _ => true
  | .div _ _ _ => true
  | .divn _ _ _ => true
  | .rem _ _ _ => true
  | .remn _ _ _ => true
  | .lea _ _ _ _ => true
  | .and _ _ _ => true
  | .or _ _ _ => true
  | .xor _ _ _ => true
  | .andn _ _ _ => true
  | .orn _ _ _ => true
  | .shl _ _ _ => true
  | .shr _ _ _ => true
  | .sra _ _ _ => true
  | .rotr _ _ _ => true
  | .min _ _ _ => true
  | .max _ _ _ => true
  | .minn _ _ _ => true
  | .maxn _ _ _ => true
  | .seq _ _ _ => true
  | .sne _ _ _ => true
  | .slt _ _ _ => true
  | .sltn _ _ _ => true
  | .sle _ _ _ => true
  | .slen _ _ _ => true
  | .csel _ _ _ _ => true
  | .clz _ _ => true
  | .ctz _ _ => true
  | .popc _ _ => true
  | .brev _ _ => true
  | .bswap _ _ => true
  | .addi _ _ _ => true
  | .andi _ _ _ => true
  | .ori _ _ _ => true
  | .xori _ _ _ => true
  | .shli _ _ _ => true
  | .shri _ _ _ => true
  | .srai _ _ _ => true
  | .slti _ _ _ => true
  | .sltni _ _ _ => true
  | .movhi _ _ => true
  | .bext _ _ _ _ => true
  | .bins _ _ _ _ => true
  | .addl _ _ _ => true
  | .catl _ _ _ => true
  | .ld _ _ _ _ => true
  | .ldn _ _ _ _ => true
  | .st _ _ _ _ => true
  | .gld _ _ _ _ => true
  | .gldn _ _ _ _ => true
  | .gst _ _ _ _ => true
  | .b _ => true
  | .bl _ => true
  | .beq _ _ _ => true
  | .bne _ _ _ => true
  | .blt _ _ _ => true
  | .bge _ _ _ => true
  | .bltn _ _ _ => true
  | .bgen _ _ _ => true
  | .jr _ _ => true
  | .jlr _ _ => true
  | .bmany _ _ => true
  | .bmnone _ _ => true
  | .nop => true
  | .trap _ => true
  | .sysc _ => true
  | .brk _ => true
  | .eret => true
  | .idle => true
  | .mfs _ _ => true
  | .mts _ _ => true
  | .query _ _ => true
  | .tlbinv _ => true
  | .tlbinvAll => true
  | .wait _ _ _ _ _ => true
  | .vaddF _ _ _ _ => true
  | .vsubF _ _ _ _ => true
  | .vmulF _ _ _ _ => true
  | .vdivF _ _ _ _ => true
  | .vfma _ _ _ _ => true
  | .vfms _ _ _ _ => true
  | .vfnma _ _ _ _ => true
  | .vminF _ _ _ _ => true
  | .vmaxF _ _ _ _ => true
  | .vabsF _ _ _ => true
  | .vnegF _ _ _ => true
  | .vsqrt _ _ _ => true
  | .vrcp _ _ _ => true
  | .vrsq _ _ _ => true
  | .vexp2 _ _ _ => true
  | .vlog2 _ _ _ => true
  | .vtanh _ _ _ => true
  | .vaddI _ _ _ _ _ => true
  | .vsubI _ _ _ _ _ => true
  | .vmulI _ _ _ _ _ => true
  | .vminI _ _ _ _ _ => true
  | .vmaxI _ _ _ _ _ => true
  | .vand _ _ _ _ => true
  | .vor _ _ _ _ => true
  | .vxor _ _ _ _ => true
  | .vshl _ _ _ _ => true
  | .vshr _ _ _ _ => true
  | .vsra _ _ _ _ => true
  | .vcmpEqF _ _ _ _ => true
  | .vcmpNeF _ _ _ _ => true
  | .vcmpLtF _ _ _ _ => true
  | .vcmpLeF _ _ _ _ => true
  | .vcmpUnF _ _ _ _ => true
  | .vcmpEqI _ _ _ _ _ => true
  | .vcmpNeI _ _ _ _ _ => true
  | .vcmpLtI _ _ _ _ _ => true
  | .vcmpLeI _ _ _ _ _ => true
  | .vsel _ _ _ _ => true
  | .vbcast _ _ _ => true
  | .vmovs _ _ _ => true
  | .vins _ _ _ => true
  | .vshuf _ _ _ _ => true
  | .vslide _ _ _ _ => true
  | .vrng _ _ => true
  | .vredsumF _ _ _ => true
  | .vredmax _ _ _ _ => true
  | .vredsumI _ _ _ _ => true
  | .vcvt _ _ _ _ _ => true
  | .vpackLb _ _ _ _ => true
  | .vunpkLb _ _ _ _ => true
  | .vld _ _ _ _ => true
  | .vst _ _ _ _ => true
  | .vlds _ _ _ _ _ => true
  | .vsts _ _ _ _ _ => true
  | .vldg _ _ _ _ _ => true
  | .vstg _ _ _ _ _ => true
  | .vldx _ _ _ _ _ => true
  | .vgld _ _ _ _ => true
  | .vgst _ _ _ _ => true
  | .mand _ _ _ => true
  | .mor _ _ _ => true
  | .mxor _ _ _ => true
  | .mnot _ _ => true
  | .mpop _ _ => true
  | .mfirst _ _ => true
  | .mset _ _ => true
  | .mlane _ _ => true
  | .vsetvl _ _ => true
  | .mcfg _ _ => true
  | .mloadb _ _ => true
  | .mzero _ => true
  | .mma _ _ => true
  | .mmat _ _ => true
  | .macc2s _ _ _ _ => true
  | .ms2acc _ _ _ => true
  | .mswap _ _ => true
  | .mjoin _ => true
  | .mleave => true
  | .shdef _ _ => true
  | .shfree _ => true
  | .shrdy _ => true
  | .shstat _ _ _ => true
  | .shset _ _ _ => true
  | .cpin _ _ _ _ _ => true
  | .cpout _ _ _ _ => true
  | .cpdeal _ _ _ _ _ => true
  | .cpt _ _ _ => true
  | .send _ _ _ _ => true
  | .sendv _ _ _ _ => true
  | .bind _ _ => true
  | .unbind _ => true
  | .chmask _ _ => true
  | .done _ _ _ => true
  | .inrd _ _ _ => true
  | .inskip _ => true
  | .callat _ _ _ _ => true
  | .cadd _ _ _ _ => true
  | .cwait _ _ _ _ _ _ => true
  | .crd _ _ _ => true
  | .cexp _ _ => true
  | .cset _ _ => true
  | .axchg _ _ _ => true
  | .acas _ _ _ _ => true
  | .aadd _ _ _ => true
  | .amin _ _ _ _ => true
  | .amax _ _ _ _ => true
  | .radd _ _ _ => true
  | .rmin _ _ _ => true
  | .rmax _ _ _ => true
  | .rseal _ _ => true
  | .handover _ _ _ _ => true
  | .hset _ _ _ => true
  | .fence _ _ _ _ => true
  | .fencea _ _ _ => true
  | .gstop _ _ => true
  | .gresume _ _ => true
  | .asynchronousTrap => false
  | .loadArrival _ => false
  | .globalStoreVisible _ => false
  | .accessPerformedAtHome _ _ _ => false
  | .translationWalk _ => false
  | .messageArrival _ => false
  | .msAcknowledgement _ => false
  | .overflowMove => false
  | .waiterRequest => false
  | .counterOperation _ => false
  | .denyBitUpdate _ _ => false
  | .cwaitRelease => false
  | .cwtimeout => false
  | .atomicApply _ => false
  | .reductionAccept _ => false
  | .sealAccept _ => false
  | .faultwaitExpiry _ _ => false
  | .fillLanding _ _ _ => false
  | .releasePoint _ => false
  | .visibilityPoint _ => false
  | .copyFault _ _ => false
  | .remoteFill _ => false
  | .mswapPairing _ => false
  | .joinNotice _ => false
  | .mjoinComplete _ => false
  | .mmatRowDelivery _ => false
  | .leaveNotice _ => false
  | .mxOperationStart => false
  | .mxOperationComplete => false
  | .backgroundChecksum _ => false
  | .scrub _ _ _ => false
  | .launch _ _ _ => false
  | .launchStart _ => false
  | .seed _ _ => false
  | .mbdata _ _ _ _ => false
  | .compack _ _ => false
  | .completionRecordPost _ => false
  | .treeReport => false
  | .gangClose _ _ => false
  | .retirement _ _ => false
  | .hostCxlMemRead _ _ _ => false
  | .hostCxlMemWrite _ _ _ => false
  | .hostWritePerform _ => false
  | .semaRead _ => false
  | .semaWrite _ => false
  | .unfreeze _ _ => false
  | .controlWindowWrite _ _ _ => false
  | .papply _ _ _ => false
  | .prepareImage => false
  | .dropImage => false
  | .removeGang => false
  | .assignAsid => false
  | .selectPlacementTable => false
  | .countersignMap => false
  | .mode _ => false
  | .modeChangeSwitch _ => false
  | .map _ => false
  | .unmap _ => false
  | .resolve _ => false
  | .abandon _ => false
  | .freectr _ => false
  | .handoverPerform _ => false
  | .gangStopComplete _ _ => false
  | .prepare _ _ _ => false
  | .commit _ _ _ => false
  | .abort _ _ _ => false
  | .versionChangeComplete _ _ => false
  | .demandSwap _ => false
  | .quiesceComplete => false
  | .swapIn => false
  | .wholeGangSwap _ _ => false
  | .proxyWaiterRelease => false
  | .packetRouting _ _ _ => false
  | .timeoutDetector _ _ _ => false
  | .ridgeToken => false
  | .gutterDelivery _ _ => false
  | .syncPulse _ => false
  | .tdetcfg _ => false
  | .budgetInterval => false
  | .stepChange => false
  | .stepPauseEnd => false
  | .fetchdutyUpdate => false
  | .telemetrySample _ _ => false
  | .lossSample => false
  | .shedStop _ _ => false
  | .graceExpiry => false
  | .pcap _ _ => false
  | .pboost _ _ => false
  | .outletTemperatureHigh => false
  | .thermalShutdown => false
  | .inputVoltageFault => false
  | .powerUp _ _ => false
  | .bootTimeout _ => false
  | .selftest => false
  | .linkDown _ => false
  | .hotReset _ => false
  | .moduleReset => false
  | .spdmRequest _ => false
  | .heartbeatProbe _ _ => false
  | .linkCrcFailure _ _ => false
  | .salvage _ => false
  | .repairRecord => false
  | .repairRebuild => false
  | .repairResume => false
  | .unassignedEncoding _ _ => false
  | .fetchFault _ _ => false
  | .registerToRegisterWrite _ => false
  | .tileCycle => false
  | .waferTimeTick => false
  | .outletTemperatureNormal => false
  | .requestKindNotListed _ => false

end Sys2Proof
end

