-- ==== Sys2Proof/Decode.lean ====
section
/-! DEFINITION. The decoder, from the encoding tables R64 to R77, R164 and R196, total on every list of bytes and rejecting by
name; after it the encoder, and decodeTableWord for the host. Words are read as Nat, bit 0 the least significant. -/

namespace Sys2Proof

/-- Why bytes are no instruction. Every case traps ILLEGAL or ILLEGAL_TAIL when it stands at issue (R7, R78). -/
inductive DecodeError where
  /-- Fewer bytes than one word, or than the second word of a pair. -/
  | short
  /-- A major opcode that R66 leaves unassigned, or a function code that its group leaves unassigned. -/
  | unassigned (major funct : Nat)
  /-- A field that the instruction does not use is not zero (R65, R74). -/
  | reservedBits (major funct : Nat)
  /-- The fields name no well-formed instruction (Instr.wf), or a code of a closed list (R75, R164, R223). -/
  | illFormed (major funct : Nat)
  /-- A TAIL that stands alone (R78). -/
  | tailAlone
  /-- A HEAD that no TAIL follows (R78). -/
  | headAlone
deriving DecidableEq, Repr, Inhabited

/-- Bits [lo+n-1:lo] of w. -/
def fld (w lo n : Nat) : Nat := w / 2 ^ lo % 2 ^ n

/-- Bit lo of w. -/
def bit (w lo : Nat) : Bool := w / 2 ^ lo % 2 == 1

/-- A 3-bit field. -/
def f3 (w lo : Nat) : Fin 8 := ⟨w / 2 ^ lo % 8, Nat.mod_lt _ (by decide)⟩
/-- A 4-bit field. -/
def f4 (w lo : Nat) : Fin 16 := ⟨w / 2 ^ lo % 16, Nat.mod_lt _ (by decide)⟩
/-- A 5-bit field. -/
def f5 (w lo : Nat) : Fin 32 := ⟨w / 2 ^ lo % 32, Nat.mod_lt _ (by decide)⟩
/-- A 6-bit field. -/
def f6 (w lo : Nat) : Fin 64 := ⟨w / 2 ^ lo % 64, Nat.mod_lt _ (by decide)⟩

/-- The code of an element type (R72). -/
def ElemTy.code : ElemTy → Nat
  | .f32 => 0 | .bf16 => 1 | .fp16 => 2 | .s32 => 3 | .n32 => 4 | .s16 => 5 | .s8 => 6 | .n8 => 7

/-- The element type of a code (R72); every code is assigned. -/
def ElemTy.ofCode (c : Fin 8) : ElemTy :=
  match c with
  | 0 => .f32 | 1 => .bf16 | 2 => .fp16 | 3 => .s32 | 4 => .n32 | 5 => .s16 | 6 => .s8 | 7 => .n8

/-- The code of a scope (R75). -/
def Scope.code : Scope → Nat
  | .tile => 0 | .truss => 1 | .gang => 2 | .partition => 3 | .device => 4 | .host => 5

/-- The scope of a code; 6 and 7 are no scope (R75). -/
def Scope.ofCode : Nat → Option Scope
  | 0 => some .tile | 1 => some .truss | 2 => some .gang | 3 => some .partition | 4 => some .device | 5 => some .host
  | _ + 6 => none

/-- The code of a block format (R73). -/
def BlkFmt.code : BlkFmt → Nat
  | .lb4 => 0 | .lb6 => 1 | .lb8 => 2 | .lb12 => 3

/-- The block format of a 2-bit code (R73). -/
def BlkFmt.ofCode : Nat → BlkFmt
  | 0 => .lb4 | 1 => .lb6 | 2 => .lb8 | _ + 3 => .lb12

/-- The code of an accumulator format (R164). -/
def AccFmt.code : AccFmt → Nat
  | .f32 => 0 | .bf16 => 1 | .fp16 => 2

/-- The accumulator format of a code; 3 to 7 are none (R164). -/
def AccFmt.ofCode : Nat → Option AccFmt
  | 0 => some .f32 | 1 => some .bf16 | 2 => some .fp16 | _ + 3 => none

/-- The code of a reduction type (R223). -/
def RedTy.code : RedTy → Nat
  | .f32 => 0 | .s32 => 1 | .n32 => 2 | .s64 => 3 | .n64 => 4

/-- The reduction type of a code; 5 to 7 are none (R223). -/
def RedTy.ofCode : Nat → Option RedTy
  | 0 => some .f32 | 1 => some .s32 | 2 => some .n32 | 3 => some .s64 | 4 => some .n64 | _ + 5 => none

/-- The last check of every row: unused fields are zero (R65), and the term is well formed. -/
def settle (w : Nat) (bad : Bool) (i : Instr) : Except DecodeError Instr :=
  if bad then .error (.reservedBits (fld w 26 6) (fld w 0 26))
  else if i.wf then .ok i
  else .error (.illFormed (fld w 26 6) (fld w 0 26))

/-- A row whose code of a closed list must be assigned. -/
def withCode {α : Type} (w : Nat) (c : Option α) (k : α → Except DecodeError Instr) : Except DecodeError Instr :=
  match c with
  | some x => k x
  | none => .error (.illFormed (fld w 26 6) (fld w 0 26))

/-- Major 0x00: scalar register forms (R67). -/
def decodeScalar (w : Nat) : Except DecodeError Instr :=
  let d := f5 w 21
  let a := f5 w 16
  let b := f5 w 11
  let c := f5 w 0
  match fld w 5 6 with
  | 0x00 => settle w (fld w 0 5 ≠ 0) (.add d a b)
  | 0x01 => settle w (fld w 0 5 ≠ 0) (.sub d a b)
  | 0x02 => settle w (fld w 0 5 ≠ 0) (.addw d a b)
  | 0x03 => settle w (fld w 0 5 ≠ 0) (.subw d a b)
  | 0x04 => settle w (fld w 0 5 ≠ 0) (.mul d a b)
  | 0x05 => settle w (fld w 0 5 ≠ 0) (.mulh d a b)
  | 0x06 => settle w (fld w 0 5 ≠ 0) (.mulhn d a b)
  | 0x07 => settle w (fld w 0 5 ≠ 0) (.div d a b)
  | 0x08 => settle w (fld w 0 5 ≠ 0) (.divn d a b)
  | 0x09 => settle w (fld w 0 5 ≠ 0) (.rem d a b)
  | 0x0a => settle w (fld w 0 5 ≠ 0) (.remn d a b)
  | 0x0b => settle w false (.lea d a b c)
  | 0x10 => settle w (fld w 0 5 ≠ 0) (.and d a b)
  | 0x11 => settle w (fld w 0 5 ≠ 0) (.or d a b)
  | 0x12 => settle w (fld w 0 5 ≠ 0) (.xor d a b)
  | 0x13 => settle w (fld w 0 5 ≠ 0) (.andn d a b)
  | 0x14 => settle w (fld w 0 5 ≠ 0) (.orn d a b)
  | 0x18 => settle w (fld w 0 5 ≠ 0) (.shl d a b)
  | 0x19 => settle w (fld w 0 5 ≠ 0) (.shr d a b)
  | 0x1a => settle w (fld w 0 5 ≠ 0) (.sra d a b)
  | 0x1b => settle w (fld w 0 5 ≠ 0) (.rotr d a b)
  | 0x20 => settle w (fld w 0 5 ≠ 0) (.min d a b)
  | 0x21 => settle w (fld w 0 5 ≠ 0) (.max d a b)
  | 0x22 => settle w (fld w 0 5 ≠ 0) (.minn d a b)
  | 0x23 => settle w (fld w 0 5 ≠ 0) (.maxn d a b)
  | 0x28 => settle w (fld w 0 5 ≠ 0) (.seq d a b)
  | 0x29 => settle w (fld w 0 5 ≠ 0) (.sne d a b)
  | 0x2a => settle w (fld w 0 5 ≠ 0) (.slt d a b)
  | 0x2b => settle w (fld w 0 5 ≠ 0) (.sltn d a b)
  | 0x2c => settle w (fld w 0 5 ≠ 0) (.sle d a b)
  | 0x2d => settle w (fld w 0 5 ≠ 0) (.slen d a b)
  | 0x2e => settle w false (.csel d a b c)
  | 0x30 => settle w (fld w 0 5 ≠ 0 || fld w 11 5 ≠ 0) (.clz d a)
  | 0x31 => settle w (fld w 0 5 ≠ 0 || fld w 11 5 ≠ 0) (.ctz d a)
  | 0x32 => settle w (fld w 0 5 ≠ 0 || fld w 11 5 ≠ 0) (.popc d a)
  | 0x33 => settle w (fld w 0 5 ≠ 0 || fld w 11 5 ≠ 0) (.brev d a)
  | 0x34 => settle w (fld w 0 5 ≠ 0 || fld w 11 5 ≠ 0) (.bswap d a)
  | f => .error (.unassigned 0x00 f)

/-- Major 0x20: floating point (R73). -/
def decodeV20 (w : Nat) : Except DecodeError Instr :=
  let d := f5 w 21
  let a := f5 w 16
  let b := f5 w 11
  let k := f3 w 8
  match fld w 0 5 with
  | 0 => settle w (fld w 5 3 ≠ 0) (.vaddF d a b k)
  | 1 => settle w (fld w 5 3 ≠ 0) (.vsubF d a b k)
  | 2 => settle w (fld w 5 3 ≠ 0) (.vmulF d a b k)
  | 3 => settle w (fld w 5 3 ≠ 0) (.vdivF d a b k)
  | 4 => settle w (fld w 5 3 ≠ 0) (.vfma d a b k)
  | 5 => settle w (fld w 5 3 ≠ 0) (.vfms d a b k)
  | 6 => settle w (fld w 5 3 ≠ 0) (.vfnma d a b k)
  | 7 => settle w (fld w 5 3 ≠ 0) (.vminF d a b k)
  | 8 => settle w (fld w 5 3 ≠ 0) (.vmaxF d a b k)
  | 9 => settle w (fld w 11 5 ≠ 0 || fld w 5 3 ≠ 0) (.vabsF d a k)
  | 10 => settle w (fld w 11 5 ≠ 0 || fld w 5 3 ≠ 0) (.vnegF d a k)
  | 11 => settle w (fld w 11 5 ≠ 0 || fld w 5 3 ≠ 0) (.vsqrt d a k)
  | 12 => settle w (fld w 11 5 ≠ 0 || fld w 5 3 ≠ 0) (.vrcp d a k)
  | 13 => settle w (fld w 11 5 ≠ 0 || fld w 5 3 ≠ 0) (.vrsq d a k)
  | 14 => settle w (fld w 11 5 ≠ 0 || fld w 5 3 ≠ 0) (.vexp2 d a k)
  | 15 => settle w (fld w 11 5 ≠ 0 || fld w 5 3 ≠ 0) (.vlog2 d a k)
  | 16 => settle w (fld w 11 5 ≠ 0 || fld w 5 3 ≠ 0) (.vtanh d a k)
  | f => .error (.unassigned 0x20 f)

/-- Major 0x21: integer and logical (R73). -/
def decodeV21 (w : Nat) : Except DecodeError Instr :=
  let d := f5 w 21
  let a := f5 w 16
  let b := f5 w 11
  let k := f3 w 8
  let t := ElemTy.ofCode (f3 w 5)
  match fld w 0 5 with
  | 0 => settle w false (.vaddI d a b k t)
  | 1 => settle w false (.vsubI d a b k t)
  | 2 => settle w false (.vmulI d a b k t)
  | 3 => settle w false (.vminI d a b k t)
  | 4 => settle w false (.vmaxI d a b k t)
  | 8 => settle w (fld w 5 3 ≠ 0) (.vand d a b k)
  | 9 => settle w (fld w 5 3 ≠ 0) (.vor d a b k)
  | 10 => settle w (fld w 5 3 ≠ 0) (.vxor d a b k)
  | 12 => settle w (fld w 5 3 ≠ 0) (.vshl d a b k)
  | 13 => settle w (fld w 5 3 ≠ 0) (.vshr d a b k)
  | 14 => settle w (fld w 5 3 ≠ 0) (.vsra d a b k)
  | f => .error (.unassigned 0x21 f)

/-- Major 0x22: compare and select (R73). -/
def decodeV22 (w : Nat) : Except DecodeError Instr :=
  let d := f5 w 21
  let a := f5 w 16
  let b := f5 w 11
  let k := f3 w 8
  let t := ElemTy.ofCode (f3 w 5)
  let md := f3 w 21
  match fld w 0 5 with
  | 0 => settle w (fld w 24 2 ≠ 0 || fld w 5 3 ≠ 0) (.vcmpEqF md a b k)
  | 1 => settle w (fld w 24 2 ≠ 0 || fld w 5 3 ≠ 0) (.vcmpNeF md a b k)
  | 2 => settle w (fld w 24 2 ≠ 0 || fld w 5 3 ≠ 0) (.vcmpLtF md a b k)
  | 3 => settle w (fld w 24 2 ≠ 0 || fld w 5 3 ≠ 0) (.vcmpLeF md a b k)
  | 4 => settle w (fld w 24 2 ≠ 0 || fld w 5 3 ≠ 0) (.vcmpUnF md a b k)
  | 8 => settle w (fld w 24 2 ≠ 0) (.vcmpEqI md a b k t)
  | 9 => settle w (fld w 24 2 ≠ 0) (.vcmpNeI md a b k t)
  | 10 => settle w (fld w 24 2 ≠ 0) (.vcmpLtI md a b k t)
  | 11 => settle w (fld w 24 2 ≠ 0) (.vcmpLeI md a b k t)
  | 16 => settle w (fld w 5 3 ≠ 0) (.vsel d a b k)
  | f => .error (.unassigned 0x22 f)

/-- Major 0x23: moves, permutation and VRNG (R73). -/
def decodeV23 (w : Nat) : Except DecodeError Instr :=
  let d := f5 w 21
  let a := f5 w 16
  let b := f5 w 11
  let k := f3 w 8
  match fld w 0 5 with
  | 0 => settle w (fld w 11 5 ≠ 0 || fld w 5 3 ≠ 0) (.vbcast d a k)
  | 1 => settle w (fld w 8 3 ≠ 0 || fld w 5 3 ≠ 0) (.vmovs d a b)
  | 2 => settle w (fld w 8 3 ≠ 0 || fld w 5 3 ≠ 0) (.vins d a b)
  | 3 => settle w (fld w 5 3 ≠ 0) (.vshuf d a b k)
  | 4 => settle w (fld w 5 3 ≠ 0) (.vslide d a b k)
  | 8 => settle w (fld w 16 5 ≠ 0 || fld w 11 5 ≠ 0 || fld w 5 3 ≠ 0) (.vrng d k)
  | f => .error (.unassigned 0x23 f)

/-- Major 0x24: reductions and conversions (R73). -/
def decodeV24 (w : Nat) : Except DecodeError Instr :=
  let d := f5 w 21
  let a := f5 w 16
  let k := f3 w 8
  let t := ElemTy.ofCode (f3 w 5)
  match fld w 0 5 with
  | 0 => settle w (fld w 11 5 ≠ 0 || fld w 5 3 ≠ 0) (.vredsumF d a k)
  | 1 => settle w (fld w 11 5 ≠ 0) (.vredmax d a k t)
  | 2 => settle w (fld w 11 5 ≠ 0) (.vredsumI d a k t)
  | 8 => settle w (fld w 14 2 ≠ 0) (.vcvt d a k (ElemTy.ofCode (f3 w 11)) t)
  | 9 => settle w (fld w 13 3 ≠ 0 || fld w 5 3 ≠ 0) (.vpackLb d a (BlkFmt.ofCode (fld w 11 2)) k)
  | 10 => settle w (fld w 13 3 ≠ 0 || fld w 5 3 ≠ 0) (.vunpkLb d a (BlkFmt.ofCode (fld w 11 2)) k)
  | f => .error (.unassigned 0x24 f)

/-- Major 0x26: vector memory (R73). -/
def decodeV26 (w : Nat) : Except DecodeError Instr :=
  let d := f5 w 21
  let a := f5 w 16
  let b := f5 w 11
  let k := f3 w 8
  let t := ElemTy.ofCode (f3 w 5)
  match fld w 0 5 with
  | 0 => settle w (fld w 11 5 ≠ 0) (.vld d a k t)
  | 1 => settle w (fld w 11 5 ≠ 0) (.vst d a k t)
  | 2 => settle w false (.vlds d a b k t)
  | 3 => settle w false (.vsts d a b k t)
  | 4 => settle w false (.vldg d a b k t)
  | 5 => settle w false (.vstg d a b k t)
  | 6 => settle w false (.vldx d a b k t)
  | 8 => settle w (fld w 11 5 ≠ 0) (.vgld d a k t)
  | 9 => settle w (fld w 11 5 ≠ 0) (.vgst d a k t)
  | f => .error (.unassigned 0x26 f)

/-- Major 0x28: masks and vector length (R73). -/
def decodeV28 (w : Nat) : Except DecodeError Instr :=
  let d := f5 w 21
  let a := f5 w 16
  let md := f3 w 21
  let ma := f3 w 16
  let mb := f3 w 11
  match fld w 0 5 with
  | 0 => settle w (fld w 24 2 ≠ 0 || fld w 19 2 ≠ 0 || fld w 14 2 ≠ 0 || fld w 8 3 ≠ 0 || fld w 5 3 ≠ 0) (.mand md ma mb)
  | 1 => settle w (fld w 24 2 ≠ 0 || fld w 19 2 ≠ 0 || fld w 14 2 ≠ 0 || fld w 8 3 ≠ 0 || fld w 5 3 ≠ 0) (.mor md ma mb)
  | 2 => settle w (fld w 24 2 ≠ 0 || fld w 19 2 ≠ 0 || fld w 14 2 ≠ 0 || fld w 8 3 ≠ 0 || fld w 5 3 ≠ 0) (.mxor md ma mb)
  | 3 => settle w (fld w 24 2 ≠ 0 || fld w 19 2 ≠ 0 || fld w 11 5 ≠ 0 || fld w 8 3 ≠ 0 || fld w 5 3 ≠ 0) (.mnot md ma)
  | 4 => settle w (fld w 19 2 ≠ 0 || fld w 11 5 ≠ 0 || fld w 8 3 ≠ 0 || fld w 5 3 ≠ 0) (.mpop d ma)
  | 5 => settle w (fld w 19 2 ≠ 0 || fld w 11 5 ≠ 0 || fld w 8 3 ≠ 0 || fld w 5 3 ≠ 0) (.mfirst d ma)
  | 6 => settle w (fld w 24 2 ≠ 0 || fld w 11 5 ≠ 0 || fld w 8 3 ≠ 0 || fld w 5 3 ≠ 0) (.mset md a)
  | 7 => settle w (fld w 24 2 ≠ 0 || fld w 11 5 ≠ 0 || fld w 8 3 ≠ 0 || fld w 5 3 ≠ 0) (.mlane md a)
  | 16 => settle w (fld w 11 5 ≠ 0 || fld w 8 3 ≠ 0 || fld w 5 3 ≠ 0) (.vsetvl d a)
  | f => .error (.unassigned 0x28 f)

/-- Major 0x30 of format E (R74, R164, R196). -/
def decodeE30 (w : Nat) : Except DecodeError Instr :=
  let a := f5 w 15
  let b := f5 w 10
  match fld w 20 6 with
  | 0 => settle w (fld w 3 7 ≠ 0 || fld w 10 5 ≠ 0) (.mcfg (f3 w 0) a)
  | 1 => settle w (fld w 0 10 ≠ 0) (.mloadb a b)
  | 2 => settle w (fld w 0 10 ≠ 0 || fld w 15 5 ≠ 0) (.mzero b)
  | 3 => settle w (fld w 0 10 ≠ 0) (.mma a b)
  | 4 => settle w (fld w 0 10 ≠ 0) (.mmat a b)
  | 5 => withCode w (AccFmt.ofCode (fld w 0 3)) fun f => settle w (fld w 4 6 ≠ 0) (.macc2s a b (bit w 3) f)
  | 6 => withCode w (AccFmt.ofCode (fld w 0 3)) fun f => settle w (fld w 3 7 ≠ 0) (.ms2acc a b f)
  | 8 => settle w (fld w 0 10 ≠ 0) (.mswap a b)
  | 9 => settle w (fld w 0 10 ≠ 0 || fld w 10 5 ≠ 0) (.mjoin a)
  | 10 => settle w (fld w 0 10 ≠ 0 || fld w 15 5 ≠ 0 || fld w 10 5 ≠ 0) (.mleave)
  | f => .error (.unassigned 0x30 f)

/-- Major 0x31 of format E (R74, R164, R196). -/
def decodeE31 (w : Nat) : Except DecodeError Instr :=
  let a := f5 w 15
  let b := f5 w 10
  match fld w 20 6 with
  | 0 => settle w (fld w 0 10 ≠ 0) (.shdef a b)
  | 1 => settle w (fld w 0 10 ≠ 0 || fld w 10 5 ≠ 0) (.shfree a)
  | 2 => settle w (fld w 0 10 ≠ 0 || fld w 10 5 ≠ 0) (.shrdy a)
  | 3 => settle w (fld w 1 9 ≠ 0) (.shstat b a (bit w 0))
  | 4 => settle w (fld w 6 4 ≠ 0) (.shset a b (f6 w 0))
  | f => .error (.unassigned 0x31 f)

/-- Major 0x32 of format E (R74, R164, R196). -/
def decodeE32 (w : Nat) : Except DecodeError Instr :=
  let a := f5 w 15
  let b := f5 w 10
  match fld w 20 6 with
  | 0 => withCode w (Scope.ofCode (fld w 7 3)) fun sc => settle w (fld w 0 4 ≠ 0 || fld w 5 1 ≠ 0) (.cpin a b sc (bit w 6) (bit w 4))
  | 1 => withCode w (Scope.ofCode (fld w 7 3)) fun sc => settle w (fld w 0 5 ≠ 0 || fld w 6 1 ≠ 0) (.cpout a b sc (bit w 5))
  | 2 => withCode w (Scope.ofCode (fld w 7 3)) fun sc => settle w (fld w 0 4 ≠ 0 || fld w 5 1 ≠ 0) (.cpdeal a b sc (bit w 6) (bit w 4))
  | 3 => settle w (fld w 0 4 ≠ 0 || fld w 5 5 ≠ 0) (.cpt a b (bit w 4))
  | f => .error (.unassigned 0x32 f)

/-- Major 0x36 of format E (R74, R164, R196). -/
def decodeE36 (w : Nat) : Except DecodeError Instr :=
  let a := f5 w 15
  let b := f5 w 10
  match fld w 20 6 with
  | 0 => withCode w (Scope.ofCode (fld w 7 3)) fun sc => settle w (fld w 0 6 ≠ 0) (.send a b sc (bit w 6))
  | 1 => withCode w (Scope.ofCode (fld w 7 3)) fun sc => settle w (fld w 0 6 ≠ 0) (.sendv a b sc (bit w 6))
  | 2 => settle w (fld w 6 4 ≠ 0 || fld w 10 5 ≠ 0) (.bind (f6 w 0) a)
  | 3 => settle w (fld w 6 4 ≠ 0 || fld w 15 5 ≠ 0 || fld w 10 5 ≠ 0) (.unbind (f6 w 0))
  | 4 => settle w (fld w 0 10 ≠ 0) (.chmask a b)
  | 5 => settle w (fld w 2 8 ≠ 0 || fld w 10 5 ≠ 0) (.done a (bit w 1) (bit w 0))
  | 6 => settle w (fld w 1 9 ≠ 0) (.inrd b a (bit w 0))
  | 7 => settle w (fld w 0 10 ≠ 0 || fld w 15 5 ≠ 0) (.inskip b)
  | 8 => withCode w (Scope.ofCode (fld w 7 3)) fun sc => settle w (fld w 0 6 ≠ 0) (.callat a b sc (bit w 6))
  | f => .error (.unassigned 0x36 f)

/-- Major 0x37 of format E (R74, R164, R196). -/
def decodeE37 (w : Nat) : Except DecodeError Instr :=
  let a := f5 w 15
  let b := f5 w 10
  match fld w 20 6 with
  | 0 => withCode w (Scope.ofCode (fld w 7 3)) fun sc => settle w (fld w 0 6 ≠ 0) (.cadd a b sc (bit w 6))
  | 1 => withCode w (Scope.ofCode (fld w 7 3)) fun sc => settle w false (.cwait a b sc (bit w 6) (bit w 5) (f5 w 0))
  | 2 => settle w (fld w 1 9 ≠ 0) (.crd b a (bit w 0))
  | 3 => settle w (fld w 0 10 ≠ 0) (.cexp a b)
  | 4 => settle w (fld w 0 10 ≠ 0) (.cset a b)
  | f => .error (.unassigned 0x37 f)

/-- Major 0x38 of format E (R74, R164, R196). -/
def decodeE38 (w : Nat) : Except DecodeError Instr :=
  let a := f5 w 15
  let b := f5 w 10
  match fld w 20 6 with
  | 0 => settle w (!bit w 9 || fld w 0 8 ≠ 0) (.axchg a b (bit w 8))
  | 1 => settle w (!bit w 9 || fld w 5 3 ≠ 0) (.acas a b (f5 w 0) (bit w 8))
  | 2 => settle w (!bit w 9 || fld w 0 8 ≠ 0) (.aadd a b (bit w 8))
  | 3 => settle w (!bit w 9 || fld w 0 7 ≠ 0) (.amin a b (bit w 8) (bit w 7))
  | 4 => settle w (!bit w 9 || fld w 0 7 ≠ 0) (.amax a b (bit w 8) (bit w 7))
  | f => .error (.unassigned 0x38 f)

/-- Major 0x39 of format E (R74, R164, R196). -/
def decodeE39 (w : Nat) : Except DecodeError Instr :=
  let a := f5 w 15
  let b := f5 w 10
  match fld w 20 6 with
  | 0 => withCode w (RedTy.ofCode (fld w 0 3)) fun t => settle w (fld w 3 7 ≠ 0) (.radd a b t)
  | 1 => withCode w (RedTy.ofCode (fld w 0 3)) fun t => settle w (fld w 3 7 ≠ 0) (.rmin a b t)
  | 2 => withCode w (RedTy.ofCode (fld w 0 3)) fun t => settle w (fld w 3 7 ≠ 0) (.rmax a b t)
  | 3 => settle w (fld w 0 10 ≠ 0) (.rseal a b)
  | f => .error (.unassigned 0x39 f)

/-- Major 0x3a of format E (R74, R164, R196). -/
def decodeE3a (w : Nat) : Except DecodeError Instr :=
  let a := f5 w 15
  let b := f5 w 10
  match fld w 20 6 with
  | 0 => settle w (fld w 4 6 ≠ 0) (.handover (f3 w 0) a b (bit w 3))
  | 1 => settle w (fld w 3 7 ≠ 0) (.hset (f3 w 0) a b)
  | 2 => withCode w (Scope.ofCode (fld w 15 3)) fun sc => settle w (fld w 8 2 ≠ 0 || fld w 10 5 ≠ 0) (.fence (bit w 18) (bit w 19) sc (BitVec.ofNat 8 w))
  | 3 => withCode w (Scope.ofCode (fld w 15 3)) fun sc => settle w (fld w 0 10 ≠ 0 || fld w 10 5 ≠ 0) (.fencea (bit w 18) (bit w 19) sc)
  | f => .error (.unassigned 0x3a f)

/-- Major 0x3b of format E (R74, R164, R196). -/
def decodeE3b (w : Nat) : Except DecodeError Instr :=
  let a := f5 w 15
  let b := f5 w 10
  match fld w 20 6 with
  | 0 => settle w (fld w 0 10 ≠ 0) (.gstop a b)
  | 1 => settle w (fld w 0 10 ≠ 0) (.gresume a b)
  | f => .error (.unassigned 0x3b f)

/-- Major 0x0E: BEXT and BINS (R68). -/
def decodeBits (w : Nat) : Except DecodeError Instr :=
  match fld w 12 4 with
  | 0 => settle w false (.bext (f5 w 21) (f5 w 16) (f6 w 6) (f6 w 0))
  | 1 => settle w false (.bins (f5 w 21) (f5 w 16) (f6 w 6) (f6 w 0))
  | f => .error (.unassigned 0x0e f)

/-- Major 0x3C: the system group (R71). -/
def decodeSystem (w : Nat) : Except DecodeError Instr :=
  let d := f5 w 21
  let a := f5 w 16
  let x : BitVec 12 := BitVec.ofNat 12 w
  let noRegs := fld w 16 10 ≠ 0
  match fld w 12 4 with
  | 0 => settle w (noRegs || fld w 0 12 ≠ 0) .nop
  | 1 => settle w noRegs (.trap x)
  | 2 => settle w noRegs (.sysc x)
  | 3 => settle w noRegs (.brk x)
  | 4 => settle w (noRegs || fld w 0 12 ≠ 0) .eret
  | 5 => settle w (noRegs || fld w 0 12 ≠ 0) .idle
  | 6 => settle w (fld w 16 5 ≠ 0) (.mfs d x)
  | 7 => settle w (fld w 21 5 ≠ 0) (.mts a x)
  | 8 => settle w (fld w 16 5 ≠ 0) (.query d x)
  | 9 => if bit w 0 then settle w (noRegs || fld w 1 11 ≠ 0) .tlbinvAll
         else settle w (fld w 21 5 ≠ 0 || fld w 1 11 ≠ 0) (.tlbinv a)
  | f => .error (.unassigned 0x3c f)

/-- A conditional branch, or the instruction that its equal-field encodings hold (R70). -/
def decodeBranch (w : Nat) (ne eq : Instr) (badEq : Bool) : Except DecodeError Instr :=
  if f5 w 21 = f5 w 16 then settle w badEq eq else settle w false ne

/-- One word that is neither HEAD nor TAIL (R66). -/
def decodeWord (w : Nat) : Except DecodeError Instr :=
  let d := f5 w 21
  let a := f5 w 16
  let imm : BitVec 16 := BitVec.ofNat 16 w
  let off : BitVec 13 := BitVec.ofNat 13 w
  let wide : BitVec 26 := BitVec.ofNat 26 w
  let z := f3 w 13
  match fld w 26 6 with
  | 0x00 => decodeScalar w
  | 0x01 => settle w false (.addi d a imm)
  | 0x02 => settle w false (.andi d a imm)
  | 0x03 => settle w false (.ori d a imm)
  | 0x04 => settle w false (.xori d a imm)
  | 0x05 => settle w (fld w 6 10 ≠ 0) (.shli d a (f6 w 0))
  | 0x06 => settle w (fld w 6 10 ≠ 0) (.shri d a (f6 w 0))
  | 0x07 => settle w (fld w 6 10 ≠ 0) (.srai d a (f6 w 0))
  | 0x08 => settle w false (.slti d a imm)
  | 0x09 => settle w false (.sltni d a imm)
  | 0x0a => settle w (fld w 16 5 ≠ 0) (.movhi d imm)
  | 0x0e => decodeBits w
  | 0x10 => settle w false (.ld d a z off)
  | 0x11 => settle w false (.ldn d a z off)
  | 0x12 => settle w false (.st d a z off)
  | 0x13 => settle w false (.gld d a z off)
  | 0x14 => settle w false (.gldn d a z off)
  | 0x15 => settle w false (.gst d a z off)
  | 0x18 => settle w false (.b wide)
  | 0x19 => settle w false (.bl wide)
  | 0x1a => decodeBranch w (.beq d a imm) (.jr d imm) false
  | 0x1b => decodeBranch w (.bne d a imm) (.jlr d imm) false
  | 0x1c => decodeBranch w (.blt d a imm) (.bmany (f3 w 21) imm) (fld w 24 2 ≠ 0)
  | 0x1d => decodeBranch w (.bge d a imm) (.bmnone (f3 w 21) imm) (fld w 24 2 ≠ 0)
  | 0x1e => settle w false (.bltn d a imm)
  | 0x1f => settle w false (.bgen d a imm)
  | 0x20 => decodeV20 w
  | 0x21 => decodeV21 w
  | 0x22 => decodeV22 w
  | 0x23 => decodeV23 w
  | 0x24 => decodeV24 w
  | 0x26 => decodeV26 w
  | 0x28 => decodeV28 w
  | 0x30 => decodeE30 w
  | 0x31 => decodeE31 w
  | 0x32 => decodeE32 w
  | 0x36 => decodeE36 w
  | 0x37 => decodeE37 w
  | 0x38 => decodeE38 w
  | 0x39 => decodeE39 w
  | 0x3a => decodeE3a w
  | 0x3b => decodeE3b w
  | 0x3c => decodeSystem w
  | 0x3d => settle w (fld w 0 6 ≠ 0) (.wait (f4 w 22) (f4 w 18) (f4 w 14) (f4 w 10) (f4 w 6))
  | 0x3e => .error .headAlone
  | 0x3f => .error .tailAlone
  | m => .error (.unassigned m 0)

/-- A HEAD and the word after it (R77, R78). -/
def decodePair (h t : Nat) : Except DecodeError Instr :=
  if fld t 26 6 ≠ 0x3f then .error .headAlone
  else
    let imm : BitVec 36 := BitVec.ofNat 36 (fld h 0 26 * 1024 + fld t 0 10)
    match fld t 10 6 with
    | 0 => settle t false (.addl (f5 t 21) (f5 t 16) imm)
    | 1 => settle t false (.catl (f5 t 21) (f5 t 16) imm)
    | f => .error (.unassigned 0x3f f)

/-- The little-endian word of four bytes (R4). -/
def wordOf (b0 b1 b2 b3 : Byte) : Nat :=
  b0.toNat + 256 * b1.toNat + 65536 * b2.toNat + 16777216 * b3.toNat

/-- Decodes the instruction at the head of a list of bytes, and answers the bytes after it. -/
def decode : List Byte → Except DecodeError (Instr × List Byte)
  | b0 :: b1 :: b2 :: b3 :: rest =>
    let w := wordOf b0 b1 b2 b3
    if fld w 26 6 = 0x3e then
      match rest with
      | c0 :: c1 :: c2 :: c3 :: rest' => (decodePair w (wordOf c0 c1 c2 c3)).map fun i => (i, rest')
      | _ => .error .short
    else (decodeWord w).map fun i => (i, rest)
  | _ => .error .short

/-! The encoder (R64 to R77, R164, R196). -/

/-- Format A (R64). -/
def encA (m : Nat) (d a b : Fin 32) (f : Nat) (c : Fin 32) : Nat :=
  m * 2 ^ 26 + d.val * 2 ^ 21 + a.val * 2 ^ 16 + b.val * 2 ^ 11 + f * 2 ^ 5 + c.val
/-- Format I (R64). -/
def encI (m : Nat) (d a : Fin 32) (imm : Nat) : Nat := m * 2 ^ 26 + d.val * 2 ^ 21 + a.val * 2 ^ 16 + imm
/-- Format M (R64). -/
def encM (m : Nat) (d a : Fin 32) (z : Fin 8) (off : BitVec 13) : Nat :=
  m * 2 ^ 26 + d.val * 2 ^ 21 + a.val * 2 ^ 16 + z.val * 2 ^ 13 + off.toNat
/-- Format B (R64). -/
def encB (m a b : Nat) (disp : BitVec 16) : Nat := m * 2 ^ 26 + a * 2 ^ 21 + b * 2 ^ 16 + disp.toNat
/-- Format J (R64). -/
def encJ (m : Nat) (disp : BitVec 26) : Nat := m * 2 ^ 26 + disp.toNat
/-- Format V (R64). -/
def encV (m d a b : Nat) (k : Fin 8) (t f : Nat) : Nat :=
  m * 2 ^ 26 + d * 2 ^ 21 + a * 2 ^ 16 + b * 2 ^ 11 + k.val * 2 ^ 8 + t * 2 ^ 5 + f
/-- Format E (R64). -/
def encE (m f a b opts : Nat) : Nat := m * 2 ^ 26 + f * 2 ^ 20 + a * 2 ^ 15 + b * 2 ^ 10 + opts

/-- The words of an instruction; a term that is no instruction word has none. -/
def encode : Instr → List Nat
  | .add d a b => [encA 0x00 d a b 0x00 0]
  | .sub d a b => [encA 0x00 d a b 0x01 0]
  | .addw d a b => [encA 0x00 d a b 0x02 0]
  | .subw d a b => [encA 0x00 d a b 0x03 0]
  | .mul d a b => [encA 0x00 d a b 0x04 0]
  | .mulh d a b => [encA 0x00 d a b 0x05 0]
  | .mulhn d a b => [encA 0x00 d a b 0x06 0]
  | .div d a b => [encA 0x00 d a b 0x07 0]
  | .divn d a b => [encA 0x00 d a b 0x08 0]
  | .rem d a b => [encA 0x00 d a b 0x09 0]
  | .remn d a b => [encA 0x00 d a b 0x0a 0]
  | .lea d a b c => [encA 0x00 d a b 0x0b c]
  | .and d a b => [encA 0x00 d a b 0x10 0]
  | .or d a b => [encA 0x00 d a b 0x11 0]
  | .xor d a b => [encA 0x00 d a b 0x12 0]
  | .andn d a b => [encA 0x00 d a b 0x13 0]
  | .orn d a b => [encA 0x00 d a b 0x14 0]
  | .shl d a b => [encA 0x00 d a b 0x18 0]
  | .shr d a b => [encA 0x00 d a b 0x19 0]
  | .sra d a b => [encA 0x00 d a b 0x1a 0]
  | .rotr d a b => [encA 0x00 d a b 0x1b 0]
  | .min d a b => [encA 0x00 d a b 0x20 0]
  | .max d a b => [encA 0x00 d a b 0x21 0]
  | .minn d a b => [encA 0x00 d a b 0x22 0]
  | .maxn d a b => [encA 0x00 d a b 0x23 0]
  | .seq d a b => [encA 0x00 d a b 0x28 0]
  | .sne d a b => [encA 0x00 d a b 0x29 0]
  | .slt d a b => [encA 0x00 d a b 0x2a 0]
  | .sltn d a b => [encA 0x00 d a b 0x2b 0]
  | .sle d a b => [encA 0x00 d a b 0x2c 0]
  | .slen d a b => [encA 0x00 d a b 0x2d 0]
  | .csel d a b c => [encA 0x00 d a b 0x2e c]
  | .clz d a => [encA 0x00 d a 0 0x30 0]
  | .ctz d a => [encA 0x00 d a 0 0x31 0]
  | .popc d a => [encA 0x00 d a 0 0x32 0]
  | .brev d a => [encA 0x00 d a 0 0x33 0]
  | .bswap d a => [encA 0x00 d a 0 0x34 0]
  | .addi d a imm => [encI 0x01 d a imm.toNat]
  | .andi d a imm => [encI 0x02 d a imm.toNat]
  | .ori d a imm => [encI 0x03 d a imm.toNat]
  | .xori d a imm => [encI 0x04 d a imm.toNat]
  | .shli d a n => [encI 0x05 d a n]
  | .shri d a n => [encI 0x06 d a n]
  | .srai d a n => [encI 0x07 d a n]
  | .slti d a imm => [encI 0x08 d a imm.toNat]
  | .sltni d a imm => [encI 0x09 d a imm.toNat]
  | .movhi d imm => [encI 0x0a d 0 imm.toNat]
  | .bext d a len1 pos => [encI 0x0e d a (len1.val * 64 + pos.val)]
  | .bins d a len1 pos => [encI 0x0e d a (4096 + len1.val * 64 + pos.val)]
  | .addl d a imm => [0x3e * 2 ^ 26 + imm.toNat / 1024, 0x3f * 2 ^ 26 + d.val * 2 ^ 21 + a.val * 2 ^ 16 + imm.toNat % 1024]
  | .catl d a imm => [0x3e * 2 ^ 26 + imm.toNat / 1024, 0x3f * 2 ^ 26 + d.val * 2 ^ 21 + a.val * 2 ^ 16 + 1024 + imm.toNat % 1024]
  | .ld d a z off => [encM 0x10 d a z off]
  | .ldn d a z off => [encM 0x11 d a z off]
  | .st v a z off => [encM 0x12 v a z off]
  | .gld d a z off => [encM 0x13 d a z off]
  | .gldn d a z off => [encM 0x14 d a z off]
  | .gst v a z off => [encM 0x15 v a z off]
  | .b disp => [encJ 0x18 disp]
  | .bl disp => [encJ 0x19 disp]
  | .beq a b disp => [encB 0x1a a.val b.val disp]
  | .bne a b disp => [encB 0x1b a.val b.val disp]
  | .blt a b disp => [encB 0x1c a.val b.val disp]
  | .bge a b disp => [encB 0x1d a.val b.val disp]
  | .bltn a b disp => [encB 0x1e a.val b.val disp]
  | .bgen a b disp => [encB 0x1f a.val b.val disp]
  | .jr v disp => [encB 0x1a v.val v.val disp]
  | .jlr v disp => [encB 0x1b v.val v.val disp]
  | .bmany v disp => [encB 0x1c v.val v.val disp]
  | .bmnone v disp => [encB 0x1d v.val v.val disp]
  | .nop => [encI 0x3c 0 0 (0 * 4096)]
  | .trap x => [encI 0x3c 0 0 (1 * 4096 + x.toNat)]
  | .sysc x => [encI 0x3c 0 0 (2 * 4096 + x.toNat)]
  | .brk x => [encI 0x3c 0 0 (3 * 4096 + x.toNat)]
  | .eret => [encI 0x3c 0 0 (4 * 4096)]
  | .idle => [encI 0x3c 0 0 (5 * 4096)]
  | .mfs d x => [encI 0x3c d 0 (6 * 4096 + x.toNat)]
  | .mts a x => [encI 0x3c 0 a (7 * 4096 + x.toNat)]
  | .query d x => [encI 0x3c d 0 (8 * 4096 + x.toNat)]
  | .tlbinv a => [encI 0x3c 0 a (9 * 4096)]
  | .tlbinvAll => [encI 0x3c 0 0 (9 * 4096 + 1)]
  | .wait ld st cp mx ms => [0x3d * 2 ^ 26 + ld.val * 2 ^ 22 + st.val * 2 ^ 18 + cp.val * 2 ^ 14 + mx.val * 2 ^ 10 + ms.val * 2 ^ 6]
  | .vaddF d a b k => [encV 0x20 d a b k 0 0]
  | .vsubF d a b k => [encV 0x20 d a b k 0 1]
  | .vmulF d a b k => [encV 0x20 d a b k 0 2]
  | .vdivF d a b k => [encV 0x20 d a b k 0 3]
  | .vfma d a b k => [encV 0x20 d a b k 0 4]
  | .vfms d a b k => [encV 0x20 d a b k 0 5]
  | .vfnma d a b k => [encV 0x20 d a b k 0 6]
  | .vminF d a b k => [encV 0x20 d a b k 0 7]
  | .vmaxF d a b k => [encV 0x20 d a b k 0 8]
  | .vabsF d a k => [encV 0x20 d a 0 k 0 9]
  | .vnegF d a k => [encV 0x20 d a 0 k 0 10]
  | .vsqrt d a k => [encV 0x20 d a 0 k 0 11]
  | .vrcp d a k => [encV 0x20 d a 0 k 0 12]
  | .vrsq d a k => [encV 0x20 d a 0 k 0 13]
  | .vexp2 d a k => [encV 0x20 d a 0 k 0 14]
  | .vlog2 d a k => [encV 0x20 d a 0 k 0 15]
  | .vtanh d a k => [encV 0x20 d a 0 k 0 16]
  | .vaddI d a b k t => [encV 0x21 d a b k t.code 0]
  | .vsubI d a b k t => [encV 0x21 d a b k t.code 1]
  | .vmulI d a b k t => [encV 0x21 d a b k t.code 2]
  | .vminI d a b k t => [encV 0x21 d a b k t.code 3]
  | .vmaxI d a b k t => [encV 0x21 d a b k t.code 4]
  | .vand d a b k => [encV 0x21 d a b k 0 8]
  | .vor d a b k => [encV 0x21 d a b k 0 9]
  | .vxor d a b k => [encV 0x21 d a b k 0 10]
  | .vshl d a b k => [encV 0x21 d a b k 0 12]
  | .vshr d a b k => [encV 0x21 d a b k 0 13]
  | .vsra d a b k => [encV 0x21 d a b k 0 14]
  | .vcmpEqF d a b k => [encV 0x22 d.val a b k 0 0]
  | .vcmpNeF d a b k => [encV 0x22 d.val a b k 0 1]
  | .vcmpLtF d a b k => [encV 0x22 d.val a b k 0 2]
  | .vcmpLeF d a b k => [encV 0x22 d.val a b k 0 3]
  | .vcmpUnF d a b k => [encV 0x22 d.val a b k 0 4]
  | .vcmpEqI d a b k t => [encV 0x22 d.val a b k t.code 8]
  | .vcmpNeI d a b k t => [encV 0x22 d.val a b k t.code 9]
  | .vcmpLtI d a b k t => [encV 0x22 d.val a b k t.code 10]
  | .vcmpLeI d a b k t => [encV 0x22 d.val a b k t.code 11]
  | .vsel d a b k => [encV 0x22 d a b k 0 16]
  | .vbcast d a k => [encV 0x23 d a 0 k 0 0]
  | .vmovs d a b => [encV 0x23 d a b 0 0 1]
  | .vins d a b => [encV 0x23 d a b 0 0 2]
  | .vshuf d a p k => [encV 0x23 d a p k 0 3]
  | .vslide d a b k => [encV 0x23 d a b k 0 4]
  | .vrng d k => [encV 0x23 d 0 0 k 0 8]
  | .vredsumF d a k => [encV 0x24 d a 0 k 0 0]
  | .vredmax d a k t => [encV 0x24 d a 0 k t.code 1]
  | .vredsumI d a k t => [encV 0x24 d a 0 k t.code 2]
  | .vcvt d a k src dst => [encV 0x24 d a src.code k dst.code 8]
  | .vpackLb d a f k => [encV 0x24 d a f.code k 0 9]
  | .vunpkLb d a f k => [encV 0x24 d a f.code k 0 10]
  | .vld d a k t => [encV 0x26 d a 0 k t.code 0]
  | .vst d a k t => [encV 0x26 d a 0 k t.code 1]
  | .vlds d a b k t => [encV 0x26 d a b k t.code 2]
  | .vsts d a b k t => [encV 0x26 d a b k t.code 3]
  | .vldg d a b k t => [encV 0x26 d a b k t.code 4]
  | .vstg d a b k t => [encV 0x26 d a b k t.code 5]
  | .vldx d a b k t => [encV 0x26 d a b k t.code 6]
  | .vgld d a k t => [encV 0x26 d a 0 k t.code 8]
  | .vgst d a k t => [encV 0x26 d a 0 k t.code 9]
  | .mand d a b => [encV 0x28 d.val a.val b.val 0 0 0]
  | .mor d a b => [encV 0x28 d.val a.val b.val 0 0 1]
  | .mxor d a b => [encV 0x28 d.val a.val b.val 0 0 2]
  | .mnot d a => [encV 0x28 d.val a.val 0 0 0 3]
  | .mpop d a => [encV 0x28 d a.val 0 0 0 4]
  | .mfirst d a => [encV 0x28 d a.val 0 0 0 5]
  | .mset d a => [encV 0x28 d.val a 0 0 0 6]
  | .mlane d a => [encV 0x28 d.val a 0 0 0 7]
  | .vsetvl d a => [encV 0x28 d a 0 0 0 16]
  | .mcfg r a => [encE 0x30 0 a.val 0 (r.val)]
  | .mloadb a b => [encE 0x30 1 a.val b.val (0)]
  | .mzero b => [encE 0x30 2 0 b.val (0)]
  | .mma a b => [encE 0x30 3 a.val b.val (0)]
  | .mmat a b => [encE 0x30 4 a.val b.val (0)]
  | .macc2s a b clr f => [encE 0x30 5 a.val b.val (clr.toNat * 8 + f.code)]
  | .ms2acc a b f => [encE 0x30 6 a.val b.val (f.code)]
  | .mswap a b => [encE 0x30 8 a.val b.val (0)]
  | .mjoin a => [encE 0x30 9 a.val 0 (0)]
  | .mleave => [encE 0x30 10 0 0 (0)]
  | .shdef a b => [encE 0x31 0 a.val b.val (0)]
  | .shfree a => [encE 0x31 1 a.val 0 (0)]
  | .shrdy a => [encE 0x31 2 a.val 0 (0)]
  | .shstat d a word1 => [encE 0x31 3 a.val d.val (word1.toNat)]
  | .shset a b n => [encE 0x31 4 a.val b.val (n.val)]
  | .cpin a b sc acq xp => [encE 0x32 0 a.val b.val (sc.code * 128 + acq.toNat * 64 + xp.toNat * 16)]
  | .cpout a b sc rel => [encE 0x32 1 a.val b.val (sc.code * 128 + rel.toNat * 32)]
  | .cpdeal a b sc acq xp => [encE 0x32 2 a.val b.val (sc.code * 128 + acq.toNat * 64 + xp.toNat * 16)]
  | .cpt a b xp => [encE 0x32 3 a.val b.val (xp.toNat * 16)]
  | .send a b sc rel => [encE 0x36 0 a.val b.val (sc.code * 128 + rel.toNat * 64)]
  | .sendv a b sc rel => [encE 0x36 1 a.val b.val (sc.code * 128 + rel.toNat * 64)]
  | .bind c a => [encE 0x36 2 a.val 0 (c.val)]
  | .unbind c => [encE 0x36 3 0 0 (c.val)]
  | .chmask a b => [encE 0x36 4 a.val b.val (0)]
  | .done a fin keep => [encE 0x36 5 a.val 0 (fin.toNat * 2 + keep.toNat)]
  | .inrd d a cur => [encE 0x36 6 a.val d.val (cur.toNat)]
  | .inskip d => [encE 0x36 7 0 d.val (0)]
  | .callat a b sc rel => [encE 0x36 8 a.val b.val (sc.code * 128 + rel.toNat * 64)]
  | .cadd a b sc rel => [encE 0x37 0 a.val b.val (sc.code * 128 + rel.toNat * 64)]
  | .cwait a b sc acq nopend texp => [encE 0x37 1 a.val b.val (sc.code * 128 + acq.toNat * 64 + nopend.toNat * 32 + texp.val)]
  | .crd d a pend => [encE 0x37 2 a.val d.val (pend.toNat)]
  | .cexp a b => [encE 0x37 3 a.val b.val (0)]
  | .cset a b => [encE 0x37 4 a.val b.val (0)]
  | .axchg a b dw => [encE 0x38 0 a.val b.val (1 * 512 + dw.toNat * 256)]
  | .acas a b c dw => [encE 0x38 1 a.val b.val (1 * 512 + dw.toNat * 256 + c.val)]
  | .aadd a b dw => [encE 0x38 2 a.val b.val (1 * 512 + dw.toNat * 256)]
  | .amin a b dw nat => [encE 0x38 3 a.val b.val (1 * 512 + dw.toNat * 256 + nat.toNat * 128)]
  | .amax a b dw nat => [encE 0x38 4 a.val b.val (1 * 512 + dw.toNat * 256 + nat.toNat * 128)]
  | .radd a b t => [encE 0x39 0 a.val b.val (t.code)]
  | .rmin a b t => [encE 0x39 1 a.val b.val (t.code)]
  | .rmax a b t => [encE 0x39 2 a.val b.val (t.code)]
  | .rseal a b => [encE 0x39 3 a.val b.val (0)]
  | .handover h a b read => [encE 0x3a 0 a.val b.val (read.toNat * 8 + h.val)]
  | .hset h a b => [encE 0x3a 1 a.val b.val (h.val)]
  | .fence acq rel sc hs => [encE 0x3a 2 (8 * ((if rel then 2 else 0) + (if acq then 1 else 0)) + sc.code) 0 (hs.toNat)]
  | .fencea acq rel sc => [encE 0x3a 3 (8 * ((if rel then 2 else 0) + (if acq then 1 else 0)) + sc.code) 0 (0)]
  | .gstop a b => [encE 0x3b 0 a.val b.val (0)]
  | .gresume a b => [encE 0x3b 1 a.val b.val (0)]
  | .asynchronousTrap => []
  | .loadArrival _ => []
  | .globalStoreVisible _ => []
  | .accessPerformedAtHome _ _ _ => []
  | .translationWalk _ => []
  | .messageArrival _ => []
  | .msAcknowledgement _ => []
  | .overflowMove => []
  | .waiterRequest => []
  | .counterOperation _ => []
  | .denyBitUpdate _ _ => []
  | .cwaitRelease => []
  | .cwtimeout => []
  | .atomicApply _ => []
  | .reductionAccept _ => []
  | .sealAccept _ => []
  | .faultwaitExpiry _ _ => []
  | .fillLanding _ _ _ => []
  | .releasePoint _ => []
  | .visibilityPoint _ => []
  | .copyFault _ _ => []
  | .remoteFill _ => []
  | .mswapPairing _ => []
  | .joinNotice _ => []
  | .mjoinComplete _ => []
  | .mmatRowDelivery _ => []
  | .leaveNotice _ => []
  | .mxOperationStart => []
  | .mxOperationComplete => []
  | .backgroundChecksum _ => []
  | .scrub _ _ _ => []
  | .launch _ _ _ => []
  | .launchStart _ => []
  | .seed _ _ => []
  | .mbdata _ _ _ _ => []
  | .compack _ _ => []
  | .completionRecordPost _ => []
  | .treeReport => []
  | .gangClose _ _ => []
  | .retirement _ _ => []
  | .hostCxlMemRead _ _ _ => []
  | .hostCxlMemWrite _ _ _ => []
  | .hostWritePerform _ => []
  | .semaRead _ => []
  | .semaWrite _ => []
  | .unfreeze _ _ => []
  | .controlWindowWrite _ _ _ => []
  | .papply _ _ _ => []
  | .prepareImage => []
  | .dropImage => []
  | .removeGang => []
  | .assignAsid => []
  | .selectPlacementTable => []
  | .countersignMap => []
  | .mode _ => []
  | .modeChangeSwitch _ => []
  | .map _ => []
  | .unmap _ => []
  | .resolve _ => []
  | .abandon _ => []
  | .freectr _ => []
  | .handoverPerform _ => []
  | .gangStopComplete _ _ => []
  | .prepare _ _ _ => []
  | .commit _ _ _ => []
  | .abort _ _ _ => []
  | .versionChangeComplete _ _ => []
  | .demandSwap _ => []
  | .quiesceComplete => []
  | .swapIn => []
  | .wholeGangSwap _ _ => []
  | .proxyWaiterRelease => []
  | .packetRouting _ _ _ => []
  | .timeoutDetector _ _ _ => []
  | .ridgeToken => []
  | .gutterDelivery _ _ => []
  | .syncPulse _ => []
  | .tdetcfg _ => []
  | .budgetInterval => []
  | .stepChange => []
  | .stepPauseEnd => []
  | .fetchdutyUpdate => []
  | .telemetrySample _ _ => []
  | .lossSample => []
  | .shedStop _ _ => []
  | .graceExpiry => []
  | .pcap _ _ => []
  | .pboost _ _ => []
  | .outletTemperatureHigh => []
  | .thermalShutdown => []
  | .inputVoltageFault => []
  | .powerUp _ _ => []
  | .bootTimeout _ => []
  | .selftest => []
  | .linkDown _ => []
  | .hotReset _ => []
  | .moduleReset => []
  | .spdmRequest _ => []
  | .heartbeatProbe _ _ => []
  | .linkCrcFailure _ _ => []
  | .salvage _ => []
  | .repairRecord => []
  | .repairRebuild => []
  | .repairResume => []
  | .unassignedEncoding _ _ => []
  | .fetchFault _ _ => []
  | .registerToRegisterWrite _ => []
  | .tileCycle => []
  | .waferTimeTick => []
  | .outletTemperatureNormal => []
  | .requestKindNotListed _ => []

/-- The four bytes of a word, low byte first (R4). -/
def bytesOfWord (w : Nat) : List Byte :=
  [BitVec.ofNat 8 w, BitVec.ofNat 8 (w / 256), BitVec.ofNat 8 (w / 65536), BitVec.ofNat 8 (w / 16777216)]

/-- The bytes of an instruction. -/
def encodeBytes (i : Instr) : List Byte := (encode i).flatMap bytesOfWord

/-- The eight bytes of an instruction whose first nbits bits are w, the bits above zero. -/
def tableBytes (nbits w : Nat) : List Byte :=
  bytesOfWord (w % 2 ^ nbits) ++ bytesOfWord (w % 2 ^ nbits / 2 ^ 32)

/-- The instruction that the decoder reads from a row's word, bits numbered as the opcode table numbers them. -/
def decodeTableWord (nbits w : Nat) : Option Instr :=
  match decode (tableBytes nbits w) with
  | .ok r => some r.1
  | .error _ => none

end Sys2Proof
end

