-- ==== Sys2Proof/Config.lean ====
section
/-! DEFINITION. What the configuration image or the part fixes (R2, R296, R382, R392) and the free values: constants without a
body, so that every statement holds for each of their values. gen counts the rebuilds of repair (R391).
DESIGN CHOICE, logs 1, 48 and 49: the free values are taken at a counter of the draws, and the image and cryptography are constants. -/

namespace Sys2Proof.Config

/-- Free value. The turn that the module takes when nothing forces the next one: which agent moves, and which input of the
outside world arrives (log 2). -/
opaque schedule : Nat → Turn

/-- Free value. The inbox slot that an accepted message takes (R30 says which messages take one, not which slot) (log 18). -/
opaque slotChoice : Nat → Nat

/-- Free value. Whether the n-th fetch of bytes that an earlier store changed sees the new bytes, where R108 leaves it open (log 43). -/
opaque fetchSeesNew : Nat → Bool

/-- Free value. The 64 KiB frame that MAP tries first for a page (R342 names no allocation order) (log 18). -/
opaque frameChoice : Nat → Nat

/-- Free value. How many K steps of an accumulator element an abandoned matrix operation has applied (R181 names no number); the
element is given as 128 × row + column (log 10). -/
opaque abandonSteps : (draw element : Nat) → Nat

/-- Free value. Which pending tile fault of a partition firmware serves next (R325 and R328 name no order) (log 18). -/
opaque faultChoice : Nat → Nat

/-- Free value. Which contents an engine operation reads of a scratchpad word that stores have changed since its issue (R167): 0 the
present ones, else older ones, counted back (log 27). -/
opaque mxSees : (draw word : Nat) → Nat

/-- Free value. Whether an MACC2S in progress writes a scratchpad word in a cycle (R167) (log 27). -/
opaque mxWrites : (draw word : Nat) → Bool

/-- Free value. An aligned 8-byte word of HBM that a table walk or firmware reads while it is uncorrectable (R385 has it checked, and no rule
gives what the reader takes) (log 71). -/
opaque lostWord : (word : Nat) → Nat

/-- Free value. The bytes that a selection takes from an uncorrectable word of the inbox as it looks at a call (R202; R385 has the word
checked, and no rule gives what the NI takes) (log 82). -/
opaque lostPayload : (draw : Nat) → Nat

/-- The cause code of the fault-ring record for a context that was lost while it was saved on a site that has not failed (R386,
R391 name none) (log 14). -/
opaque saveCause : Nat

/-- Free value. Which free handle a prepared image gets (R381 names none) (log 18). -/
opaque handleChoice : Nat → Nat

/-- The candidate table as the loader wrote it (R297): outputs of a router for a destination entry; 0 north, 1 east, 2 south, 3 west,
4 local. -/
opaque candidates : (gen site entry : Nat) → List Nat

/-- Whether the image marks a router failed (R312). -/
opaque routerFailed : (site : Nat) → Bool

/-- The next router in the order of the ridge token's ring (R300). -/
opaque ringNext : (gen site : Nat) → Nat

/-- The router that holds the ridge token first (R300). -/
opaque ringStart : Nat

/-- The next router on the detour of the gutter route toward a destination site, where a router has failed (R301). -/
opaque gutterNext : (gen site dest : Nat) → Nat

/-- The calibrated depth D of a router, in ns (R311). -/
opaque depth : (site : Nat) → Nat

/-- The site of the attachment router of the sync engine of a field (R296). -/
opaque engineSite : (field : Nat) → Nat

/-- The site of the attachment router of the eave streamer of an HBM stack (R296). -/
opaque stackSite : (stack : Nat) → Nat

/-- The site of the attachment router of a host port (R296). -/
opaque portSite : (port : Nat) → Nat

/-- Whether the defect map calls a site a working tile (R1, R350). -/
opaque working : (site : Nat) → Bool

/-- The partition whose pool holds the site as the loader left it, 64 or more for none (R321). -/
opaque poolOf : (site : Nat) → Nat

/-- The route length from a physical tile to the spanning-tree parent of a virtual tile, as the loader takes it to rank its lists (R321,
R364): the parent has no place yet, and the rules do not say where the loader takes it to be. -/
opaque routeLen : (gen part rows cols root vt site : Nat) → Nat

/-! ## The spanning tree -/

/-- The parent that the loader gives a virtual tile of a grid, where its tree is one (R271). -/
opaque treeRaw : (rows cols root vt : Nat) → Nat

/-- The virtual tiles of a grid. -/
def gridTiles (rows cols : Nat) : List Nat := (List.range rows).flatMap fun r => (List.range cols).map fun c => 4096 * r + c

/-- Whether the way up from a virtual tile under a parent function comes to the root in a number of steps. -/
def climbs (parent : Nat → Nat) (root : Nat) : Nat → Nat → Bool
  | 0, vt => decide (vt = root)
  | n + 1, vt => decide (vt = root) || climbs parent root n (parent vt)

/-- Whether a parent function lays a spanning tree over a grid (R271): every way up leads to the root inside the grid, and no tile has
more than 16 children. -/
def treeOk (parent : Nat → Nat) (rows cols root : Nat) : Bool :=
  let l := gridTiles rows cols
  l.all fun vt => climbs parent root (rows * cols) vt && (decide (vt = root) || l.contains (parent vt)) &&
    decide (l.countP (fun x => decide (x ≠ root ∧ parent x = vt)) ≤ 16)

/-- A tree of 16 children a tile over a grid, counted on from the root. -/
def wideTree (rows cols root vt : Nat) : Nat :=
  let n := rows * cols
  let idx (v : Nat) : Nat := v / 4096 * cols + v % 4096
  let k := (idx vt + n - idx root) % n
  let p := ((k - 1) / 16 + idx root) % n
  4096 * (p / cols) + p % cols

/-- The spanning-tree parent of a virtual tile (R271): that of the loader's tree. Where the constant lays no tree, which no loader
does, a tree of the model's stands in for it (log 48, DESIGN CHOICE). -/
def treeParent (rows cols root vt : Nat) : Nat :=
  if treeOk (treeRaw rows cols root) rows cols root then treeRaw rows cols root vt else wideTree rows cols root vt

/-- The number of children of a virtual tile in the spanning tree (R271). -/
def treeKids (rows cols root vt : Nat) : Nat :=
  (gridTiles rows cols).countP fun x => decide (x ≠ root ∧ treeParent rows cols root x = vt)

/-! ## The image, the part and its keys -/

/-- The field to which a rebuild moves an entry of HOMETAB whose engine has failed (R391) (log 47). -/
opaque rebuiltHome : (gen part entry : Nat) → Nat

/-- Free value. The router that gains or loses a nanosecond against the root in a tick, if there is such a site (R311) (log 33). -/
opaque driftSite : Nat → Nat

/-- Free value. Whether that router gains it (R311) (log 33). -/
opaque driftAhead : Nat → Bool

/-- Free value. Which of its network's two lanes a flit takes over a link when both have a free slot (R296) (log 60). -/
opaque laneChoice : Nat → Bool

/-- P[f][s], in mW (R350). -/
opaque power : (field step : Nat) → Nat

/-- FIXED, in mW (R350). -/
opaque fixedPower : Nat

/-- Whether the part is stepping A1, and not A0 (R392). -/
opaque steppingA1 : Bool

/-- Whether the configuration image sets the countersigning policy (R383). -/
opaque countersignPolicy : Bool

/-- An image in flash (R382): what its header says, its body, and the signatures over the header. -/
structure FlashImage where
  magic : Nat
  kind : Nat
  hash : List Byte
  version : Nat
  body : List Byte
  rsa : List Byte
  slh : List Byte
deriving DecidableEq, Repr, Inhabited

/-- The images that flash holds when the part is first powered (R382): kind 0 firmware, 1 configuration, 2 defect map; copy 0 is A,
copy 1 is B. -/
opaque flashImage : (kind copy : Nat) → FlashImage

/-- The MAGIC of an image header (R382). -/
opaque flashMagic : Nat

/-- SHA-384 (R382, R384). -/
opaque sha384 : List Byte → List Byte

/-- Whether an RSA-3072 signature over an image header verifies against a key whose hash the ROM holds (R382). -/
opaque rsaVerifies : (header : Nat × Nat × List Byte × Nat) → (signature : List Byte) → Bool

/-- Whether an SLH-DSA-SHAKE-256s signature over an image header verifies against a key whose hash the ROM holds (R382). -/
opaque slhVerifies : (header : Nat × Nat × List Byte × Nat) → (signature : List Byte) → Bool

/-- The body of the defect map that the self-test builds (R383). -/
opaque builtMap : List Byte

/-- The RSA-3072 and the SLH-DSA signature of the part's identity keys over bytes (R382, R383, R391). -/
opaque identitySign : List Byte → List Byte × List Byte

/-- The bytes of a repair list of sites and causes, and of an image header, as they are signed and measured (R384, R391). -/
opaque listBytes : List (Nat × Nat) → List Byte
opaque headerBytes : (header : Nat × Nat × List Byte × Nat) → List Byte

/-- Whether a signature block verifies over a defect map under the owner keys, whose hashes a configuration image holds (R383). -/
opaque mapSignature : (config map : List Byte) → (block : List Byte) → Bool

/-- Free value. A word of the pending-bit array of a function's MSI-X table (R372 places it and gives no bits) (log 46). -/
opaque pendingBits : (func raised : Nat) → Word

/-- Free value. A word of an ASID entry as the control window shows it (R376 places the entry and gives no layout) (log 46). -/
opaque asidWord : (entry : List Nat) → (off : Nat) → Word

/-- Measurement block 1 of attestation, the ROM version, and block 5 for the security versions of the images (R384). -/
opaque romVersion : List Byte
opaque versionBlock : List Nat → List Byte

/-- The SLH-DSA identity signature of a controller over blocks 1 to 6 and a nonce (R384). -/
opaque identitySignature : (controller : Nat) → (blocks : List (List Byte)) → (nonce : Word) → List Byte

/-- The signature of an attestation response with the RSA-3072 identity key of a controller (R384). -/
opaque responseSignature : (controller : Nat) → (blocks : List (List Byte)) → List Byte

end Sys2Proof.Config
end

