-- ==== Sys2Proof/Machine/State.lean ====
section
/-! DEFINITION. The state of the module as plain data: the virtual tile whose turn it is, every other virtual tile, the sync
engines, global memory, the fabric, the host ports, the control window, power, boot and repair; and State.reset. -/

namespace Sys2Proof.Machine

/-- Bytes by address, addresses strictly rising, no entry equal to 0, which is what an unlisted address reads as (R41, R342;
log 4, DESIGN CHOICE). Machine/Memory.lean holds the operations. -/
abbrev Memory := List Host.Cell

/-- The 16 lanes of a vector register (R12). -/
abbrev VVal := Vector W32 16

/-- The bits [15:0] of a mask register (R13); the bits [63:16] read as zero. -/
abbrev Mask := BitVec 16

/-! ## What a virtual tile holds -/

/-- The states of a shingle (R25, R27). -/
inductive ShState where
  | empty | filling | ready | draining
deriving DecidableEq, Repr, Inhabited

/-- A defined shingle (R25): state, watermark in bytes, length in 64-byte units, raw base, the counters of the fill and of
the drain. -/
structure Shingle where
  st : ShState
  wmark : Nat
  len : Nat
  base : Nat
  fctr : W32
  dctr : W32
deriving DecidableEq, Repr, Inhabited

/-- A range handle (R14). Its count is computed from the outstanding operations. -/
structure Handle where
  base : Word
  len : Word
deriving DecidableEq, Repr, Inhabited

/-- A handler-table entry (R29). PEND is computed from the inbox; entry is ENTRY, the PC bits [18:2]. -/
structure Channel where
  bound : Bool
  seq : Bool
  mask : Bool
  pri : Fin 8
  quota : Nat
  age : Nat
  entry : Nat
deriving DecidableEq, Repr, Inhabited

/-- The kinds of a message (R208). -/
inductive MsgKind where
  | send | sendv | call | host
deriving DecidableEq, Repr, Inhabited

/-- The metadata of an occupied inbox slot (R30, R208). -/
structure Slot where
  slot : Fin 256
  chan : Fin 64
  kind : MsgKind
  rfs : Bool
  seqno : BitVec 16
  src : BitVec 24
deriving DecidableEq, Repr, Inhabited

/-- Who sent a message: an operation of a virtual tile, a NI (a call refusal, R202), or a host port (R261). -/
inductive Origin where
  | op (vt stamp : Nat)
  | ni (vt : Nat)
  | port (p : Nat)
deriving DecidableEq, Repr, Inhabited

/-- A message on its way, held, queued or parked (R200, R302, R308, R326). sent says that it has left its NI or port (R198,
R308); phys is the physical tile that its translator then found, none where the destination was absent (R322). -/
structure Msg where
  serial : Nat
  part : Nat
  gid : Nat
  origin : Origin
  dst : Nat
  chan : Fin 64
  kind : MsgKind
  rfs : Bool
  seqno : BitVec 16
  src : BitVec 24
  payload : List Byte
  sent : Bool
  phys : Option Nat
  parked : Bool
deriving DecidableEq, Repr, Inhabited

/-- The expected number of one source and channel at a destination NI, and the numbers beyond it already taken in (R308). -/
structure Expect where
  host : Bool
  src : BitVec 24
  chan : Fin 64
  next : BitVec 16
  taken : List (BitVec 16)
deriving DecidableEq, Repr, Inhabited

/-- The next number of one pair of destination and channel at a source NI (R307). -/
structure OutSeq where
  dst : Nat
  chan : Fin 64
  next : BitVec 16
deriving DecidableEq, Repr, Inhabited

/-- A register by name. -/
inductive RegName where
  | g (r : GReg) | v (r : VReg) | m (r : MReg)
deriving DecidableEq, Repr, Inhabited

/-- A register-to-register result (R238): for a vector register, only the lanes of the mask are written (R12). sr is an MTS,
which takes effect in the next cycle (R239): a state register by its index. -/
inductive RegWrite where
  | g (r : GReg) (x : Word)
  | v (r : VReg) (lanes : Mask) (x : VVal)
  | m (r : MReg) (x : Mask)
  | sr (x : Nat) (a : Word)
deriving DecidableEq, Repr, Inhabited

/-- A result that is written at the end of cycle due (R238), and the FFLAGS bits that come with it (R240), none where the
instruction cannot set a flag. -/
structure PendWrite where
  due : Nat
  write : RegWrite
  flags : Option (BitVec 5)
deriving DecidableEq, Repr, Inhabited

/-- A pending asynchronous trap (R39). -/
structure PendTrap where
  cause : Nat
  val : Word
  aclass : Nat
  lane : Option (Fin 64)
  apend : Bool
deriving DecidableEq, Repr, Inhabited

/-- How the bytes of a load become a register value (R106, R155, R221). -/
inductive LoadExt where
  | signed | zero | elem (t : ElemTy)
deriving DecidableEq, Repr, Inhabited

/-- One register element that a load brings: its target, the bytes it reads, and the value once it has been performed. -/
structure LoadElem where
  reg : RegName
  lane : Fin 64
  va : Nat
  pa : Nat
  bytes : Nat
  val : Option Word
deriving DecidableEq, Repr, Inhabited

/-- The atomics (R221). -/
inductive AtomicOp where
  | axchg | acas | aadd | amin | amax
deriving DecidableEq, Repr, Inhabited

/-- What kind of load an operation of class LD is (R32). A timed load has its value at issue and arrives at a fixed cycle;
inOrder says that it keeps the issue order of local loads (R34). -/
inductive LoadKind where
  | timed (arrive : Nat) (inOrder : Bool)
  | global (ext : LoadExt)
  | atomic (op : AtomicOp) (x y : Word) (nat : Bool) (ext : LoadExt)
  | crd (ctr : W32) (pend : Bool)
deriving DecidableEq, Repr, Inhabited

/-- An outstanding operation of class LD. ecc holds the lowest failing address when uncorrectable data was met (R38). -/
structure OutLoad where
  stamp : Nat
  kind : LoadKind
  elems : List LoadElem
  regs : List RegName
  hs : BitVec 8
  issued : Nat
  aclass : Nat
  ecc : Option (Nat × Word × Option (Fin 64))
deriving DecidableEq, Repr, Inhabited

/-- One element that a global store writes (R112, R159). -/
structure StoreElem where
  lane : Fin 64
  va : Nat
  pa : Nat
  data : List Byte
  done : Bool
deriving DecidableEq, Repr, Inhabited

/-- An outstanding operation of class ST; vec says that it is a vector store. ecc holds the lowest failing virtual address, with
its lane (R387). -/
structure OutStore where
  stamp : Nat
  elems : List StoreElem
  vec : Bool
  ecc : Option (Nat × Fin 64)
  hs : BitVec 8
deriving DecidableEq, Repr, Inhabited

/-- The geometry of a deal pattern (R84, R191). -/
structure Deal where
  block : Nat
  rows : Nat
  cols : Nat
  row0 : Nat
  col0 : Nat
  colOrder : Bool
deriving DecidableEq, Repr, Inhabited

/-- What kind of copy an operation of class CP is. -/
inductive CopyKind where
  | cpin | cpout | cpdeal (d : Deal) | cpt
deriving DecidableEq, Repr, Inhabited

/-- An outstanding copy (R187 to R194). pages maps each 64 KiB page number of the range to its physical base. buf holds the
source bytes read so far by range offset, units the units (R294) read or written. left counts recipient bytes not landed. ecc
holds the lowest virtual address that a CPOUT could not write (R387). -/
structure OutCopy where
  stamp : Nat
  kind : CopyKind
  sh : Fin 64
  va : Nat
  len : Nat
  pages : List (Nat × Nat)
  ctr : W32
  vis : W32
  flag : Bool
  hostWait : List Nat
  buf : Memory
  bad : List Nat
  units : List Nat
  left : Nat
  released : Bool
  visible : Bool
  ecc : Option Nat
  hs : BitVec 8
deriving DecidableEq, Repr, Inhabited

/-- Where the bytes of a fill at a recipient come from: a copy of a tile, or the tile's own MSWAP. -/
inductive FillSrc where
  | copy (vt stamp recip : Nat)
  | mswap (stamp : Nat)
deriving DecidableEq, Repr, Inhabited

/-- A fill in progress of a shingle of this tile (R27, R188). landed lists the offsets and lengths that have landed; cut is
the full length sent, of which the part at and above len is discarded (R192). -/
structure Fill where
  src : FillSrc
  sh : Fin 64
  len : Nat
  cut : Nat
  landed : List (Nat × Nat)
deriving DecidableEq, Repr, Inhabited

/-- The engine registers that a matrix operation read at issue (R168, R170). -/
structure Geom where
  afmt : BlkFmt
  bfmt : BlkFmt
  kb : Nat
  n : Nat
  row0 : Nat
  col0 : Nat
  stride : Nat
  kbase : Nat
  m : Nat
  c0 : Nat
deriving DecidableEq, Repr, Inhabited

/-- The operations of class MX (R32). -/
inductive MxKind where
  | mloadb | mzero | mma
  | mmat (joined source : Bool) (index : Nat)
  | macc2s (clr : Bool) (fmt : AccFmt) (rm : Nat)
  | ms2acc (fmt : AccFmt)
  | mswap (partner index : Nat)
  | mjoin (plan : Nat)
deriving DecidableEq, Repr, Inhabited

/-- An outstanding operation of class MX. doneAt is the last busy cycle once it has started. rows holds the A rows that a
truss source has delivered; recv holds the bytes of a paired MSWAP, none where the partner's word fails. -/
structure MxOp where
  stamp : Nat
  kind : MxKind
  geom : Geom
  sh : Option (Fin 64)
  off : Nat
  doneAt : Option Nat
  rows : Option (List (List Byte))
  recv : Option (List (Option Byte))
deriving DecidableEq, Repr, Inhabited

/-- The reductions (R223). -/
inductive RedOp where
  | radd | rmin | rmax
deriving DecidableEq, Repr, Inhabited

/-- The operations of class MS (R32). A message is on its way in State.flight under its stamp. -/
inductive MsKind where
  | msg
  | cadd (ctr : W32) (x : Word)
  | cexp (ctr : W32) (x : BitVec 32)
  | cset (ctr : W32) (x : Word)
  | red (op : RedOp) (t : RedTy) (va pa : Nat) (x : Word) (atS : Bool) (epoch seq : Nat)
  | seal (ctr : W32) (p : Nat) (epoch : Nat)
  | handover (h : HReg) (va len : Nat) (owner : Nat) (read : Bool) (ctr : W32)
deriving DecidableEq, Repr, Inhabited

/-- An outstanding operation of class MS; done says that its destination has taken it (R32). -/
structure MsOp where
  stamp : Nat
  kind : MsKind
  rel : Bool
  hs : BitVec 8
  done : Bool
deriving DecidableEq, Repr, Inhabited

/-- A CWAIT in progress (R216). sent: the request has left. queued: the waiter stands at the engine. released: a release is
on its way. acquired: the release reached the NI, and an acquire at HOST scope still waits for the listed host writes. -/
structure CwState where
  ctr : W32
  thr : Word
  nopend : Bool
  stamp : Nat
  deadline : Option Nat
  sent : Bool
  queued : Bool
  released : Bool
  acquired : Option (List Nat)
deriving DecidableEq, Repr, Inhabited

/-- A packet parked for an absent tile other than a message (R326). -/
inductive Arrival where
  | fill (serial : Nat)
  | join (pos : Nat)
deriving DecidableEq, Repr, Inhabited

/-- A translation held by the NI's micro-TLB (R340): page base and size, physical base, mode, owner and permissions. -/
structure TlbEntry where
  asid : Nat
  va : Nat
  size : Nat
  pa : Nat
  mode : Nat
  owner : Nat
  perms : BitVec 4
deriving DecidableEq, Repr, Inhabited

/-- The residency states of R324; RESIDENT-RUNNING and RESIDENT-IDLE are told apart by the execution point, and PINNED by the
field pinned. -/
inductive Residency where
  | absent | swappingIn | resident | swappingOut
deriving DecidableEq, Repr, Inhabited

/-- A truss plan (R84, R174). -/
structure Plan where
  rows : Nat
  cols : Nat
  row0 : Nat
  col0 : Nat
deriving DecidableEq, Repr, Inhabited

/-- The tables that the loader makes of a code object (R86): call table, truss plans, deal patterns, permutation tables. -/
structure Prog where
  calls : List Nat
  plans : List Plan
  deals : List Deal
  perms : List (List Nat)
deriving DecidableEq, Repr, Inhabited

/-- The trap record registers (R17). -/
structure TrapRec where
  tpc : Word
  tcause : Word
  tval : Word
  tinfo : Word
  tstat : Word
deriving DecidableEq, Repr, Inhabited

/-- Until which cycle each unit is occupied (R237 to R241): the first cycle in which it can be used again. -/
structure Units where
  divider : Nat
  vpipe : Nat
  vspecial : Nat
  localPort : Nat
deriving DecidableEq, Repr, Inhabited

/-- What the gang and the code object fix for a virtual tile (R16, R41): grid, root, barrier counter, ASID, class, DET, seed,
and the loader's tables. -/
structure GangView where
  rows : Nat
  cols : Nat
  root : Nat
  barrier : W32
  asid : Nat
  cls : Fin 8
  det : Bool
  gseed : Word
  prog : Prog
deriving DecidableEq, Repr, Inhabited

/-- The register files and the state registers (R11 to R21). draws is the draw counter of R148. -/
structure Regs where
  g : Vector Word 32
  v : Vector VVal 32
  m : Vector Mask 8
  h : Vector Handle 8
  vl : Fin 17
  fmode : Fin 5
  fflags : BitVec 5
  psel : Word
  perf : Vector Word 8
  draws : Word
  mxe : Bool
  nanSeen : Bool
  ovfSeen : Bool
  tvec : BitVec 19
  shbase : BitVec 19
  trap : TrapRec
deriving DecidableEq, Repr, Inhabited

/-- The execution point (R331): PC; the PC of the taken branch that led to it, until its target has been fetched (R36);
whether the fetch at PC is the first at TVEC (R38); STATUS; the current message; IDLE; CWAIT; the counter, threshold and NOPEND
of a CWAIT that a stop has withdrawn; the HOST acquire that a fence still waits for (R234); the pending traps. prv is true at
S. -/
structure Exec where
  pc : Word
  branch : Option Word
  tvecFetch : Bool
  prv : Bool
  inh : Bool
  chan : Fin 64
  curSlot : Option (Fin 256)
  idle : Bool
  cw : Option CwState
  withdrawn : Option (W32 × Word × Bool)
  acqWait : Option (List Nat)
  pends : List PendTrap
deriving DecidableEq, Repr, Inhabited

/-- Inbox and channels (R29, R30, R264, R302, R307, R308). slots stand in order of acceptance; bytes is what the inbox view
reads; arrivals is the arrival queue of R326. -/
structure Inbox where
  chans : Vector Channel 64
  rr : Vector (Fin 64) 8
  slots : List Slot
  bytes : Memory
  bad : List Nat
  window : List Msg
  expects : List Expect
  outSeqs : List OutSeq
  overflow : List Msg
  arrivals : List Arrival
deriving DecidableEq, Repr, Inhabited

/-- Shingles (R25), engine registers (R31), truss membership (R175), the serial number of the fabric at the last MJOIN, which tells rows and
notices of one membership from those of another (R177), the counts of MMAT and of MSWAP per partner (R176, R182),
the CIM store and the accumulator (R169). A cell of K-row k and column c is byte 128k + c; a scale entry of block (kb, c) is
the word at 4(128kb + c); an accumulator element is the word at 4(128 row + col). upsets lists K-rows whose parity no longer
matches, badRows those marked bad. -/
structure Engine where
  shingles : Vector (Option Shingle) 64
  regs : Vector Word 6
  joined : Bool
  pos : Fin 6
  plan : BitVec 16
  joinSerial : Nat
  mmats : Nat
  mswaps : List (Nat × Nat)
  cells : Memory
  scales : Memory
  acc : Memory
  badRows : List Nat
  upsets : List Nat
  accBad : List Nat
deriving DecidableEq, Repr, Inhabited

/-- The raw scratchpad (R22). old lists code-segment words that a store has changed, with their old value and the number of
fetches that may still see it (R108); bad lists the aligned 8-byte words that are uncorrectable (R385). For R167, shadow lists
aligned 8-byte words that a store has changed while an engine operation had still to read, as the stamp at the store, the word and
its bytes before, the latest first; early lists the words that an MACC2S in progress has written, with its stamp. seen holds the changed
words as the fetch of the instruction at issue saw them, by address: that choice is made once (R108). -/
structure Scratch where
  bytes : Memory
  old : List (Nat × W32 × Nat)
  bad : List Nat
  shadow : List (Nat × Nat × List Byte) := []
  early : List (Nat × Nat) := []
  seen : List (Nat × W32) := []
deriving DecidableEq, Repr, Inhabited

/-- The outstanding operations by class (R32), the fills in progress, the stamp of the next operation in issue order, the epoch and issue
sequence of reductions (R225), and the requests that the NI still holds: stamp and destination site (R198, R305). -/
structure Outstanding where
  stamp : Nat
  loads : List OutLoad
  stores : List OutStore
  copies : List OutCopy
  mx : List MxOp
  ms : List MsOp
  fills : List Fill
  epoch : Nat
  redSeq : Nat
  kept : List (Nat × Nat)
deriving DecidableEq, Repr, Inhabited

/-- Instruction fetch (R247): the 32-byte blocks in the buffer, each with the first cycle in which its words can issue; the first
cycle in which a block may be requested; how many cycles after its grant the next granted block can issue; and for how many cycles
in a row a request has been denied (R246). -/
structure FetchState where
  blocks : List (Nat × Nat)
  since : Nat
  lead : Nat
  denied : Nat
deriving DecidableEq, Repr, Inhabited

/-- The local memory instruction in progress at the scratchpad (R239, R244): the stamp of a load, none for a store; its words that
have not been served, lowest lane and lowest word first; and whether its first access cycle is past. -/
structure PortUse where
  load : Option Nat
  words : List Nat
  begun : Bool
deriving DecidableEq, Repr, Inhabited

/-- Issue (R237 to R253): the running cycle count, results not yet written, unit occupancy, the first cycle after a bubble, a
pair whose TAIL cycle is to come, and the stall event of the current cycle; ending is true while the end of a counted cycle is
worked off; instruction fetch, and the local memory port. refused counts the calls that selections have refused and that event 58 has
still to count, one in a cycle (R202, R252; log 68, DESIGN CHOICE). -/
structure Issue where
  cycle : Nat
  writes : List PendWrite
  units : Units
  bubble : Nat
  tail : Option (GReg × Word)
  stall : Option Nat
  ending : Bool
  fetch : FetchState
  port : PortUse
  refused : Nat
deriving DecidableEq, Repr, Inhabited

/-- What the physical tile holds while the virtual tile is resident: micro-TLB, deny bits, clock step, fetch duty, and the
counts of the budget interval (R218, R249, R250, R340, R348 to R350); misses lists the addresses that an access waits for (R284, R340),
noLeaf those for which a walk has found no leaf, and got the translations that have been fetched for the access at issue, which may
need more than the micro-TLB holds; dem is the draw dem(t, step(t)) of the last boundary. -/
structure Phys where
  tlb : List TlbEntry
  deny : List (Nat × Nat)
  step : Fin 4
  stepNext : Option (Fin 4)
  duty : Nat
  dutyNext : Option Nat
  paused : Bool
  misses : List Nat
  noLeaf : List Nat
  got : List TlbEntry
  runCycles : Nat
  allCycles : Nat
  topStep : Fin 4
  dem : Nat
deriving DecidableEq, Repr, Inhabited

/-- Residency, gang-stop and the spanning tree (R270 to R273, R321 to R335). phys is the physical tile that holds or is being loaded
with the context, last the one that a committed change named last; wanted says that the tile comes back on resumption (R335). -/
structure Place where
  res : Residency
  phys : Nat
  last : Nat
  wanted : Bool
  pinned : Bool
  idleSince : Nat
  faulted : Bool
  proxy : Bool
  stopDue : Bool
  stopped : Bool
  touched : Bool
  finished : Bool
  status : W32
  kidsLeft : Nat
  accStatus : W32
  reported : Bool
deriving DecidableEq, Repr, Inhabited

/-- A virtual tile: its whole architectural state (R11 to R41, R331), its outstanding operations, and what its physical tile
holds for it while it is resident. -/
structure Tile where
  id : TileId
  gang : GangView
  regs : Regs
  ex : Exec
  inb : Inbox
  eng : Engine
  pad : Scratch
  ops : Outstanding
  iss : Issue
  ni : Phys
  pl : Place
deriving DecidableEq, Repr, Inhabited

/-! ## What the rest of the module holds -/

/-- A waiter at a counter (R216), or a proxy waiter of an absent tile (R329). -/
structure Waiter where
  tile : TileId
  thr : Word
  nopend : Bool
  proxy : Bool
deriving DecidableEq, Repr, Inhabited

/-- A counter of an ASID (R210). -/
structure Counter where
  asid : Nat
  id : W32
  value : Word
  pend : BitVec 32
  sat : Bool
  psat : Bool
  waiters : List Waiter
deriving DecidableEq, Repr, Inhabited

/-- A copy credit on its way to a sync engine (R188, R190): the ASID and the gang of its copy, an addition to VALUE and one to PEND. -/
structure Credit where
  serial : Nat
  asid : Nat
  gid : Nat
  ctr : W32
  value : Nat
  pend : Int
deriving DecidableEq, Repr, Inhabited

/-- A line of a REDUCE page in its home engine's line buffer (R280), with the virtual address that it was brought in for; its bytes
stand in Sync.lineMem. -/
structure Line where
  asid : Nat
  pa : Nat
  va : Nat
deriving DecidableEq, Repr, Inhabited

/-- A reduction held under DET (R225), or one that waits behind a fault (R228). -/
structure Hold where
  tile : TileId
  asid : Nat
  epoch : Nat
  seq : Nat
  op : RedOp
  ty : RedTy
  va : Nat
  pa : Nat
  x : Word
  atS : Bool
  round : Option W32
deriving DecidableEq, Repr, Inhabited

/-- A round of a seal counter and a gang (R226): its P, its seals, and whether its reductions have been applied. -/
structure Round where
  part : Nat
  gid : Nat
  asid : Nat
  ctr : W32
  p : Nat
  seals : List (Nat × Nat)
  applied : Bool
deriving DecidableEq, Repr, Inhabited

/-- A record that waits in an engine's log for its slot of the fault ring (R343, R388). -/
structure RingRec where
  asid : Nat
  index : Nat
  bytes : List Byte
deriving DecidableEq, Repr, Inhabited

/-- A reduction fault of an ASID (R228, R343). behind holds the later reductions to the same address. -/
structure RedFault where
  asid : Nat
  index : Nat
  cause : Nat
  hold : Hold
  behind : List Hold
  written : Bool
  time : Nat
deriving DecidableEq, Repr, Inhabited

/-- A remote fill or a join notice that has not taken effect at its recipient (R175, R192); recip is the recipient's place
in the deal pattern. -/
structure Remote where
  serial : Nat
  dst : TileId
  issuer : Nat
  stamp : Nat
  recip : Nat
  sh : Fin 64
  len : Nat
  ctr : W32
  phys : Option Nat
  parked : Bool
deriving DecidableEq, Repr, Inhabited

/-- A join or leave notice on its way (R175, R177); phys is the physical tile that its sender's NI found for it (R322). -/
structure Notice where
  serial : Nat
  dst : TileId
  phys : Option Nat
  source : Nat
  plan : Nat
  leave : Bool
deriving DecidableEq, Repr, Inhabited

/-- An A row batch on its way from a truss source to a member (R176): the physical tile that the source's NI found (R322), pair index,
and the rows, which travel 64 bytes to a flit (R296). -/
structure RowPacket where
  serial : Nat
  dst : TileId
  phys : Option Nat
  plan : Nat
  index : Nat
  rows : List (List Byte)
deriving DecidableEq, Repr, Inhabited

/-- A spanning-tree report on its way to a virtual tile (R271). -/
structure Report where
  serial : Nat
  dst : TileId
  status : W32
deriving DecidableEq, Repr, Inhabited

/-- A prepared image (R256): what the loader made of a code object (R86, R87). -/
structure Image where
  handle : Nat
  asid : Nat
  detReq : Bool
  profiles : List Nat
  gridCols : Nat
  gridRows : Nat
  barrier : W32
  codeEnd : Nat
  tvec : Nat
  pad : Memory
  chans : List Channel
  prog : Prog
deriving DecidableEq, Repr, Inhabited

/-- A version change in progress (R323). places lists virtual tiles with their new residency; pins lists pins to write;
prepared and committed list the translators that have acknowledged. -/
structure Change where
  places : List (Nat × Option Nat)
  pins : List (Nat × Bool)
  prepared : List Nat
  committed : List Nat
deriving DecidableEq, Repr, Inhabited

/-- A counter that gains 1 for a GSTOP or a GRESUME (R236): its ASID, its identifier, and the gang that asked. -/
structure GangSignal where
  asid : Nat
  ctr : W32
  gid : Nat
deriving DecidableEq, Repr, Inhabited

/-- A live gang (R256 to R276, R321, R323, R334, R361). by… say why it is stopped; stopWork that a gang-stop is in progress, stopDone that
the last one is complete; stopCtrs and resumeCtrs the counters of GSTOP and GRESUME still to gain 1. shedWait says that the gang is shedding
and not yet stopped, shedLate that its grace is over (R361). launchSent says that its launch message has been sent (R258). -/
structure Gang where
  part : Nat
  gid : Nat
  image : Image
  tag : BitVec 16
  cls : Fin 8
  det : Bool
  seed : Word
  rows : Nat
  cols : Nat
  root : Nat
  barrier : W32
  donectr : W32
  port : Nat
  record : List Byte
  startTime : Nat
  byGstop : Bool
  byShed : Bool
  byFirmware : Bool
  byRepair : Bool
  stopWork : Bool
  stopDone : Bool
  shedWait : Bool
  shedLate : Bool
  stopCtrs : List GangSignal
  resumeCtrs : List GangSignal
  closed : Bool
  status : Option W32
  redLost : Bool
  version : BitVec 16
  change : Option Change
  lateKept : Nat
  launchSent : Bool := true
deriving DecidableEq, Repr, Inhabited

/-- An accepted launch that waits in its partition's queue (R258). -/
structure Launch where
  port : Nat
  record : List Byte
  seed : Word
deriving DecidableEq, Repr, Inhabited

/-- A completion record that waits for room (R274 to R276, R375), and the counter that gains 1 after it. -/
structure CompRec where
  bytes : List Byte
  asid : Nat
  donectr : W32
deriving DecidableEq, Repr, Inhabited

/-- The partition record that governs (R347, R380). hometab holds one field number per entry. -/
structure PartRec where
  enable : Bool
  hiclass : Nat
  livelim : Nat
  qdepth : Nat
  summon : Nat
  faultwait : Nat
  profmask : BitVec 4
  leafmask : BitVec 8
  caplo : Nat
  caphi : Nat
  boostlo : Nat
  quota : Vector Nat 4
  hbmalloc : Nat
  ovfalloc : Nat
  hostasid : Nat
  hostva : Nat
  hometab : Memory
deriving DecidableEq, Repr, Inhabited

/-- A mailbox write held at a port under flow control (R374). -/
structure HeldMail where
  port : Nat
  gid : Nat
  dst : Nat
  chan : Fin 64
  data : List Byte
deriving DecidableEq, Repr, Inhabited

/-- A CXL function with its partition: BAR0 (R372 to R375), the power block (R354), the staging record (R380), the governing
record, the launch queue, the images and the bits of the sync engines (R218); throttle and throttleSat are the throttle event counter's
VALUE and SAT (R211, R219), and recorded says that a record has been applied (R355). -/
structure Part where
  gov : PartRec
  staging : Memory
  pstatus : Nat
  seed : Word
  comphead : Word
  compack : Word
  compdrop : Word
  mberr : Word
  ring : Memory
  mbtgt : Vector Word 16
  msixTable : Memory
  msixRaised : Nat
  pcap : Nat
  pboost : Nat
  pshed : Bool
  capCnt : Nat
  boostCnt : Nat
  draw : Nat
  queue : List Launch
  gidCursor : Nat
  compq : List CompRec
  images : List Image
  denyBits : List (Nat × Nat)
  throttle : Word
  throttleSat : Bool
  held : List HeldMail
  recorded : Bool
deriving DecidableEq, Repr, Inhabited

/-- An ASID entry (R336, R347): partition, page-table root, service area, service counters, faults raised, requests served. -/
structure AsidEntry where
  asid : Nat
  part : Nat
  root : Nat
  svc : Nat
  reqctr : W32
  reqhead : W32
  fltctr : W32
  nextFault : Nat
  served : Nat
deriving DecidableEq, Repr, Inhabited

/-- Where the result of a request goes: the slot of an ASID's request ring, or CMDSTAT (R341, R381). -/
structure ModeReq where
  asid : Nat
  va : Nat
  len : Nat
  mode : Nat
  owner : Nat
  ctr : W32
  unmap : Bool
  src : ReqSource
  slot : Nat
deriving DecidableEq, Repr, Inhabited

/-- A host write in a port's queue (R292): its number over both ports, its packet, ASID, virtual and physical address, and its bytes, none
where the request does not enable one (R294). -/
structure HostWrite where
  serial : Nat
  pkt : Nat
  asid : Nat
  va : Nat
  pa : Nat
  data : List (Option Byte)
deriving DecidableEq, Repr, Inhabited

/-- A host read that a port has accepted (R292, R296): offset, length, ASID, virtual and physical address, the packet of its request or of
its response, and once it has been performed its bytes, none where they were uncorrectable (R387). -/
structure HostRead where
  hdm : Nat
  len : Nat
  asid : Nat
  va : Nat
  pa : Nat
  pkt : Nat
  got : Option (Option (List Byte))
deriving DecidableEq, Repr, Inhabited

/-- The numbering of a port for one triple (R307). -/
structure PortSeq where
  part : Nat
  gid : Nat
  dst : Nat
  chan : Fin 64
  next : BitVec 16
deriving DecidableEq, Repr, Inhabited

/-- A host port and its master (R369, R371, R378, R292). reading is the read that it has accepted and not answered (log 19, DESIGN CHOICE:
one at a time); readData and readError are the last read's response. -/
structure Port where
  up : Bool
  frozen : Bool
  writes : List HostWrite
  reading : Option HostRead
  readData : List Byte
  readError : Bool
  writeError : Bool
  errors : Nat
  aer : Nat
  seqs : List PortSeq
deriving DecidableEq, Repr, Inhabited

/-- The boot states of CSTAT (R379). -/
inductive BootState where
  | rom | verify | selftest | ready | halted
deriving DecidableEq, Repr, Inhabited

/-- A rim controller's boot state and its failure mark (R382). -/
structure Controller where
  boot : BootState
  failed : Bool
deriving DecidableEq, Repr, Inhabited

/-- A point of the droop curve (R356). -/
structure DPoint where
  ceil : Nat
  volt : Nat
  freq : Nat
deriving DecidableEq, Repr, Inhabited

/-- The control window (R376 to R381): semaphore, commands, telemetry and curve, and the words of CSTAT. -/
structure Control where
  boot : BootState
  map : Nat
  halt : Nat
  owner : Option (Fin 2)
  semaRead : Nat
  cmdbuf : Vector Byte 64
  cmdRun : Bool
  cmdStatus : Nat
  cmdResult : Nat
  selected : Option (Nat × Nat)
  telemSeq : BitVec 16
  telemVolt : Nat
  telemFreq : Nat
  dpoints : Vector DPoint 8
  loss : Nat
  hyst : Nat
  overdraw : Nat
  minDraw : Nat
  doe : List Byte
deriving DecidableEq, Repr, Inhabited

/-- The fall states of a field (R352). -/
inductive FallState where
  | normal | fall1 | fall2
deriving DecidableEq, Repr, Inhabited

/-- The boost state of a field (R352, R353): PERMITS, the fall state, and CEIL(f) of the interval in force. -/
structure FieldPower where
  permits : Nat
  fall : FallState
  ceil : Fin 4
deriving DecidableEq, Repr, Inhabited

/-- The shed mark of a class (R360): marked or not, the saving recorded at the mark, whether the draw estimate still holds it, and the time
of the decision that marked it (R361). -/
structure ClassMark where
  marked : Bool
  saving : Nat
  due : Bool
  since : Nat
deriving DecidableEq, Repr, Inhabited

/-- What a physical tile without a context has done in the running interval (R349, R350, R353): its running and its counted cycles, its
highest step, the time since which it holds none, and the step and the duty in force, which its last context or the last boundary left
it. -/
structure SiteUse where
  run : Nat
  all : Nat
  top : Fin 4
  since : Nat
  step : Fin 4
  duty : Nat
deriving DecidableEq, Repr, Inhabited

/-- The budget tree and the droop root (R348 to R363). graces lists the grace periods that run, the earliest first: the time of the decision
and the ceiling in force before it (R359, R361). sites lists the physical tiles without a context that
are not as they are after a whole interval at floor. -/
structure PowerState where
  ceil : Nat
  est : Nat
  fields : Vector FieldPower 56
  marks : Vector ClassMark 8
  passes : Nat
  graces : List (Nat × Nat)
  lastSample : Nat
  lastLoss : Option Nat
  hot : Bool
  interval : Nat
  sites : List (Nat × SiteUse)
deriving DecidableEq, Repr, Inhabited

/-- An output link of a router (R296): the lane of its last normal flit, and the first router cycle in which it can send again. -/
structure Link where
  out : Nat
  last : Nat
  next : Nat
deriving DecidableEq, Repr, Inhabited

/-- A router (R299, R311, R312): flags, counts, its correction of TIME, and its links. A router that no entry lists is as it was after
reset. -/
structure Router where
  suspect : Bool
  failed : Bool
  episodes : Word
  gutter : Word
  xfield : Word
  congest : Word
  overrun : Word
  episodeStart : Nat
  adj : Nat
  lag : Nat
  holdTicks : Nat
  pulses : Nat
  links : List Link
deriving DecidableEq, Repr, Inhabited

/-- What a packet carries (R296): a message, a request of a tile's operation to a home, a response or an acknowledgement to one, bytes
of a copy or of an exchange of a tile for a recipient, a change of a deny bit of a partition for a NI (R218), a packet that a list of the
fabric, or a port, holds under its serial number, or 64 bytes of a batch of rows by its serial number. -/
inductive PacketRef where
  | msg (serial : Nat)
  | req (tile : TileId) (stamp : Nat)
  | resp (tile : TileId) (stamp : Nat)
  | data (tile : TileId) (stamp recip off : Nat)
  | deny (part table engine site : Nat)
  | pkt (serial : Nat)
  | part (serial k : Nat)
deriving DecidableEq, Repr, Inhabited

/-- A flit at a router (R296): its packet, network, destination site, router, input port (4 is local), lane, the router cycle in which
it came there, the one since which it has stood at the head of its lane, which of its network's two lanes it takes next if it can, and
whether it is in the gutter lane. Flits of one lane stand in list order. -/
structure Flit where
  ref : PacketRef
  message : Bool
  dst : Nat
  site : Nat
  port : Nat
  lane : Nat
  came : Nat
  since : Nat
  upper : Bool
  gutter : Bool
deriving DecidableEq, Repr, Inhabited

/-- The error register of a site (R389) and the times of its uncorrectable errors (R390). -/
structure SiteErr where
  attCorr : Nat
  attUnc : Nat
  unc : Nat
  corr : Nat
  times : List Nat
  misses : Nat
deriving DecidableEq, Repr, Inhabited

/-- The steps of repair (R391), in order. -/
inductive RepairStep where
  | idle | stop | salvage | record | rebuild | resume
deriving DecidableEq, Repr, Inhabited

/-- A repair in progress (R391): the failed sites with their causes, and the contexts lost. -/
structure Repair where
  step : RepairStep
  sites : List (Nat × Nat)
  lost : List TileId
deriving DecidableEq, Repr, Inhabited

/-- Global memory (R278, R336 to R340): HBM bytes by physical address, uncorrectable 8-byte words, frames that firmware has
handed out with their partition (64 for firmware's own tables), the ASID entries, the caches of the field translation units,
and the mode changes in progress. -/
structure GlobalMem where
  hbm : Memory
  bad : List Nat
  frames : List (Nat × Nat)
  asids : List AsidEntry
  unitTlb : List (Nat × TlbEntry)
  modeReqs : List ModeReq
deriving DecidableEq, Repr, Inhabited

/-- The sync engines (R210 to R228): counters, credits on their way, line buffers, DET holds, rounds, reduction faults, and records that
wait for their slots. -/
structure Sync where
  ctrs : List Counter
  credits : List Credit
  lines : List Line
  lineMem : Memory
  bad : List Nat
  holds : List Hold
  rounds : List Round
  faults : List RedFault
  waiting : List RingRec
deriving DecidableEq, Repr, Inhabited

/-- The fabric (R296 to R313): packets on their way, flits in lanes, routers that differ from their reset, the router that has the ridge
token (57344, which is no site, before the first has it), how many flits it has drained while it holds it, TDET, and TIME of a router
without correction. mapped lists the routers that had failed when the tables in force were made (R297, R391). reports lists the
spanning-tree reports on their way; moves, a field of the model's own, counts the lanes that flits have chosen (log 60). -/
structure Fabric where
  serial : Nat
  flight : List Msg
  remotes : List Remote
  notices : List Notice
  rowPackets : List RowPacket
  reports : List Report
  flits : List Flit
  moves : Nat
  routers : List (Nat × Router)
  mapped : List Nat
  token : Nat
  drained : Option Nat
  tdet : Nat
  time : Nat
deriving DecidableEq, Repr, Inhabited

/-- A flash copy of the repair list with its signatures (R391). -/
structure ListCopy where
  list : List (Nat × Nat)
  rsa : List Byte
  slh : List Byte
deriving DecidableEq, Repr, Inhabited

/-- Flash (R382, R383, R391): copies A and B of the firmware image, the configuration image and the defect map, the owner's signature
block over the map, and copies A and B of the repair list. -/
structure Flash where
  images : Vector (Vector Config.FlashImage 2) 3
  owner : List Byte
  lists : Vector ListCopy 2
deriving DecidableEq, Repr, Inhabited

/-- The host side (R369 to R384): ports, the serial number of host writes, rim controllers, the control window and flash. -/
structure HostSide where
  ports : Vector Port 2
  serial : Nat
  ctl : Vector Controller 2
  ctrl : Control
  flash : Flash
deriving DecidableEq, Repr, Inhabited

/-- Errors and repair (R385 to R391). arrays lists the uncorrectable words of the arrays of physical tiles that hold no context, failed the
failed sites with their causes, repairs the repair list, pools the sites that repair has given to a partition. off says that the module
has shut down. -/
structure Service where
  errs : List (Nat × SiteErr)
  arrays : List (Nat × ArrayKind × Nat)
  failed : List (Nat × Nat)
  repair : Repair
  repairs : List (Nat × Nat)
  pools : List (Nat × Nat)
  gen : Nat
  off : Bool
deriving DecidableEq, Repr, Inhabited

/-- The state of the module. tile is the virtual tile whose turn it is; at reset it is a fresh context that no gang holds.
turns is what is to happen next, and drawn counts the values drawn from the free functions of Config (logs 1 and 2): the
model's own fields, not the spec's. -/
structure State where
  tile : Tile
  others : List Tile
  turns : List Turn
  drawn : Nat
  mem : GlobalMem
  sync : Sync
  fab : Fabric
  gangs : List Gang
  parts : Vector Part 64
  host : HostSide
  power : PowerState
  svc : Service
deriving DecidableEq, Repr, Inhabited

/-- The stops of the machine that the spec describes. -/
inductive Fault where
  /-- Raised by every operation after the module has shut down (20, Power input and cooling): nothing runs. Safe: the
  machine stops where the hardware has stopped. -/
  | moduleShutDown
deriving DecidableEq, Repr, Inhabited

/-- Why a step has no meaning. -/
inductive Refusal where
  /-- Raised by exec for a constructor whose meaning is not written. Safe: it stops. -/
  | notModelled (mnemonic : String)
  /-- Raised by step when a turn names an instruction word as an event. Safe: words reach exec by fetch alone. -/
  | wordAsEvent
deriving DecidableEq, Repr, Inhabited

/-! ## Reset -/

/-- A handler-table entry that was never bound (R41). -/
def Channel.fresh : Channel := ⟨false, false, false, 0, 0, 0, 0⟩

/-- A router after reset (R312); FAILED is that of the image, and log 3, DESIGN CHOICE, gives the time correction. -/
def Router.fresh (site : Nat) : Router := ⟨false, Config.routerFailed site, 0, 0, 0, 0, 0, 0, 0, 0, 0, 0, []⟩

/-- The error register of a site after module reset (R389). -/
def SiteErr.fresh : SiteErr := ⟨0, 0, 0, 0, [], 0⟩

/-- The engine registers of a fresh context (R31): MFMT LB8 and LB8, KB 64, N 128, the others 0. -/
def engReset : Vector Word 6 := #v[0x22, 64, 128, 0, 0, 0]

/-- The registers of a fresh context (R15, R18, R20, R21, R41). -/
def Regs.fresh : Regs :=
  { g := Vector.replicate 32 0, v := Vector.replicate 32 (Vector.replicate 16 0), m := Vector.replicate 8 0,
    h := Vector.replicate 8 ⟨0, 0⟩, vl := 16, fmode := 0, fflags := 0, psel := 0, perf := Vector.replicate 8 0, draws := 0,
    mxe := false, nanSeen := false, ovfSeen := false, tvec := 0, shbase := 0, trap := ⟨0, 0, 0, 0, 0⟩ }

/-- The execution point of a fresh context (R41): U, INH 0; the PC is set by the first selection (log 3, DESIGN CHOICE). -/
def Exec.fresh : Exec :=
  { pc := 0, branch := none, tvecFetch := false, prv := false, inh := false, chan := 0, curSlot := none, idle := false,
    cw := none, withdrawn := none, acqWait := none, pends := [] }

/-- The inbox of a fresh context (R30, R41, R264). -/
def Inbox.fresh : Inbox :=
  { chans := Vector.replicate 64 Channel.fresh, rr := Vector.replicate 8 63, slots := [], bytes := [], bad := [],
    window := [], expects := [], outSeqs := [], overflow := [], arrivals := [] }

/-- Shingles and engine of a fresh context (R31, R41, R169). -/
def Engine.fresh : Engine :=
  { shingles := Vector.replicate 64 none, regs := engReset, joined := false, pos := 0, plan := 0, joinSerial := 0, mmats := 0
    mswaps := [],
    cells := [], scales := [], acc := [], badRows := [], upsets := [], accBad := [] }

/-- No operation outstanding (R41, R225). -/
def Outstanding.fresh : Outstanding :=
  { stamp := 0, loads := [], stores := [], copies := [], mx := [], ms := [], fills := [], epoch := 0, redSeq := 0, kept := [] }

/-- Issue state before the first cycle (R249); nothing is fetched yet (R247). -/
def Issue.fresh : Issue :=
  { cycle := 0, writes := [], units := ⟨0, 0, 0, 0⟩, bubble := 0, tail := none, stall := none, ending := false
    fetch := ⟨[], 0, 2, 0⟩, port := ⟨none, [], false⟩, refused := 0 }

/-- A physical tile that holds no context runs at floor (R348); DUTY is 16 (R20). -/
def Phys.fresh : Phys :=
  { tlb := [], deny := [], step := 0, stepNext := none, duty := 16, dutyNext := none, paused := false, misses := [], noLeaf := []
    got := [], runCycles := 0, allCycles := 0, topStep := 0, dem := 0 }

/-- A virtual tile that has never been placed nor touched (R273, R321). -/
def Place.fresh : Place :=
  { res := .absent, phys := 0, last := 0, wanted := false, pinned := false, idleSince := 0, faulted := false, proxy := false, stopDue := false,
    stopped := false, touched := false, finished := false, status := 0, kidsLeft := 0, accStatus := 0, reported := false }

/-- A fresh context (R41) that belongs to no gang yet: loader and launch values 0. -/
def Tile.fresh : Tile :=
  { id := ⟨0, 0, 0⟩,
    gang := { rows := 0, cols := 0, root := 0, barrier := 0, asid := 0, cls := 0, det := false, gseed := 0, prog := ⟨[], [], [], []⟩ },
    regs := Regs.fresh, ex := Exec.fresh, inb := Inbox.fresh, eng := Engine.fresh, pad := ⟨[], [], [], [], [], []⟩,
    ops := Outstanding.fresh, iss := Issue.fresh, ni := Phys.fresh, pl := Place.fresh }

/-- The partition record before firmware has applied one: disabled (log 5, DESIGN CHOICE). -/
def PartRec.fresh : PartRec :=
  { enable := false, hiclass := 0, livelim := 0, qdepth := 0, summon := 0, faultwait := 0, profmask := 0, leafmask := 0,
    caplo := 0, caphi := 0, boostlo := 0, quota := Vector.replicate 4 0, hbmalloc := 0, ovfalloc := 0, hostasid := 0,
    hostva := 0, hometab := [] }

/-- A function after reset (R354, R372, R373, R394): PCAP holds CAPHI, PBOOST 8, the GID cursor 1. -/
def Part.fresh : Part :=
  { gov := PartRec.fresh, staging := [], pstatus := 0, seed := 0, comphead := 0, compack := 0, compdrop := 0, mberr := 0,
    ring := [], mbtgt := Vector.replicate 16 0, msixTable := [], msixRaised := 0, pcap := 0, pboost := 8, pshed := false,
    capCnt := 0, boostCnt := 0, draw := 0, queue := [], gidCursor := 1, compq := [], images := [], denyBits := [],
    throttle := 0, throttleSat := false, held := [], recorded := false }

/-- A port before its link is used (R369, R378). -/
def Port.fresh : Port :=
  { up := true, frozen := false, writes := [], reading := none, readData := [], readError := false, writeError := false, errors := 0
    aer := 0, seqs := [] }

/-- The control window after reset (R356, R379, R381). -/
def Control.fresh : Control :=
  { boot := .rom, map := 0, halt := 0, owner := none, semaRead := 0, cmdbuf := Vector.replicate 64 0, cmdRun := false,
    cmdStatus := 0, cmdResult := 0, selected := none, telemSeq := 0, telemVolt := 0, telemFreq := 0,
    dpoints := Vector.replicate 8 ⟨256, 0, 0⟩, loss := 128, hyst := 8, overdraw := 0, minDraw := 0, doe := [] }

/-- The power state at boot (R352, R354, R359): C = 256, PERMITS = 64, state NORMAL. -/
def PowerState.fresh : PowerState :=
  { ceil := 256, est := 0, fields := Vector.replicate 56 ⟨64, .normal, 1⟩,
    marks := Vector.replicate 8 ⟨false, 0, false, 0⟩, passes := 0, graces := [], lastSample := 0,
    lastLoss := none, hot := false, interval := 0, sites := [] }

/-- Flash as the part is first powered (R382): the images are those that it was given (log 61, DESIGN CHOICE); no owner has signed and
nothing has been repaired. -/
def Flash.fresh : Flash :=
  { images := Vector.ofFn fun k => Vector.ofFn fun c => Config.flashImage k.val c.val
    owner := [], lists := Vector.replicate 2 ⟨[], [], []⟩ }

/-- The module right after power-on: nothing launched, controllers at their ROM, memory with nothing listed. The values that
the spec does not give are those of logs 3 and 5. -/
def State.reset : State :=
  { tile := Tile.fresh, others := [], turns := [], drawn := 0,
    mem := { hbm := [], bad := [], frames := [], asids := [], unitTlb := [], modeReqs := [] },
    sync := { ctrs := [], credits := [], lines := [], lineMem := [], bad := [], holds := [], rounds := [], faults := [], waiting := [] },
    fab := { serial := 0, flight := [], remotes := [], notices := [], rowPackets := [], reports := [], flits := [], moves := 0, routers := []
             mapped := [], token := 57344, drained := none, tdet := 2000, time := 0 },
    gangs := [], parts := Vector.replicate 64 Part.fresh,
    host := { ports := Vector.replicate 2 Port.fresh, serial := 0, ctl := Vector.replicate 2 ⟨.rom, false⟩, ctrl := Control.fresh, flash := Flash.fresh },
    power := PowerState.fresh,
    svc := { errs := [], arrays := [], failed := [], repair := ⟨.idle, [], []⟩, repairs := [], pools := [], gen := 0, off := false } }

end Sys2Proof.Machine
end

