-- ==== Sys2Proof/Machine/Memory.lean ====
section
/-! DEFINITION. The operations on a Memory: one byte read and written, little-endian reads and writes of several bytes (R4),
and the canonical form. Byte order is decided here and nowhere else. -/

namespace Sys2Proof.Machine

/-- The byte at an address; an unlisted address reads as 0 (log 4, DESIGN CHOICE). -/
def Memory.byte : Memory → Nat → Byte
  | [], _ => 0
  | (k, b) :: t, a => if k = a then b else Memory.byte t a

/-- Lists a byte before the first greater address. -/
def Memory.put : Memory → Nat → Byte → Memory
  | [], a, b => [(a, b)]
  | (k, c) :: t, a, b => if a < k then (a, b) :: (k, c) :: t else (k, c) :: Memory.put t a b

/-- Writes one byte and keeps the canonical form. -/
def Memory.setByte (m : Memory) (a : Nat) (b : Byte) : Memory :=
  let t : Memory := m.filter fun c => decide (c.1 ≠ a)
  if b = 0 then t else Memory.put t a b

/-- No entry is 0, and addresses rise strictly, all of them above the bound. -/
def Memory.wfFrom : Nat → Memory → Bool
  | _, [] => true
  | lo, (k, b) :: t => decide (lo ≤ k) && decide (b ≠ 0) && Memory.wfFrom (k + 1) t

/-- The canonical form: addresses strictly rising, no entry equal to what an unlisted address reads as. -/
def Memory.wf (m : Memory) : Bool := Memory.wfFrom 0 m

/-- The n bytes from an address upward. -/
def Memory.bytes (m : Memory) (a : Nat) : Nat → List Byte
  | 0 => []
  | n + 1 => Memory.byte m a :: Memory.bytes m (a + 1) n

/-- Writes bytes from an address upward. -/
def Memory.write (m : Memory) (a : Nat) : List Byte → Memory
  | [] => m
  | b :: t => Memory.write (Memory.setByte m a b) (a + 1) t

/-- The number whose little-endian bytes are given (R4). -/
def ofBytes : List Byte → Nat
  | [] => 0
  | b :: t => b.toNat + 256 * ofBytes t

/-- The n little-endian bytes of a number (R4). -/
def toBytes (x : Nat) : Nat → List Byte
  | 0 => []
  | n + 1 => BitVec.ofNat 8 x :: toBytes (x / 256) n

/-- The number at an address, n bytes long. -/
def Memory.nat (m : Memory) (a n : Nat) : Nat := ofBytes (Memory.bytes m a n)

/-- Writes a number, n bytes long. -/
def Memory.setNat (m : Memory) (a n x : Nat) : Memory := Memory.write m a (toBytes x n)

/-- The 32-bit word at an address. -/
def Memory.word (m : Memory) (a : Nat) : W32 := BitVec.ofNat 32 (Memory.nat m a 4)

/-- Bits [hi:lo] of a number. -/
def bitsOf (x hi lo : Nat) : Nat := x / 2 ^ lo % 2 ^ (hi + 1 - lo)

/-- The entry of a table by key, or the default. -/
def tget {α : Type} (d : α) : List (Nat × α) → Nat → α
  | [], _ => d
  | (k, x) :: t, a => if k = a then x else tget d t a

/-- Sets the entry of a table by key. -/
def tset {α : Type} : List (Nat × α) → Nat → α → List (Nat × α)
  | [], a, x => [(a, x)]
  | (k, y) :: t, a, x => if k = a then (k, x) :: t else (k, y) :: tset t a x

/-- The list without its n-th element. -/
def dropNth {α : Type} : List α → Nat → List α
  | [], _ => []
  | _ :: t, 0 => t
  | x :: t, n + 1 => x :: dropNth t n

/-- The list with its n-th element changed. -/
def mapNth {α : Type} (f : α → α) : List α → Nat → List α
  | [], _ => []
  | x :: t, 0 => f x :: t
  | x :: t, n + 1 => x :: mapNth f t n

/-- The numbers from a upward, n of them. -/
def upFrom (a : Nat) : Nat → List Nat
  | 0 => []
  | n + 1 => a :: upFrom (a + 1) n

/-- Puts an element into a sorted list, before those that it precedes or equals. -/
def insertInto {α : Type} (le : α → α → Bool) (x : α) : List α → List α
  | [] => [x]
  | y :: t => if le x y then x :: y :: t else y :: insertInto le x t

/-- The list in order; equal elements keep their places among themselves. -/
def sortList {α : Type} (le : α → α → Bool) : List α → List α
  | [] => []
  | x :: t => insertInto le x (sortList le t)

end Sys2Proof.Machine
end

