-- ==== Sys2Proof/Machine/Float.lean ====
section
/-! DEFINITION. The floating-point formats (R44 to R46), the one rounding of exact values (R47, R50, R52), integer conversion
(R51), and the block formats (R54 to R60). Exact values are rationals num / den with a sign. -/

namespace Sys2Proof.Machine

/-- A floating-point format (R44): exponent bits and fraction bits. -/
structure FFmt where
  we : Nat
  wf : Nat
deriving DecidableEq, Repr, Inhabited

/-- FP32 (R44). -/
def fp32 : FFmt := ⟨8, 23⟩
/-- BF16 (R44). -/
def bf16 : FFmt := ⟨8, 7⟩
/-- FP16 (R44). -/
def fp16 : FFmt := ⟨5, 10⟩

/-- The bias of a format. -/
def FFmt.bias (f : FFmt) : Nat := 2 ^ (f.we - 1) - 1
/-- The bits of +infinity. -/
def FFmt.infBits (f : FFmt) : Nat := (2 ^ f.we - 1) * 2 ^ f.wf
/-- The bits of the canonical NaN (R46). -/
def FFmt.nanBits (f : FFmt) : Nat := f.infBits + 2 ^ (f.wf - 1)
/-- The weight of the sign bit. -/
def FFmt.signBit (f : FFmt) : Nat := 2 ^ (f.we + f.wf)
/-- The bits of the largest finite value. -/
def FFmt.maxBits (f : FFmt) : Nat := f.infBits - 1

/-- A decoded value: NaN, quiet or signalling; an infinity; or (−1)^neg × num / den. -/
inductive FVal where
  | nan (signalling : Bool)
  | inf (neg : Bool)
  | fin (neg : Bool) (num den : Nat)
deriving DecidableEq, Repr, Inhabited

/-- The value of an encoding (R45). -/
def FFmt.decode (f : FFmt) (x : Nat) : FVal :=
  let s := x / f.signBit % 2 == 1
  let e := x / 2 ^ f.wf % 2 ^ f.we
  let m := x % 2 ^ f.wf
  if e = 2 ^ f.we - 1 then
    if m = 0 then .inf s else .nan (m / 2 ^ (f.wf - 1) % 2 == 0)
  else if e = 0 then .fin s m (2 ^ (f.bias - 1 + f.wf))
  else if e ≥ f.bias + f.wf then .fin s ((2 ^ f.wf + m) * 2 ^ (e - f.bias - f.wf)) 1
  else .fin s (2 ^ f.wf + m) (2 ^ (f.bias + f.wf - e))

/-- The rounding modes of R47 and R52; a stochastic rounding carries its 16-bit random value. -/
inductive RMode where
  | rne | rtz | rup | rdn | stoch (u : Nat)
deriving DecidableEq, Repr, Inhabited

/-- The mode of FMODE.RM for arithmetic: 4 rounds as RNE (R18, R47). -/
def RMode.arith (rm : Fin 5) : RMode :=
  match rm with
  | 0 => .rne | 1 => .rtz | 2 => .rup | 3 => .rdn | 4 => .rne

/-- The mode of FMODE.RM for a conversion with the random value u (R52). -/
def RMode.conv (rm : Fin 5) (u : Nat) : RMode :=
  match rm with
  | 0 => .rne | 1 => .rtz | 2 => .rup | 3 => .rdn | 4 => .stoch u

/-- The FFLAGS bits (R18): NX 1, UF 2, OF 4, DZ 8, NV 16. -/
abbrev FFlags := BitVec 5

/-- Whether the magnitude m + r/d, with r < d, rounds up to m + 1 (R47, R52). -/
def roundsUp (mode : RMode) (neg : Bool) (m r d : Nat) : Bool :=
  match mode with
  | .rne => decide (2 * r > d) || (decide (2 * r = d) && m % 2 == 1)
  | .rtz => false
  | .rup => !neg && decide (r > 0)
  | .rdn => neg && decide (r > 0)
  | .stoch u =>
    if neg then decide (r > 0) && !decide (u < (d - r) * 65536 / d)
    else decide (r > 0) && decide (u < r * 65536 / d)

/-- floor(log2 (num / den)) for num and den above 0. -/
def ilog2 (num den : Nat) : Int :=
  let e : Int := (num.log2 : Int) - (den.log2 : Int)
  let ge := if e ≥ 0 then decide (num ≥ den * 2 ^ e.toNat) else decide (num * 2 ^ (-e).toNat ≥ den)
  if ge then e else e - 1

/-- num / (den × 2^q) as a quotient, a remainder and the divisor. -/
def scaleDiv (num den : Nat) (q : Int) : Nat × Nat × Nat :=
  let n := if q ≥ 0 then num else num * 2 ^ (-q).toNat
  let d := if q ≥ 0 then den * 2 ^ q.toNat else den
  (n / d, n % d, d)

/-- A rounded result: its bits and its flags. -/
structure Rounded where
  bits : Nat
  flags : FFlags
deriving DecidableEq, Repr, Inhabited

/-- The bits of an infinity or of the largest finite value on overflow, by mode and sign (R47). -/
def FFmt.overflowBits (f : FFmt) (mode : RMode) (neg : Bool) : Nat :=
  match mode with
  | .rne | .stoch _ => f.infBits
  | .rtz => f.maxBits
  | .rup => if neg then f.maxBits else f.infBits
  | .rdn => if neg then f.infBits else f.maxBits

/-- Rounds the exact value (−1)^neg × num / den, not zero, to a format (R47, R48, R52). -/
def FFmt.round (f : FFmt) (mode : RMode) (neg : Bool) (num den : Nat) : Rounded :=
  let sgn := if neg then f.signBit else 0
  let e := ilog2 num den
  let emin : Int := 1 - (f.bias : Int)
  let q : Int := (if e < emin then emin else e) - (f.wf : Int)
  let (m, r, d) := scaleDiv num den q
  let m' := if roundsUp mode neg m r d then m + 1 else m
  let bits := ((q + (f.wf : Int) + (f.bias : Int)) - 1).toNat * 2 ^ f.wf + m'
  let exact := decide (r = 0)
  let stoch := match mode with
    | .stoch _ => true
    | _ => false
  let tiny :=
    if e < emin then
      if stoch then true
      else
        let (mu, ru, du) := scaleDiv num den (e - (f.wf : Int))
        let mu' := if roundsUp mode neg mu ru du then mu + 1 else mu
        !(decide (e = emin - 1) && decide (mu' = 2 ^ (f.wf + 1)))
    else false
  let huge := decide (e > (f.bias : Int))
  if huge || decide (bits ≥ f.infBits) then
    ⟨sgn + (if huge && stoch then f.infBits else f.overflowBits mode neg), 0x05⟩
  else
    ⟨sgn + bits, (if exact then 0 else 0x01) ||| (if tiny && !exact then 0x02 else 0)⟩

/-- Rounds an exact value that may be zero; a zero takes the given sign. -/
def FFmt.roundZ (f : FFmt) (mode : RMode) (zneg : Bool) (neg : Bool) (num den : Nat) : Rounded :=
  if num = 0 then ⟨if zneg then f.signBit else 0, 0⟩ else f.round mode neg num den

/-- The canonical NaN, with NV or without (R46, R48). -/
def FFmt.nan (f : FFmt) (nv : Bool) : Rounded := ⟨f.nanBits, if nv then 0x10 else 0⟩

/-- An infinity, exact. -/
def FFmt.inf (f : FFmt) (neg : Bool) : Rounded := ⟨(if neg then f.signBit else 0) + f.infBits, 0⟩

/-- Whether a value is a NaN. -/
def FVal.isNan : FVal → Bool
  | .nan _ => true
  | _ => false

/-- Whether a value is a signalling NaN. -/
def FVal.isSnan : FVal → Bool
  | .nan s => s
  | _ => false

/-- The negated value. -/
def FVal.neg : FVal → FVal
  | .nan s => .nan s
  | .inf n => .inf (!n)
  | .fin n a b => .fin (!n) a b

/-- The exact sum of two finite values: sign and magnitude, and the sign that an exact zero takes under the mode (R47). -/
def finAdd (mode : RMode) (n1 : Bool) (a1 b1 : Nat) (n2 : Bool) (a2 b2 : Nat) : Bool × Bool × Nat × Nat :=
  let x := a1 * b2
  let y := a2 * b1
  let d := b1 * b2
  let zero := if a1 = 0 && a2 = 0 && n1 == n2 then n1 else decide (mode = .rdn)
  if n1 == n2 then (zero, n1, x + y, d)
  else if x ≥ y then (zero, n1, x - y, d) else (zero, n2, y - x, d)

/-- Addition (R47, R48). -/
def FFmt.add (f : FFmt) (mode : RMode) (a b : FVal) : Rounded :=
  match a, b with
  | .nan s, y => f.nan (s || y.isSnan)
  | _, .nan s => f.nan s
  | .inf m, .inf n => if m == n then f.inf m else f.nan true
  | .inf m, .fin _ _ _ => f.inf m
  | .fin _ _ _, .inf n => f.inf n
  | .fin n1 a1 b1, .fin n2 a2 b2 =>
    let (z, n, x, d) := finAdd mode n1 a1 b1 n2 a2 b2
    f.roundZ mode z n x d

/-- Multiplication (R47, R48). -/
def FFmt.mul (f : FFmt) (mode : RMode) (a b : FVal) : Rounded :=
  match a, b with
  | .nan s, y => f.nan (s || y.isSnan)
  | _, .nan s => f.nan s
  | .inf m, .inf n => f.inf (m != n)
  | .inf m, .fin n x _ => if x = 0 then f.nan true else f.inf (m != n)
  | .fin m x _, .inf n => if x = 0 then f.nan true else f.inf (m != n)
  | .fin m x1 y1, .fin n x2 y2 => f.roundZ mode (m != n) (m != n) (x1 * x2) (y1 * y2)

/-- Division (R47, R48). -/
def FFmt.div (f : FFmt) (mode : RMode) (a b : FVal) : Rounded :=
  match a, b with
  | .nan s, y => f.nan (s || y.isSnan)
  | _, .nan s => f.nan s
  | .inf _, .inf _ => f.nan true
  | .inf m, .fin n _ _ => f.inf (m != n)
  | .fin m _ _, .inf n => ⟨if m != n then f.signBit else 0, 0⟩
  | .fin m x1 y1, .fin n x2 y2 =>
    if x2 = 0 then (if x1 = 0 then f.nan true else ⟨(f.inf (m != n)).bits, 0x08⟩)
    else f.roundZ mode (m != n) (m != n) (x1 * y2) (y1 * x2)

/-- a × b + c with one rounding (R47, R48). -/
def FFmt.fma (f : FFmt) (mode : RMode) (a b c : FVal) : Rounded :=
  let snan := a.isSnan || b.isSnan || c.isSnan
  let bad : Bool := match a, b with
    | .inf _, .fin _ x _ => x == 0
    | .fin _ x _, .inf _ => x == 0
    | _, _ => false
  if a.isNan || b.isNan || c.isNan then f.nan (snan || bad)
  else if bad then f.nan true
  else
    match a, b, c with
    | .fin m x1 y1, .fin n x2 y2, .fin k x3 y3 =>
      let (z, s, x, d) := finAdd mode (m != n) (x1 * x2) (y1 * y2) k x3 y3
      f.roundZ mode z s x d
    | .fin _ _ _, .fin _ _ _, c => f.add mode c (.fin false 0 1)
    | a, b, c =>
      let p : Bool := match a, b with
        | .inf m, .inf n => m != n
        | .inf m, .fin n _ _ => m != n
        | .fin m _ _, .inf n => m != n
        | _, _ => false
      match c with
      | .inf k => if k == p then f.inf p else f.nan true
      | _ => f.inf p

/-- The integer square root by bits: the largest r + t with t below 2^n whose square is at most x. -/
def isqrtFrom (x : Nat) : Nat → Nat → Nat
  | 0, r => r
  | n + 1, r => isqrtFrom x n (if (r + 2 ^ n) * (r + 2 ^ n) ≤ x then r + 2 ^ n else r)

/-- Square root of an FP32 value (R133, R47, R48). The root is formed to 2^−128 with a sticky half, which rounds as the exact
root does. -/
def sqrt32 (mode : RMode) (a : FVal) : Rounded :=
  match a with
  | .nan s => fp32.nan s
  | .inf true => fp32.nan true
  | .inf false => fp32.inf false
  | .fin n x y =>
    if x = 0 then ⟨if n then fp32.signBit else 0, 0⟩
    else if n then fp32.nan true
    else
      let v := x * 2 ^ 256 / y
      let r := isqrtFrom v 200 0
      if r * r = v then fp32.round mode false r (2 ^ 128) else fp32.round mode false (2 * r + 1) (2 ^ 129)

/-- Order of two values that are no NaN: whether a < b, with −0 equal to +0. -/
def FVal.lt (a b : FVal) : Bool :=
  match a, b with
  | .inf m, .inf n => m && !n
  | .inf m, _ => m
  | _, .inf n => !n
  | .fin m x1 y1, .fin n x2 y2 =>
    let p := x1 * y2
    let q := x2 * y1
    if m && n then decide (p > q)
    else if m then decide (p > 0 || q > 0)
    else if n then false
    else decide (p < q)
  | _, _ => false

/-- Whether two values that are no NaN are equal, −0 equal to +0. -/
def FVal.eq (a b : FVal) : Bool :=
  match a, b with
  | .inf m, .inf n => m == n
  | .fin m x1 y1, .fin n x2 y2 => decide (x1 * y2 = x2 * y1) && (m == n || x1 == 0)
  | _, _ => false

/-- Whether a value has a minus sign. -/
def FVal.isNeg : FVal → Bool
  | .nan _ => false
  | .inf n => n
  | .fin n _ _ => n

/-- A value converted to a format (R49, R50). -/
def FFmt.convert (f : FFmt) (mode : RMode) (a : FVal) : Rounded :=
  match a with
  | .nan s => f.nan s
  | .inf n => f.inf n
  | .fin n x y => f.roundZ mode n n x y

/-- A value converted to an integer type with bounds lo and hi (R51): the integer and the flags. -/
def toIntSat (lo hi : Int) (mode : RMode) (a : FVal) : Int × FFlags :=
  match a with
  | .nan _ => (0, 0x10)
  | .inf true => (lo, 0x10)
  | .inf false => (hi, 0x10)
  | .fin n x y =>
    let m := x / y
    let r := x % y
    let m' := if roundsUp mode n m r y then m + 1 else m
    let i : Int := if n then -(m' : Int) else m'
    if i > hi then (hi, 0x10) else if i < lo then (lo, 0x10) else (i, if r = 0 then 0 else 0x01)

/-- An integer as a value. -/
def FVal.ofInt (i : Int) : FVal := .fin (decide (i < 0)) i.natAbs 1

/-! ## Block formats -/

/-- p of a block format (R55). -/
def pBits : BlkFmt → Nat
  | .lb4 => 2 | .lb6 => 4 | .lb8 => 6 | .lb12 => 10

/-- Block bytes of a format (R55). -/
def blkBytes : BlkFmt → Nat
  | .lb4 => 20 | .lb6 => 28 | .lb8 => 36 | .lb12 => 52

/-- The value of a 10-bit scale as a fraction, none for NaN (R56). -/
def scaleVal (s : Nat) : Option (Nat × Nat) :=
  let e := s / 4 % 256
  let f := s % 4
  if e = 255 then none
  else if e ≥ 129 then some ((4 + f) * 2 ^ (e - 129), 1)
  else some (4 + f, 2 ^ (129 - e))

/-- The value of an element (selector, sign, magnitude in w bits) under its two scales (R57); a NaN block gives NaN. -/
def elemVal (p s0 s1 x : Nat) : FVal :=
  match scaleVal s0, scaleVal s1 with
  | some a, some b =>
    let m := x % 2 ^ p
    let n := x / 2 ^ p % 2 == 1
    let sc := if x / 2 ^ (p + 1) % 2 = 1 then b else a
    if m = 0 then .fin false 0 1 else .fin n (m * sc.1) (2 ^ (p - 1) * sc.2)
  | _, _ => .nan false

/-- The w bits of element i in an element byte string given as a number (R55). -/
def elemBits (p : Nat) (str i : Nat) : Nat := str / 2 ^ ((p + 2) * i) % 2 ^ (p + 2)

/-- Element i of a block given as its bytes, as FP32 (R59). -/
def blockElem (f : BlkFmt) (blk : List Byte) (i : Nat) : W32 :=
  let x := ofBytes blk
  let p := pBits f
  BitVec.ofNat 32 (fp32.convert .rne (elemVal p (x % 1024) (x / 1024 % 1024) (elemBits p (x / 2 ^ 32) i))).bits

/-- A halfword widened to FP32 (R60). -/
def widen (f : FFmt) (x : Nat) : W32 := BitVec.ofNat 32 (fp32.convert .rne (f.decode x)).bits

end Sys2Proof.Machine
end

