-- ==== Sys2Proof/Machine/Ops.lean ====
section
/-! DEFINITION. The named operations over registers, counts and events of the current tile, the one operation that takes a trap
(R38) with ERET beside it (R40), and the moves of the turn between virtual tiles. -/

namespace Sys2Proof.Machine

/-- The answer of a step or of a meaning. -/
abbrev Out := Host.Outcome State Fault Refusal

/-! ## Registers -/

/-- Reads a scalar register; g0 reads as zero (R11). -/
def Tile.g (t : Tile) (r : GReg) : Word := if r = 0 then 0 else t.regs.g.get r

/-- Writes a scalar register; a result for g0 is discarded (R11). -/
def Tile.setG (t : Tile) (r : GReg) (x : Word) : Tile :=
  if r = 0 then t else { t with regs := { t.regs with g := t.regs.g.set r.val x r.isLt } }

/-- Reads a mask register; m0 reads as all 16 lanes (R13). -/
def Tile.m (t : Tile) (k : MReg) : Mask := if k = 0 then 0xFFFF else t.regs.m.get k

/-- Writes a mask register; writes to m0 are discarded (R13). -/
def Tile.setM (t : Tile) (k : MReg) (x : Mask) : Tile :=
  if k = 0 then t else { t with regs := { t.regs with m := t.regs.m.set k.val x k.isLt } }

/-- Reads a vector register. -/
def Tile.v (t : Tile) (r : VReg) : VVal := t.regs.v.get r

/-- A vector value given lane by lane. -/
def lanesOf (f : Fin 16 → W32) : VVal :=
  #v[f 0, f 1, f 2, f 3, f 4, f 5, f 6, f 7, f 8, f 9, f 10, f 11, f 12, f 13, f 14, f 15]

/-- Sixteen bits given one by one. -/
def maskOf (f : Fin 16 → Bool) : Mask :=
  BitVec.ofNat 16 ((List.finRange 16).foldr (fun i n => (f i).toNat + 2 * n) 0)

/-- Writes the lanes of a mask in a vector register and keeps the others (R12). -/
def Tile.setV (t : Tile) (r : VReg) (lanes : Mask) (x : VVal) : Tile :=
  let y := lanesOf fun i => if lanes.getLsbD i.val then x.get i else (t.v r).get i
  { t with regs := { t.regs with v := t.regs.v.set r.val y r.isLt } }

/-- The active lanes: 0 to VL − 1 (R12). -/
def Tile.active (t : Tile) : Mask := maskOf fun i => decide (i.val < t.regs.vl.val)

/-- The enabled lanes of a vector instruction: active, and set in its governing mask (R12, R128). -/
def Tile.enabled (t : Tile) (k : MReg) : Mask := t.active &&& t.m k

/-- The state of a shingle number, none if it is undefined. -/
def Tile.sh (t : Tile) (n : Fin 64) : Option Shingle := t.eng.shingles.get n

/-- Sets a shingle entry. -/
def Tile.setSh (t : Tile) (n : Fin 64) (x : Option Shingle) : Tile :=
  { t with eng := { t.eng with shingles := t.eng.shingles.set n.val x n.isLt } }

/-- The defined shingles with their numbers. -/
def Tile.shingleList (t : Tile) : List (Fin 64 × Shingle) :=
  (List.finRange 64).filterMap fun n => (t.sh n).map fun x => (n, x)

/-- The fields of TINFO that are not reserved (R17). -/
def tinfoMask : Word := 0x0007FFFF0003CFBF

/-- A write of TINFO (R17): the reserved fields stay zero, and an ACLASS that R17 does not list stays as it was (R7, R8). -/
def tinfoWrite (prev a : Word) : Word :=
  if bitsOf a.toNat 11 8 ≤ 10 then a &&& tinfoMask else (a &&& tinfoMask &&& ~~~0xF00) ||| (prev &&& 0xF00)

/-- Writes a state register that the privilege may write, under its field rules (R6, R7, R15 to R21). A TCAUSE.CODE that R35 does not list
is reserved, and its write is ignored (R7, R8); 0, the reset value, is written (log 62, DEDUCED). -/
def Tile.writeReg (t : Tile) (x : Nat) (a : Word) : Tile :=
  let r := t.regs
  let set (r : Regs) : Tile := { t with regs := r }
  match x with
  | 0x005 =>
    let v : BitVec 19 := a.truncate 19 &&& 0x7FFFC
    if v.toNat ≥ r.shbase.toNat then t else set { r with tvec := v }
  | 0x006 => set { r with trap := { r.trap with tpc := a } }
  | 0x007 => if a.toNat % 256 ≤ 0x11 then set { r with trap := { r.trap with tcause := a &&& 0xFF } } else t
  | 0x008 => set { r with trap := { r.trap with tval := a } }
  | 0x009 => set { r with trap := { r.trap with tinfo := tinfoWrite r.trap.tinfo a } }
  | 0x00A => set { r with trap := { r.trap with tstat := (a &&& 4) ||| (if a.getLsbD 1 then r.trap.tstat &&& 3 else a &&& 1) } }
  | 0x010 => if h : a.toNat % 8 < 5 then set { r with fmode := ⟨a.toNat % 8, h⟩ } else t
  | 0x011 => set { r with fflags := a.truncate 5 }
  | 0x01A => set { r with vl := ⟨Nat.min a.toNat 16, Nat.lt_succ_of_le (Nat.min_le_right _ _)⟩ }
  | 0x030 => set { r with psel := a }
  | 0x040 => set { r with mxe := r.mxe && !a.getLsbD 3, nanSeen := r.nanSeen && !a.getLsbD 2, ovfSeen := r.ovfSeen && !a.getLsbD 1 }
  | 0x041 =>
    let v : BitVec 19 := a.truncate 19 &&& 0x7FFC0
    if t.shingleList.any (fun p => decide (v.toNat > p.2.base)) || decide (v.toNat ≤ r.tvec.toNat) then t
    else set { r with shbase := v }
  | _ =>
    if 0x031 ≤ x ∧ x ≤ 0x038 then set { r with perf := r.perf.set (Fin.ofNat 8 (x - 0x031)).val a (Fin.ofNat 8 (x - 0x031)).isLt }
    else t

/-- Applies a register-to-register result with its FFLAGS contributions (R238, R240). -/
def Tile.applyWrite (t : Tile) (w : PendWrite) : Tile :=
  let t' := match w.write with
    | .g r x => t.setG r x
    | .v r l x => t.setV r l x
    | .m r x => t.setM r x
    | .sr x a => t.writeReg x a
  { t' with regs := { t'.regs with fflags := t'.regs.fflags ||| w.flags.getD 0 } }

/-- The register that a result goes to; the effect of an MTS holds no register of an instruction back, as g0 does not. -/
def RegWrite.name : RegWrite → RegName
  | .g r _ => .g r
  | .v r _ _ => .v r
  | .m r _ => .m r
  | .sr _ _ => .g 0

/-- Whether a register awaits an earlier register-to-register write (R93, R237); g0 and m0 never do. -/
def Tile.awaits (t : Tile) (n : RegName) : Bool :=
  if n = .g 0 ∨ n = .m 0 then false
  else t.iss.writes.any (fun w => decide (w.write.name = n)) ||
    (match t.iss.tail, n with
     | some (d, _), .g r => decide (d = r)
     | _, _ => false)

/-! ## Counts of outstanding operations -/

/-- The classes of R32. -/
inductive OpClass where
  | ld | st | cp | mx | ms
deriving DecidableEq, Repr, Inhabited

/-- The count of a class (R32). -/
def Tile.count (t : Tile) : OpClass → Nat
  | .ld => t.ops.loads.length
  | .st => t.ops.stores.length
  | .cp => t.ops.copies.length
  | .mx => t.ops.mx.length
  | .ms => t.ops.ms.length

/-- The limit of a class (R32). -/
def OpClass.limit : OpClass → Nat
  | .ld => 32 | .st => 32 | .cp => 16 | .mx => 8 | .ms => 64

/-- The stall event of a class at its limit (R252). -/
def OpClass.stall : OpClass → Nat
  | .ld => 16 | .st => 17 | .cp => 18 | .mx => 19 | .ms => 20

/-- The outstanding-operation count of a range handle (R14, R33). -/
def Tile.hcount (t : Tile) (k : Nat) : Nat :=
  t.ops.loads.countP (fun o => o.hs.getLsbD k) + t.ops.stores.countP (fun o => o.hs.getLsbD k) +
  t.ops.copies.countP (fun o => o.hs.getLsbD k) + t.ops.ms.countP (fun o => o.hs.getLsbD k)

/-- Whether a handle overlaps one of the n bytes from va upward (R14, R33). -/
def Handle.overlaps (h : Handle) (va n : Nat) : Bool :=
  decide (n ≠ 0 ∧ h.len.toNat ≠ 0 ∧ h.base.toNat < va + n ∧ va < min (h.base.toNat + h.len.toNat) (2 ^ 56))

/-- The set of handles that overlap some of the given byte ranges (R33). -/
def Tile.handlesOf (t : Tile) (rs : List (Nat × Nat)) : BitVec 8 :=
  BitVec.ofNat 8 ((List.finRange 8).foldr
    (fun k n => (rs.any fun r => (t.regs.h.get k).overlaps r.1 r.2).toNat + 2 * n) 0)

/-- The messages of a channel in the inbox: PEND (R29). -/
def Tile.pend (t : Tile) (c : Fin 64) : Nat := t.inb.slots.countP (fun s => decide (s.chan = c))

/-! ## Events -/

/-- Whether tile cycles elapse and are counted: the virtual tile is resident and its clock runs (R250, R251). -/
def Tile.counts (t : Tile) : Bool := decide (t.pl.res = .resident ∨ t.pl.res = .swappingOut) && !t.ni.paused

/-- PERFk adds n where PSEL.EVTk selects the event, in a counted cycle (R20, R251). -/
def Tile.event (t : Tile) (ev n : Nat) : Tile :=
  let f : Fin 8 → Word := fun k =>
    if t.counts ∧ bitsOf t.regs.psel.toNat (8 * k.val + 7) (8 * k.val) = ev then t.regs.perf.get k + BitVec.ofNat 64 n else t.regs.perf.get k
  { t with regs := { t.regs with perf := #v[f 0, f 1, f 2, f 3, f 4, f 5, f 6, f 7] } }

/-- Adds one occurrence of an event if the condition holds. -/
def Tile.eventIf (t : Tile) (b : Bool) (ev : Nat) : Tile := if b then t.event ev 1 else t

/-! ## Changing the current tile -/

/-- Changes the current tile. -/
def State.upd (s : State) (f : Tile → Tile) : State := { s with tile := f s.tile }

/-- The gang with a name. -/
def State.gang (s : State) (part gid : Nat) : Option Gang := s.gangs.find? fun g => decide (g.part = part ∧ g.gid = gid)

/-- Changes the gang with a name. -/
def State.updGang (s : State) (part gid : Nat) (f : Gang → Gang) : State :=
  { s with gangs := s.gangs.map fun g => if g.part = part ∧ g.gid = gid then f g else g }

/-- The function of a number; numbers wrap at 64, of which there are no more (R369). -/
def State.part (s : State) (p : Nat) : Part := s.parts.get (Fin.ofNat 64 p)

/-- Changes a function. -/
def State.updPart (s : State) (p : Nat) (f : Part → Part) : State :=
  { s with parts := s.parts.set (Fin.ofNat 64 p).val (f (s.part p)) (Fin.ofNat 64 p).isLt }

/-- A virtual tile of a gang that nothing has touched yet, in the state of R41. A CODEEND of 524,288, which R88 admits, does not fit the 19
bits of SHBASE.BASE and becomes 0 (log 64, DESIGN CHOICE). -/
def Gang.freshTile (gn : Gang) (vt : Nat) : Tile :=
  { Tile.fresh with
    id := ⟨gn.part, gn.gid, vt⟩
    gang := { rows := gn.rows, cols := gn.cols, root := gn.root, barrier := gn.barrier, asid := gn.image.asid, cls := gn.cls,
              det := gn.det, gseed := gn.seed, prog := gn.image.prog }
    regs := { Regs.fresh with tvec := BitVec.ofNat 19 gn.image.tvec, shbase := BitVec.ofNat 19 gn.image.codeEnd }
    inb := { Inbox.fresh with chans := Vector.ofFn fun c => gn.image.chans.getD c.val Channel.fresh }
    pad := ⟨gn.image.pad, [], [], [], [], []⟩
    pl := { Place.fresh with kidsLeft := Config.treeKids gn.rows gn.cols gn.root vt } }

/-- Whether a virtual tile number lies inside a grid (R16). -/
def inGrid (rows cols vt : Nat) : Bool := decide (vt / 4096 < rows ∧ vt % 4096 < cols)

/-- The virtual tile of a name: one that the state holds, or an untouched one of a live gang. -/
def State.findTile (s : State) (id : TileId) : Option Tile :=
  if s.tile.id = id then some s.tile
  else
    match s.others.find? (fun t => decide (t.id = id)) with
    | some t => some t
    | none =>
      match s.gang id.part id.gid with
      | some gn => if inGrid gn.rows gn.cols id.vt then some (gn.freshTile id.vt) else none
      | none => none

/-- Makes the virtual tile of a name the current one; the state stays as it is where there is none. -/
def State.focus (s : State) (id : TileId) : State :=
  if s.tile.id = id then s
  else
    match s.findTile id with
    | some t => { s with tile := t, others := s.tile :: s.others.filter (fun o => decide (o.id ≠ id)) }
    | none => s

/-- Does something with another virtual tile as the current one, and returns the turn. -/
def State.withTile (s : State) (id : TileId) (f : State → State) : State :=
  match s.findTile id with
  | some _ => (f (s.focus id)).focus s.tile.id
  | none => s

/-- Every virtual tile that the state holds. -/
def State.tiles (s : State) : List Tile := s.tile :: s.others

/-- The virtual tiles of a gang that the state holds. -/
def State.tilesOf (s : State) (part gid : Nat) : List Tile :=
  s.tiles.filter fun t => decide (t.id.part = part ∧ t.id.gid = gid ∧ gid ≠ 0)

/-- Changes every virtual tile that the state holds. -/
def State.updAll (s : State) (f : Tile → Tile) : State := { s with tile := f s.tile, others := s.others.map f }

/-- Draws the next index of a free value (log 1, DESIGN CHOICE). -/
def State.draw (s : State) : Nat × State := (s.drawn, { s with drawn := s.drawn + 1 })

/-! ## Tables and deny bits of the sync engines -/

/-- The ASID entry of a number. -/
def State.asid (s : State) (a : Nat) : Option AsidEntry := s.mem.asids.find? fun e => decide (e.asid = a)

/-- The home field of a counter in a partition (R344). -/
def Part.ctrHome (p : Part) (c : W32) : Nat :=
  (Memory.byte p.gov.hometab (c.toNat * 0x9E3779B1 % 2 ^ 32 / 2 ^ 20)).toNat

/-- The home field of a REDUCE line in a partition (R344). -/
def Part.lineHome (p : Part) (pa : Nat) : Nat :=
  (Memory.byte p.gov.hometab (Nat.xor (bitsOf pa 17 6) (bitsOf pa 29 18))).toNat

/-- The partition of an ASID; 0 where it is not assigned. -/
def State.asidPart (s : State) (a : Nat) : Nat := ((s.asid a).map (·.part)).getD 0

/-- The engine of a counter of an ASID (R344). -/
def State.ctrEngine (s : State) (asid : Nat) (id : W32) : Nat := (s.part (s.asidPart asid)).ctrHome id

/-- The engine of a REDUCE line of an ASID (R344). -/
def State.lineEngine (s : State) (asid pa : Nat) : Nat := (s.part (s.asidPart asid)).lineHome pa

/-- A partition's use of a table in an engine (R218, R346): counters, waiters, lines, DET holds. -/
def State.tableUse (s : State) (p table engine : Nat) : Nat :=
  let mine (a : Nat) (e : Nat) : Bool := decide (s.asidPart a = p ∧ e = engine)
  match table with
  | 0 => s.sync.ctrs.countP fun c => mine c.asid (s.ctrEngine c.asid c.id)
  | 1 => (s.sync.ctrs.filter fun c => mine c.asid (s.ctrEngine c.asid c.id)).foldl (fun n c => n + c.waiters.length) 0
  | 2 => s.sync.lines.countP fun l => mine l.asid (s.lineEngine l.asid l.pa)
  | _ => s.sync.holds.countP fun h => mine h.asid (s.lineEngine h.asid h.pa)

/-! ## Packets -/

/-- Puts a packet as one flit (R296) into the local input port of a router, in either of its network's two lanes, the other where that is
full (log 60, DESIGN CHOICE); flits behind the fourth still stand in the sender (log 20, DESIGN CHOICE). -/
def State.inject (s : State) (ref : PacketRef) (message : Bool) (src dst : Nat) : State :=
  let low := if message then 0 else 2
  let full (k : Nat) : Bool := decide (4 ≤ s.fab.flits.countP fun f => !f.gutter && decide (f.site = src ∧ f.port = 4 ∧ f.lane = low + k))
  let a := (Config.laneChoice s.fab.moves).toNat
  let lane := if full a && !full (1 - a) then 1 - a else a
  { s with fab := { s.fab with
      moves := s.fab.moves + 2
      flits := s.fab.flits ++
        [{ ref := ref, message := message, dst := dst, site := src, port := 4, lane := low + lane, came := 2 * s.fab.time
           since := 2 * s.fab.time, upper := Config.laneChoice (s.fab.moves + 1), gutter := false }] } }

/-- Whether a packet is still on its way through the routers. -/
def State.travelling (s : State) (ref : PacketRef) : Bool := s.fab.flits.any fun f => decide (f.ref = ref)

/-- Whether a request of an operation is still on its way to a site. -/
def State.travellingTo (s : State) (ref : PacketRef) (dst : Nat) : Bool :=
  s.fab.flits.any fun f => decide (f.ref = ref ∧ f.dst = dst)

/-- A packet of a list of the fabric leaves under the present serial number, if its sender has found its destination. -/
def State.packet (s : State) (message : Bool) (src : Nat) (dst : Option Nat) : State :=
  let n := s.fab.serial
  let s := { s with fab := { s.fab with serial := n + 1 } }
  match dst with
  | some d => s.inject (.pkt n) message src d
  | none => s

/-- The physical tile of a virtual tile's context; 0 where it has none. -/
def State.physOf (s : State) (id : TileId) : Nat := ((s.findTile id).map fun t => t.pl.phys).getD 0

/-- A home answers an operation of a virtual tile: a response, or an acknowledgement, leaves its attachment router (R296). -/
def State.respond (s : State) (id : TileId) (stamp site : Nat) : State := s.inject (.resp id stamp) false site (s.physOf id)

/-- Whether an answer to an operation of the current tile is on its way. -/
def State.answering (s : State) (stamp : Nat) : Bool := s.travelling (.resp s.tile.id stamp)

/-- An engine tells every NI of a partition of a change of a deny bit (R218, R296): those that hold a context, since any other one takes the
bits as they are with its next context. -/
def State.sendDeny (s : State) (p table engine : Nat) : State :=
  let sites := (s.tiles.filter fun t => decide (t.id.part = p ∧ t.id.gid ≠ 0 ∧ t.pl.res ≠ .absent)).map fun t => t.pl.phys
  sites.eraseDups.foldl (fun s x => s.inject (.deny p table engine x) false (Config.engineSite engine) x) s

/-- An engine sets a partition's deny bit as the quota is reached, and clears it below seven-eighths of it (R218). -/
def State.denyStep (s : State) (p table engine : Nat) : State :=
  let use := s.tableUse p table engine
  let q := (s.part p).gov.quota.get (Fin.ofNat 4 table)
  let on := (s.part p).denyBits.contains (table, engine)
  if use ≥ q ∧ !on then (s.updPart p fun x => { x with denyBits := x.denyBits ++ [(table, engine)] }).sendDeny p table engine
  else if 8 * use < 7 * q ∧ on then
    (s.updPart p fun x => { x with denyBits := x.denyBits.filter (· ≠ (table, engine)) }).sendDeny p table engine
  else s

/-- An engine looks at its four tables for a partition after an operation (R218). -/
def State.denySteps (s : State) (p engine : Nat) : State :=
  [0, 1, 2, 3].foldl (fun s t => s.denyStep p t engine) s

/-- The engines look again at the deny bits that they have set for a partition (R218). -/
def State.denyAll (s : State) (p : Nat) : State :=
  ((s.part p).denyBits.map Prod.snd).eraseDups.foldl (fun s e => s.denySteps p e) s

/-- Every engine looks again at its tables for a partition (R218, R346): its quotas, or the homes of its counters, have changed. -/
def State.denyEvery (s : State) (p : Nat) : State := (List.range 56).foldl (fun s e => s.denySteps p e) s

/-! ## Traps -/

/-- What a trap records beside TPC (R35): cause, TVAL, ACLASS, the lane, and whether more asynchronous traps are pending. -/
structure TrapInfo where
  cause : Nat
  tval : Word
  aclass : Nat := 0
  lane : Option (Fin 64) := none
  brt : Option Word := none
  apend : Bool := false
deriving DecidableEq, Repr, Inhabited

/-- TINFO at trap entry (R17, R38). -/
def TrapInfo.tinfo (i : TrapInfo) (step : Fin 4) : Word :=
  BitVec.ofNat 64 ((match i.brt with | some b => 2 ^ 16 + (b.toNat % 2 ^ 19) * 2 ^ 32 | none => 0) +
    (if i.apend then 2 ^ 17 else 0) + step.val * 2 ^ 14 + (i.aclass % 16) * 2 ^ 8 +
    (match i.lane with | some l => 128 + l.val | none => 0))

/-- Instruction fetch begins again elsewhere (R242, R247): the buffer is empty, the target's block is requested in the following cycle,
and nothing issues for the given number of cycles; each cycle of denial adds one. -/
def Issue.redirect (i : Issue) (now delay : Nat) : Issue :=
  { i with bubble := now + delay, fetch := ⟨[], now + 1, delay - 1, 0⟩ }

/-- Takes a trap as one step (R38): writes the trap record, enters S at TVEC; INH and CHAN are not changed. A CWAIT is withdrawn by the
caller (R216), and the access at issue is given up, with the translations fetched for it (R340). The bubble is that of R242, counted from
the cycle of the entry. -/
def Tile.takeTrap (t : Tile) (i : TrapInfo) (tpc : Word) (entry : Nat) : Tile :=
  let t := { t with
    regs := { t.regs with trap :=
      { tpc := tpc, tcause := BitVec.ofNat 64 i.cause, tval := i.tval, tinfo := i.tinfo t.ni.step,
        tstat := BitVec.ofNat 64 ((if t.ex.prv then 4 else 0) + (if t.ex.prv then 1 else 0)) } }
    ex := { t.ex with pc := t.regs.tvec.zeroExtend 64, prv := true, branch := none, tvecFetch := true, idle := false, cw := none,
                      withdrawn := none, acqWait := none }
    ni := { t.ni with noLeaf := [], got := [] }
    iss := { t.iss.redirect entry 4 with stall := some 3 } }
  (t.event 24 1).eventIf (i.cause = 0x0A) 47

/-- Withdraws the waiter of a CWAIT in progress of a tile (R216); its engine looks at its deny bits (R218). -/
def State.withdraw (s : State) (id : TileId) (ctr : W32) (asid : Nat) : State :=
  ({ s with sync := { s.sync with ctrs := s.sync.ctrs.map fun (c : Counter) =>
      if c.asid = asid ∧ c.id = ctr then { c with waiters := c.waiters.filter fun w => decide (w.tile ≠ id ∨ w.proxy) } else c } }).denySteps
    (s.asidPart asid) (s.ctrEngine asid ctr)

/-- Withdraws the current tile's CWAIT, if it holds at one. -/
def State.withdrawCw (s : State) : State :=
  match s.tile.ex.cw with
  | some c => (s.withdraw s.tile.id c.ctr s.tile.gang.asid).upd fun t => { t with ex := { t.ex with cw := none } }
  | none => s

/-- Changes the virtual tile of a name, if the state holds it. -/
def State.updTile (s : State) (id : TileId) (f : Tile → Tile) : State :=
  if s.tile.id = id then s.upd f else { s with others := s.others.map fun t => if t.id = id then f t else t }

/-- The condition of a CWAIT (R216). -/
def condMet (value : Word) (pend : BitVec 32) (psat : Bool) (thr : Word) (nopend : Bool) : Bool :=
  decide (thr ≤ value) && (nopend || (decide (pend = 0) && !psat))

/-- The release of a waiter leaves the engine at a site (R216, R322): the request of the tile has been answered. The release of a proxy
waiter shows as a proxy that no engine holds any more (R329). -/
def State.sendRelease (site : Nat) (s : State) (w : Waiter) : State :=
  if w.proxy then s
  else
    let s := match (s.findTile w.tile).bind fun t => t.ex.cw with
      | some c => s.respond w.tile c.stamp site
      | none => s
    s.updTile w.tile fun t => { t with ex := { t.ex with cw := t.ex.cw.map fun c => { c with queued := false, released := true } } }

/-- Releases every waiter of a counter whose condition holds, given the fields that it reads as (R211, R216); the engine looks at its
deny bits (R218). -/
def State.releaseWaiters (s : State) (asid : Nat) (id : W32) (value : Word) (pend : BitVec 32) (psat : Bool) : State :=
  let met := (s.sync.ctrs.filter fun c => decide (c.asid = asid ∧ c.id = id)).flatMap fun c =>
    c.waiters.filter fun w => condMet value pend psat w.thr w.nopend
  let s := { s with sync := { s.sync with ctrs := s.sync.ctrs.map fun c =>
    if c.asid = asid ∧ c.id = id then
      { c with waiters := c.waiters.filter fun w => !condMet value pend psat w.thr w.nopend } else c } }
  (met.foldl (State.sendRelease (Config.engineSite (s.ctrEngine asid id))) s).denySteps (s.asidPart asid) (s.ctrEngine asid id)

/-- Adds to the throttle event counter of a partition (R210, R211, R219), which no quota bounds, and releases its waiters. -/
def State.throttleEvent (s : State) (p : Nat) : State :=
  let s := s.updPart p fun q =>
    if q.throttle.toNat + 1 < 2 ^ 64 then { q with throttle := q.throttle + 1 } else { q with throttleSat := true }
  let asids := (s.mem.asids.filter fun e => decide (e.part = p)).map fun e => e.asid
  asids.foldl (fun s a => s.releaseWaiters a 0xFFFFFFFF (s.part p).throttle 0 false) s

/-- Takes a trap of the current tile in place of issue (R37, R38): TPC is the PC, and BRT and BPC are set for a fetch trap at
the target of a taken branch (R36). -/
def State.trapHere (s : State) (i : TrapInfo) : State :=
  let i := if i.aclass = 1 ∨ i.cause = 0x02 then { i with brt := s.tile.ex.branch } else i
  let s := s.withdrawCw
  let s := if i.cause = 0x0A then s.throttleEvent s.tile.id.part else s
  s.upd fun t => t.takeTrap i t.ex.pc t.iss.cycle

/-- ERET's effect on the tile (R40): PC := TPC, the saved privilege, NEST cleared; ERET is a taken branch (R36, R242). -/
def Tile.eretTo (t : Tile) : Tile :=
  { t with
    ex := { t.ex with pc := t.regs.trap.tpc, prv := t.regs.trap.tstat.getLsbD 0, branch := some t.ex.pc, tvecFetch := false }
    regs := { t.regs with trap := { t.regs.trap with tstat := t.regs.trap.tstat &&& 3 } }
    iss := t.iss.redirect t.iss.cycle 3 }

/-- An asynchronous trap becomes due (R39): it is recorded while fewer than 96 are pending, else it marks the last one. -/
def Tile.trapDue (t : Tile) (p : PendTrap) : Tile :=
  let t := { t with ex := { t.ex with idle := if t.ex.prv then t.ex.idle else false } }
  if t.ex.pends.length < 96 then { t with ex := { t.ex with pends := t.ex.pends ++ [p] } }
  else { t with ex := { t.ex with pends := mapNth (fun q => { q with apend := true }) t.ex.pends 95 } }

end Sys2Proof.Machine
end

