-- ==== Sys2Proof/Machine/Operands.lean ====
section
/-! DEFINITION. Every operand form: local windows and the raw bytes that an access uses (R22, R23), shingle rules for touched
bytes (R28, R393), effective addresses (R105), translation and the checks of a global access (R109, R279, R337 to R340),
shingle references, extents and counter identifiers (R163, R197), homes of counters and lines (R344). -/

namespace Sys2Proof.Machine

/-! ## Local windows -/

/-- The windows of R22. -/
inductive Window where
  | raw | blk (f : BlkFmt) | half (f : FFmt) | inbox
deriving DecidableEq, Repr, Inhabited

/-- The window that holds a local address, and the offset in it (R22). -/
def windowOf (ea : Nat) : Option (Window × Nat) :=
  if ea < 0x80000 then some (.raw, ea)
  else if 0x01000000 ≤ ea ∧ ea ≤ 0x013332FF then some (.blk .lb4, ea - 0x01000000)
  else if 0x02000000 ≤ ea ∧ ea ≤ 0x022491FF then some (.blk .lb6, ea - 0x02000000)
  else if 0x03000000 ≤ ea ∧ ea ≤ 0x031C717F then some (.blk .lb8, ea - 0x03000000)
  else if 0x04000000 ≤ ea ∧ ea ≤ 0x0413B0FF then some (.blk .lb12, ea - 0x04000000)
  else if 0x05000000 ≤ ea ∧ ea ≤ 0x050FFFFF then some (.half bf16, ea - 0x05000000)
  else if 0x06000000 ≤ ea ∧ ea ≤ 0x060FFFFF then some (.half fp16, ea - 0x06000000)
  else if 0x08000000 ≤ ea ∧ ea ≤ 0x08003FFF then some (.inbox, ea - 0x08000000)
  else none

/-- Whether a window presents elements: a decode or widen window (R23). -/
def Window.wide : Window → Bool
  | .blk _ | .half _ => true
  | .raw | .inbox => false

/-- The raw bytes that a read of one element of a block window uses: the header, and the bytes of the element's bits. -/
def blkTouch (f : BlkFmt) (e : Nat) : List Nat :=
  let b := e / 32 * blkBytes f
  let w := pBits f + 2
  let lo := w * (e % 32) / 8
  let hi := (w * (e % 32) + w - 1) / 8
  upFrom b 4 ++ upFrom (b + 4 + lo) (hi + 1 - lo)

/-- The raw bytes that an access of n bytes at an offset of a window uses (R23, R28). -/
def Window.touch (w : Window) (off n : Nat) : List Nat :=
  match w with
  | .raw => upFrom off n
  | .blk f => (upFrom (off / 4) ((n + 3) / 4)).flatMap (blkTouch f)
  | .half _ => upFrom (off / 4 * 2) ((n + 3) / 4 * 2)
  | .inbox => []

/-- The FP32 word of element e of a decode or widen window (R23, R59, R60). -/
def Window.element (w : Window) (pad : Memory) (e : Nat) : W32 :=
  match w with
  | .blk f => blockElem f (Memory.bytes pad (e / 32 * blkBytes f) (blkBytes f)) (e % 32)
  | .half f => widen f (Memory.nat pad (2 * e) 2)
  | .raw | .inbox => 0

/-- The n bytes that a local read at an offset of a window returns, as a number (R23, R107). -/
def Tile.readLocal (t : Tile) (w : Window) (off n : Nat) : Nat :=
  match w with
  | .raw => Memory.nat t.pad.bytes off n
  | .inbox => Memory.nat t.inb.bytes off n
  | .blk f => ofBytes ((upFrom (off / 4) ((n + 3) / 4)).flatMap fun e => toBytes ((Window.blk f).element t.pad.bytes e).toNat 4)
  | .half f => ofBytes ((upFrom (off / 4) ((n + 3) / 4)).flatMap fun e => toBytes ((Window.half f).element t.pad.bytes e).toNat 4)

/-- The aligned 8-byte words of the raw scratchpad that an access uses. -/
def Window.words (w : Window) (off n : Nat) : List Nat := ((w.touch off n).map (· / 8)).eraseDups

/-- The number, in Inbox.bad, of the word that holds the metadata of a slot (R30, R208), after the 2,048 words of the payloads (R385; log 82,
DESIGN CHOICE). -/
def metaWord (slot : Nat) : Nat := 2048 + slot

/-- The TVAL of the first uncorrectable byte that a local read meets, if any (R35, R386). -/
def Tile.badLocal (t : Tile) (w : Window) (off n : Nat) : Option Word :=
  match w with
  | .inbox =>
    match (upFrom off n).find? (fun a => t.inb.bad.contains (a / 8)) with
    | some a => some (BitVec.ofNat 64 (2 ^ 60 + 0x08000000 + a))
    | none => none
  | _ =>
    match (w.touch off n).find? (fun a => t.pad.bad.contains (a / 8)) with
    | some a => some (BitVec.ofNat 64 a)
    | none => none

/-! ## What stops an instruction at issue -/

/-- Why an instruction does not issue in a cycle: it waits, and the cycle counts a stall event, or it traps (R237). miss is a wait for
the translations of some addresses, which the NI requests (R284, R340). -/
inductive Stop where
  | wait (ev : Nat)
  | miss (ev : Nat) (vas : List Nat)
  | trap (i : TrapInfo)
deriving DecidableEq, Repr, Inhabited

/-- A trap that records a cause, a value and a class. -/
def Stop.cause (cause : Nat) (tval : Word) (aclass : Nat := 0) : Stop := .trap { cause := cause, tval := tval, aclass := aclass }

/-- Fails with a stop if the condition holds. -/
def failIf (c : Bool) (st : Stop) : Except Stop Unit := if c then .error st else .ok ()

/-! ## Shingles -/

/-- The code of a shingle state (R25). -/
def ShState.code : ShState → Nat
  | .empty => 0 | .filling => 1 | .ready => 2 | .draining => 3

/-- TVAL of a SHINGLE trap (R35, R393). -/
def shingleTval (addr : Nat) (undefd : Bool) (st n : Nat) : Word :=
  BitVec.ofNat 64 (addr * 2 ^ 32 + undefd.toNat * 1024 + st * 256 + n)

/-- Whether a raw byte lies inside a shingle. -/
def Shingle.holds (x : Shingle) (a : Nat) : Bool := decide (x.base ≤ a ∧ a < x.base + x.len * 64)

/-- What a shingle does to an instruction that touches some of its bytes (R28). -/
inductive ShVerdict where
  | go | wait | trap
deriving DecidableEq, Repr, Inhabited

/-- The table of R28 for touched bytes, all of which lie inside the shingle. -/
def Shingle.verdict (x : Shingle) (load : Bool) (bytes : List Nat) : ShVerdict :=
  match x.st with
  | .empty => .trap
  | .filling => if load && bytes.all (fun a => decide (a < x.base + x.wmark)) then .go else .wait
  | .ready => .go
  | .draining => .wait

/-- The shingles touched by bytes: number, shingle, lowest byte touched and the bytes, in ascending order of that byte
(R393). -/
def Tile.touched (t : Tile) (bytes : List Nat) : List (Fin 64 × Shingle × Nat × List Nat) :=
  let hits := t.shingleList.filterMap fun p =>
    match bytes.filter p.2.holds with
    | [] => none
    | b :: bs => some (p.1, p.2, bs.foldl Nat.min b, b :: bs)
  sortList (fun a b => decide (a.2.2.1 ≤ b.2.2.1)) hits

/-- The shingle rule for touched bytes (R28, R393): traps before waits. -/
def Tile.gate (t : Tile) (load : Bool) (aclass : Nat) (lane : Option (Fin 64)) (bytes : List Nat) : Except Stop Unit :=
  let hits := t.touched bytes
  match hits.find? (fun h => decide (h.2.1.verdict load h.2.2.2 = .trap)) with
  | some h =>
    .error (.trap { cause := 0x09, tval := shingleTval h.2.2.1 false h.2.1.st.code h.1.val, aclass := aclass, lane := lane })
  | none => failIf (hits.any fun h => decide (h.2.1.verdict load h.2.2.2 = .wait)) (.wait 10)

/-- The shingle traps of touched bytes, without the waits (R28, R37, R156). -/
def Tile.gateTraps (t : Tile) (load : Bool) (aclass : Nat) (bytes : List Nat) : Except Stop Unit :=
  match t.gate load aclass none bytes with
  | .error (.trap i) => .error (.trap i)
  | _ => .ok ()

/-- Whether a load reads below the watermark of a FILLING shingle (event 50). -/
def Tile.belowMark (t : Tile) (bytes : List Nat) : Bool := (t.touched bytes).any fun h => decide (h.2.1.st = .filling)

/-- The effective address of format M (R105). -/
def memEa (t : Tile) (a : GReg) (z : Fin 8) (off : BitVec 13) : Word := t.g a + (off.signExtend 64 <<< z.val)

/-! ## Translation -/

/-- The kinds of access that a page admits or not (R279, R339). -/
inductive AccessKind where
  | load | store | copyIn | copyOut | atomic | red | handover | hostRead | hostWrite
deriving DecidableEq, Repr, Inhabited

/-- Whether the permission bits [SW, SR, UW, UR] admit an access at a privilege (R339). -/
def permits (p : BitVec 4) (atS : Bool) (k : AccessKind) : Bool :=
  let r := if atS then p.getLsbD 2 else p.getLsbD 0
  let w := if atS then p.getLsbD 3 else p.getLsbD 1
  match k with
  | .load | .copyIn | .hostRead => r
  | .store | .copyOut | .red | .handover | .hostWrite => w
  | .atomic => r && w

/-- Whether a page mode admits an access (R279): 0 OWNED, 1 READ, 2 REDUCE, 3 OPEN. -/
def admits (mode : Nat) (mine : Bool) (k : AccessKind) : Bool :=
  match k with
  | .load | .copyIn => (mode = 0 && mine) || mode = 1 || mode = 3
  | .store | .copyOut => (mode = 0 && mine) || mode = 3
  | .atomic | .red => mode = 2
  | .handover => mode = 0 && mine
  | .hostRead => mode = 1 || mode = 3
  | .hostWrite => mode = 3

/-- The leaf that an entry holds at a level, if it is valid there (R338). -/
def leafOf (e va lo lv : Nat) : Option TlbEntry :=
  let frame := bitsOf e 37 12
  if lv < 3 ∨ bitsOf e 11 6 ≠ 0 ∨ frame / 2 ^ 20 > 47 ∨ (lv = 3 ∧ frame % 512 ≠ 0) then none
  else some { asid := 0, va := va / 2 ^ lo * 2 ^ lo, size := 2 ^ lo, pa := frame * 65536, mode := bitsOf e 63 62,
              owner := bitsOf e 61 38, perms := BitVec.ofNat 4 (bitsOf e 5 2) }

/-- An aligned 8-byte word of HBM as a table walk or firmware reads it; an uncorrectable one reads as a free value (R385, log 71, DESIGN
CHOICE). -/
def GlobalMem.word (m : GlobalMem) (a : Nat) : Nat :=
  if m.bad.contains (a / 8) then Config.lostWord (a / 8) % 2 ^ 64 else Memory.nat m.hbm a 8

/-- The walk from a table through the levels that remain: low bit, index width, level (R337, R338). -/
def walkFrom (m : GlobalMem) (va : Nat) : Nat → List (Nat × Nat × Nat) → Option TlbEntry
  | _, [] => none
  | table, (lo, w, lv) :: rest =>
    let e := m.word (table + 8 * (va / 2 ^ lo % 2 ^ w))
    if e % 2 = 0 then none
    else if e / 2 % 2 = 1 then leafOf e va lo lv
    else if rest.isEmpty ∨ bitsOf e 63 42 ≠ 0 ∨ bitsOf e 11 2 ≠ 0 then none
    else walkFrom m va (bitsOf e 41 12 * 4096) rest

/-- The words of HBM that a walk reads, by their numbers. -/
def walkWords (m : GlobalMem) (va : Nat) : Nat → List (Nat × Nat × Nat) → List Nat
  | _, [] => []
  | table, (lo, w, _) :: rest =>
    let a := table + 8 * (va / 2 ^ lo % 2 ^ w)
    let e := m.word a
    if e % 4 = 1 ∧ bitsOf e 63 42 = 0 ∧ bitsOf e 11 2 = 0 then a / 8 :: walkWords m va (bitsOf e 41 12 * 4096) rest else [a / 8]

/-- The five levels of R337. -/
def levels : List (Nat × Nat × Nat) := [(52, 4, 0), (43, 9, 1), (34, 9, 2), (25, 9, 3), (16, 9, 4)]

/-- The site of the HBM stack of a physical address (R337). -/
def stackOf (pa : Nat) : Nat := Config.stackSite (pa / 2 ^ 36)

/-- Whether the HBM stack of a physical address has left the device with the router that it is attached to (R390). -/
def State.stackGone (s : State) (pa : Nat) : Bool := s.svc.failed.any fun f => decide (f.2 = 4 ∧ f.1 = stackOf pa)

/-- The valid leaf that maps a virtual address of an ASID in the page tables (R336 to R338); none where a table that the walk reads has left
the device (R390). -/
def State.walk (s : State) (a va : Nat) : Option TlbEntry :=
  if va < 2 ^ 56 then
    match s.asid a with
    | some e =>
      if s.svc.failed.any fun f => decide (f.2 = 4) && (walkWords s.mem va e.root levels).any fun w => decide (f.1 = stackOf (8 * w)) then none
      else (walkFrom s.mem va e.root levels).map fun x => { x with asid := a }
    | none => none
  else none

/-- The translation that the current tile's NI holds (R284, R340). -/
def Tile.held (t : Tile) (va : Nat) : Option TlbEntry :=
  t.ni.tlb.find? fun e => decide (e.asid = t.gang.asid ∧ e.va ≤ va ∧ va < e.va + e.size)

/-- Whether two byte ranges share a byte. -/
def meets (a n b m : Nat) : Bool := decide (a < b + m ∧ b < a + n)

/-- The micro-TLB once an access has used the entries of a range: they are the most recently used ones, and what was fetched for the
access is no longer at hand beside it (R340). -/
def Tile.usePages (t : Tile) (va n : Nat) : Tile :=
  let hit (e : TlbEntry) : Bool := decide (e.asid = t.gang.asid) && meets va n e.va e.size
  { t with ni := { t.ni with tlb := t.ni.tlb.filter (fun e => !hit e) ++ t.ni.tlb.filter hit, got := [], noLeaf := [] } }

/-- Whether a mode change of the range is pending (R283). -/
def State.modePending (s : State) (a va n : Nat) : Bool :=
  s.mem.modeReqs.any fun r => decide (r.asid = a) && meets va n r.va r.len

/-- The mode and owner that the issuer of a HANDOVER is checked against from its issue (R231): those of its last HANDOVER of
the page that has not been performed, else those of the entry. -/
def Tile.modeFor (t : Tile) (e : TlbEntry) (va : Nat) : Nat × Nat :=
  t.ops.ms.foldl (fun acc o =>
    match o.kind with
    | .handover _ b n own rd _ => if !o.done && decide (b ≤ va ∧ va < b + n) then (if rd then (1, 0) else (0, own)) else acc
    | _ => acc) (e.mode, e.owner)

/-- The check of a global access of n bytes that lie in one page (R109, R110, R283, R284, R340): the physical address, or a trap, or
a wait for a translation or for a pending mode change. That no leaf maps the page, the walk says. Where THROTTLE or MISALIGN holds too, the
callers take the trap before the wait of R283 (log 70, DESIGN CHOICE). -/
def State.checkGlobal (s : State) (k : AccessKind) (aclass : Nat) (lane : Option (Fin 64)) (va n : Nat) : Except Stop Nat :=
  let t := s.tile
  let fail (c : Nat) : Except Stop Nat :=
    .error (.trap { cause := c, tval := BitVec.ofNat 64 va, aclass := aclass, lane := lane })
  if va ≥ 2 ^ 56 then fail 0x06
  else if s.modePending t.gang.asid va n then .error (.wait 22)
  else
    match t.held va with
    | none => if t.ni.noLeaf.contains va && (s.walk t.gang.asid va).isNone then fail 0x06 else .error (.miss 22 [va])
    | some e =>
      let (m, o) := t.modeFor e va
      if !permits e.perms t.ex.prv k then fail 0x07
      else if !admits m (o == t.id.vt) k then fail 0x08
      else .ok (e.pa + (va - e.va))

/-! ## Shingle references, extents, counters -/

/-- The shingle number of a shingle reference (R163). -/
def refSh (x : Word) : Fin 64 := Fin.ofNat 64 (bitsOf x.toNat 5 0)

/-- The byte offset of a shingle reference (R163). -/
def refOff (x : Word) : Nat := bitsOf x.toNat 50 32

/-- The counter identifier of a register value (R163, R197). -/
def ctrId (x : Word) : W32 := x.truncate 32

/-- Whether a counter identifier is a system counter (R210). -/
def sysCtr (c : W32) : Bool := decide (c.toNat ≥ 0xFFFFF000)

/-- Whether the NI's deny bit of a table and engine is set (R218, R219). -/
def Tile.denied (t : Tile) (table engine : Nat) : Bool := t.ni.deny.contains (table, engine)

/-- The THROTTLE check of a counter for a table (R219). -/
def State.throttle (s : State) (table : Nat) (c : W32) (aclass : Nat) : Except Stop Unit :=
  failIf (s.tile.denied table ((s.part s.tile.id.part).ctrHome c))
    (.cause 0x0A (BitVec.ofNat 64 (table * 2 ^ 32 + c.toNat)) aclass)

end Sys2Proof.Machine
end

