-- ==== Sys2Proof/Machine/Timing.lean ====
section
/-! DEFINITION. When an instruction issues (R237), results and arrivals (R238, R34), scratchpad banks (R243 to R245), fetch
slots (R249) and the stall event of a cycle (R253). -/

namespace Sys2Proof.Machine

/-- The units whose occupancy can hold an instruction back (R239, R240); the others are free in every cycle. -/
inductive UnitKind where
  | other | divider | vpipe | vspecial | localPort
deriving DecidableEq, Repr, Inhabited

/-- What an instruction needs at issue (R237): registers free of unfinished results, its unit, its class, and the handles
whose counts it raises. reads lists the registers read, for event 48. -/
structure Need where
  regs : List RegName := []
  reads : List RegName := []
  unit : UnitKind := .other
  cls : Option OpClass := none
  hs : BitVec 8 := 0
deriving DecidableEq, Repr, Inhabited

/-- The first cycle in which a unit can be used. -/
def Units.free (u : Units) : UnitKind → Nat
  | .other => 0
  | .divider => u.divider
  | .vpipe => u.vpipe
  | .vspecial => u.vspecial
  | .localPort => u.localPort

/-- Occupies a unit until the given cycle. -/
def Tile.occupy (t : Tile) (k : UnitKind) (o : Nat) : Tile :=
  let u := t.iss.units
  let f := t.iss.cycle + o
  { t with iss := { t.iss with units :=
      match k with
      | .other => u
      | .divider => { u with divider := f }
      | .vpipe => { u with vpipe := f }
      | .vspecial => { u with vspecial := f }
      | .localPort => { u with localPort := f } } }

/-- The order in which stall events are considered (R253). -/
def stallOrder : List Nat := [15, 2, 3, 9, 14, 12, 13, 10, 11, 16, 17, 18, 19, 20, 21, 22, 4, 5, 7]

/-- The first of the stall events that apply, in the order of R253. -/
def firstStall (evs : List Nat) : Nat := (stallOrder.find? fun e => evs.contains e).getD 22

/-- The stall events of what an instruction needs and the cycle does not give (R237, conditions 3 to 5). -/
def Tile.lacks (t : Tile) (n : Need) : List Nat :=
  (if n.regs.any t.awaits then [4] else []) ++
  (if t.iss.units.free n.unit > t.iss.cycle then [if n.unit = .localPort then 7 else 5] else []) ++
  (match n.cls with
   | some c => if t.count c ≥ c.limit then [c.stall] else []
   | none => []) ++
  (if (List.finRange 8).any (fun k => n.hs.getLsbD k.val && decide (t.hcount k.val ≥ 255)) then [21] else [])

/-- The cycle counts a stall event and nothing issues (R253). -/
def State.stall (s : State) (ev : Nat) : State := s.upd fun t => { t with iss := { t.iss with stall := some ev } }

/-- Whether a register is the destination of an outstanding load (R34, event 48). -/
def Tile.loading (t : Tile) (n : RegName) : Bool := t.ops.loads.any fun o => o.regs.contains n

/-- One more instruction has been fetched since the stores into the code segment (R108); the next fetch chooses anew. -/
def Tile.fetchPassed (t : Tile) : Tile :=
  { t with pad := { t.pad with old := t.pad.old.filterMap fun e => if e.2.2 ≤ 1 then none else some (e.1, e.2.1, e.2.2 - 1)
                               seen := [] } }

/-- An instruction has issued: INSTR and STALEREAD are counted, the PC moves past its n words, and one more fetch has
passed since a store into the code segment (R108, R252). -/
def Tile.issuedWords (t : Tile) (words : Nat) (reads : List RegName) : Tile :=
  let t := ((t.event 1 1).eventIf (reads.any t.loading) 48).fetchPassed
  { t with
    ex := { t.ex with pc := t.ex.pc + BitVec.ofNat 64 (4 * words), branch := none, tvecFetch := false }
    iss := { t.iss with stall := none } }

/-- An instruction of one word has issued. -/
def Tile.issued (t : Tile) (reads : List RegName) : Tile := t.issuedWords 1 reads

/-- A register-to-register result of latency l (R238); latency 1 is written in the cycle of issue. -/
def Tile.result (t : Tile) (l : Nat) (w : RegWrite) (flags : Option FFlags := none) : Tile :=
  let p : PendWrite := ⟨t.iss.cycle + l - 1, w, flags⟩
  if l ≤ 1 then t.applyWrite p else { t with iss := { t.iss with writes := t.iss.writes ++ [p] } }

/-- A taken branch to a target (R101, R242): the bubble of two cycles, and the PC of the branch for R36. -/
def Tile.branchTo (t : Tile) (from_ target : Word) : Tile :=
  { t with ex := { t.ex with pc := target, branch := some from_ }, iss := t.iss.redirect t.iss.cycle 3 }

/-- The stamp of an operation that issues now; the next one is one higher. -/
def Tile.nextStamp (t : Tile) : Tile := { t with ops := { t.ops with stamp := t.ops.stamp + 1 } }

/-! ## Writes and arrivals -/

/-- Writes the results that are due at the end of the current cycle, in issue order (R238). -/
def Tile.writeDue (t : Tile) : Tile :=
  let due := t.iss.writes.filter fun w => decide (w.due ≤ t.iss.cycle)
  let rest := t.iss.writes.filter fun w => !decide (w.due ≤ t.iss.cycle)
  due.foldl Tile.applyWrite { t with iss := { t.iss with writes := rest } }

/-- Writes one element that a load brought (R34, R130). -/
def Tile.writeElem (t : Tile) (e : LoadElem) : Tile :=
  match e.val with
  | none => t
  | some x =>
    match e.reg with
    | .g r => t.setG r x
    | .v r => t.setV r (BitVec.ofNat 16 (2 ^ e.lane.val)) (lanesOf fun _ => x.truncate 32)
    | .m _ => t

/-- A load leaves its counts: its data is written, or ECC becomes due (R34, R38). -/
def Tile.arrive (t : Tile) (n : Nat) : Tile :=
  match t.ops.loads[n]? with
  | none => t
  | some o =>
    let t := { t with ops := { t.ops with loads := dropNth t.ops.loads n } }
    match o.ecc with
    | some (_, v, lane) => t.trapDue ⟨0x0B, v, o.aclass, lane, false⟩
    | none =>
      let t := o.elems.foldl Tile.writeElem t
      match o.kind with
      | .global _ | .atomic _ _ _ _ _ => t.event 49 (t.iss.cycle - o.issued)
      | .timed _ _ | .crd _ _ => t

/-- The place of the first load in the list whose fixed arrival is due. -/
def Tile.firstDue (t : Tile) : Option Nat :=
  t.ops.loads.findIdx? fun o => match o.kind with
    | .timed a _ => decide (a ≤ t.iss.cycle)
    | _ => false

/-- Applies up to n due arrivals in issue order (R34). -/
def Tile.arriveDue : Nat → Tile → Tile
  | 0, t => t
  | n + 1, t =>
    match t.firstDue with
    | some i => Tile.arriveDue n (t.arrive i)
    | none => t

/-- When a local load of own arrival latency l, issued now, arrives: never before the local load issued before it (R34). -/
def Tile.arrival (t : Tile) (l : Nat) : Nat :=
  t.ops.loads.foldl (fun a o => match o.kind with
    | .timed b true => Nat.max a b
    | _ => a) (t.iss.cycle + l - 1)

/-! ## Banks -/

/-- Serves one cycle of the reads of one group (R244): the words left, and the number rebuilt. pending stands in the order
lowest lane, lowest word. -/
def serveReads (pending : List Nat) : List Nat × Nat :=
  let firsts := (List.range 8).filterMap fun b => pending.find? fun w => decide (w % 8 = b)
  let rest := pending.filter fun w => !firsts.contains w
  match firsts, rest with
  | [_], _ :: xs => (xs, 1)
  | _, r => (r, 0)

/-- Access cycles and rebuilt reads of the reads of one group. -/
def groupReads : Nat → List Nat → Nat × Nat
  | 0, _ => (0, 0)
  | n + 1, p =>
    if p.isEmpty then (0, 0)
    else
      let (rest, r) := serveReads p
      let (c, k) := groupReads n rest
      (c + 1, r + k)

/-- Access cycles, at least one, and rebuilt reads of a local read, from the words that each lane uses in lane order (R243,
R244). -/
def readCycles (words : List Nat) : Nat × Nat :=
  let ws := words.eraseDups
  let gs := (List.range 4).map fun g => groupReads ws.length (ws.filter fun w => decide (w / 8 % 4 = g))
  (Nat.max 1 (gs.foldl (fun a x => Nat.max a x.1) 0), gs.foldl (fun a x => a + x.2) 0)

/-- Access cycles of a local store: the most words that one bank takes (R245). -/
def writeCycles (words : List Nat) : Nat :=
  let ws := words.eraseDups
  Nat.max 1 ((List.range 32).foldl (fun a b => Nat.max a (ws.countP fun w => decide (w % 32 = b))) 0)

/-- The access cycles that some words of a local load or store still take when nothing else uses the banks. -/
def portCycles (load : Bool) (words : List Nat) : Nat :=
  if words.isEmpty then 0 else if load then (readCycles words).1 else writeCycles words

/-- A local memory instruction begins (R239): it occupies the local memory port, and its first access cycle is the next one. -/
def Tile.usePort (t : Tile) (load : Option Nat) (words : List Nat) (cycles : Nat) : Tile :=
  let t := t.occupy .localPort cycles
  { t with iss := { t.iss with port := ⟨load, words.eraseDups, false⟩ } }

/-- The words that the banks serve directly in a cycle, one in each bank but those barred (R244, R245). -/
def servedNow (words barred : List Nat) : List Nat :=
  (List.range 32).filterMap fun b => if barred.contains b then none else words.find? fun w => decide (w % 32 = b)

/-- The reads that the parity banks rebuild in a cycle (R244): in a group of which one data bank alone is in use, that bank's next
word. fetched is the group that instruction fetch reads. -/
def rebuiltNow (words served : List Nat) (fetched : Option Nat) : List Nat :=
  (List.range 4).filterMap fun g =>
    if decide (served.countP (fun w => decide (w / 8 % 4 = g)) = 1) && decide (fetched ≠ some g) then
      words.find? fun w => decide (w / 8 % 4 = g) && !served.contains w
    else none

/-- The data banks of a 32-byte block (R243, R247). -/
def blockBanks (b : Nat) : List Nat := upFrom (4 * b % 32) 4

/-- One cycle of the local memory instruction in progress (R244, R245), while instruction fetch is granted a block: the words served
leave; where the cycle serves less than it would alone, the port stays occupied and the load arrives later. Events 6 and 8. -/
def Tile.portCycle (t : Tile) (block : Option Nat) (fetchFirst : Bool) : Tile :=
  let p := t.iss.port
  if p.words.isEmpty then t
  else
    let barred := match block with
      | some b => if fetchFirst then blockBanks b else []
      | none => []
    let served := servedNow p.words barred
    let rebuilt := if p.load.isSome then rebuiltNow p.words served (block.map fun b => b / 2 % 4) else []
    let rest := p.words.filter fun w => !served.contains w && !rebuilt.contains w
    let late := portCycles p.load.isSome rest + 1 - portCycles p.load.isSome p.words
    let delay (o : OutLoad) : OutLoad :=
      match o.kind with
      | .timed a i => if p.load = some o.stamp then { o with kind := .timed (a + late) i } else o
      | .global _ | .atomic _ _ _ _ _ | .crd _ _ => o
    let t := (t.eventIf (p.load.isSome && p.begun) 6).event 8 rebuilt.length
    { t with
      ops := { t.ops with loads := t.ops.loads.map delay }
      iss := { t.iss with port := { p with words := rest, begun := true }
                          units := { t.iss.units with localPort := t.iss.units.localPort + late } } }

/-! ## Instruction fetch -/

/-- The block that instruction fetch requests (R247): the one at the PC, else the next one of the code segment. -/
def Tile.wantBlock (t : Tile) : Option Nat :=
  let b := t.ex.pc.toNat / 32
  let has (x : Nat) : Bool := t.iss.fetch.blocks.any fun p => decide (p.1 = x)
  if !t.ex.inh || decide (t.iss.cycle < t.iss.fetch.since) || decide (t.ex.pc.toNat ≥ t.regs.shbase.toNat) then none
  else if !has b then some b
  else if !has (b + 1) && decide (32 * (b + 1) < t.regs.shbase.toNat) then some (b + 1)
  else none

/-- A cycle of the scratchpad (R246, R247): a block that has been consumed leaves the buffer; a request is granted unless the local
memory instruction in progress uses one of its banks, which after 16 denials it no longer does. The words of a sequential block can issue
two cycles after its grant, as R242 has it for the block of a branch target (log 77, DEDUCED). The 16 denials are those of the request,
whichever of its banks denied it, and the request is then served first on all its banks (log 87, DESIGN CHOICE). -/
def Tile.scratchCycle (t : Tile) : Tile :=
  let f := t.iss.fetch
  let b := t.ex.pc.toNat / 32
  let kept := f.blocks.filter fun p => decide (p.1 = b ∨ p.1 = b + 1)
  match t.wantBlock with
  | none => ({ t with iss := { t.iss with fetch := { f with blocks := kept, denied := 0 } } }).portCycle none false
  | some w =>
    let first := decide (16 ≤ f.denied)
    if first || !(servedNow t.iss.port.words []).any (fun x => (blockBanks w).contains (x % 32)) then
      let g : FetchState := { f with blocks := kept ++ [(w, t.iss.cycle + f.lead)], lead := 2, denied := 0 }
      ({ t with iss := { t.iss with fetch := g } }).portCycle (some w) first
    else ({ t with iss := { t.iss with fetch := { f with blocks := kept, denied := f.denied + 1 } } }).portCycle none false

/-! ## Fetch slots -/

/-- Whether the current cycle is an allowed fetch slot (R249). -/
def Tile.slotAllowed (t : Tile) : Bool :=
  let s := t.iss.cycle % 16
  decide ((s + 1) * t.ni.duty / 16 - s * t.ni.duty / 16 = 1)

end Sys2Proof.Machine
end

