-- ==== Sys2Proof/Machine/Flags.lean ====
section
/-! DEFINITION. The words of the status registers as MFS reads them (R15 to R21, R25, R29, R31), the field rules of MTS (R6,
R7), the instruction word of a trap record (R35), and sign and zero extension of loads. -/

namespace Sys2Proof.Machine

/-- A number as a register value. -/
def w64 (x : Nat) : Word := BitVec.ofNat 64 x

/-- The word of an instruction as TVAL holds it: for a pair, HEAD in [31:0] and TAIL in [63:32] (R35). -/
def instrWord (i : Instr) : Word := w64 ((encode i).foldr (fun w n => w + 2 ^ 32 * n) 0)

/-- STATUS (R16). -/
def Tile.statusWord (t : Tile) : Word :=
  w64 ((if t.ex.inh then t.ex.chan.val * 2 ^ 24 + 2 ^ 16 else 0) + t.ex.prv.toNat)

/-- GANG (R16). -/
def Tile.gangWord (t : Tile) : Word := w64 (t.gang.det.toNat * 2 ^ 23 + t.gang.cls.val * 2 ^ 16 + t.id.gid)

/-- CAPS (R19). -/
def capsWord : Word :=
  w64 (16 * 2 ^ 56 + 64 * 2 ^ 48 + 3 * 2 ^ 44 + 2 * 2 ^ 40 + 128 * 2 ^ 32 + 128 * 2 ^ 24 + 16 * 2 ^ 16 + 64 * 2 ^ 8 + 64)

/-- MSTAT (R21). -/
def Tile.mstatWord (t : Tile) : Word :=
  w64 (t.regs.mxe.toNat * 8 + t.regs.nanSeen.toNat * 4 + t.regs.ovfSeen.toNat * 2 + (decide (t.count .mx ≠ 0)).toNat)

/-- INCOUNT (R21). -/
def Tile.incountWord (t : Tile) : Word :=
  w64 ((if t.ex.inh then (match t.ex.curSlot with | some c => c.val | none => 0) * 2 ^ 32 + t.pend t.ex.chan * 2 ^ 16 else 0) +
    t.inb.slots.length)

/-- OPS (R21). -/
def Tile.opsWord (t : Tile) : Word :=
  w64 (t.count .ms * 2 ^ 32 + t.count .mx * 2 ^ 24 + t.count .cp * 2 ^ 16 + t.count .st * 2 ^ 8 + t.count .ld)

/-- HCNT (R21). -/
def Tile.hcntWord (t : Tile) : Word := w64 ((List.range 8).foldr (fun k n => t.hcount k + 256 * n) 0)

/-- A handler-table entry (R29). -/
def Tile.chanWord (t : Tile) (c : Fin 64) : Word :=
  let e := t.inb.chans.get c
  w64 (e.bound.toNat * 2 ^ 63 + e.seq.toNat * 2 ^ 62 + e.mask.toNat * 2 ^ 61 + e.pri.val * 2 ^ 58 + e.quota % 512 * 2 ^ 49 +
    t.pend c % 512 * 2 ^ 40 + e.age % 4096 * 2 ^ 28 + e.entry % 2 ^ 17 * 4)

/-- Word 0 of a shingle entry (R25). -/
def Tile.shWord0 (t : Tile) (n : Fin 64) : Word :=
  match t.sh n with
  | none => 0
  | some x => w64 (2 ^ 63 + x.st.code * 2 ^ 59 + x.wmark % 2 ^ 20 * 2 ^ 39 + x.len % 2 ^ 14 * 2 ^ 19 + x.base % 2 ^ 19)

/-- Word 1 of a shingle entry (R25). -/
def Tile.shWord1 (t : Tile) (n : Fin 64) : Word :=
  match t.sh n with
  | none => 0
  | some x => w64 (x.dctr.toNat * 2 ^ 32 + x.fctr.toNat)

/-- The engine registers at 0x100 to 0x107 (R31). -/
def Tile.engWord (t : Tile) (k : Nat) : Word :=
  if h : k < 6 then t.eng.regs.get ⟨k, h⟩
  else if k = 6 then w64 (t.eng.joined.toNat * 2 ^ 19 + t.eng.pos.val * 2 ^ 16 + t.eng.plan.toNat)
  else 0

/-- The router of a site. -/
def State.router (s : State) (site : Nat) : Router := tget (Router.fresh site) s.fab.routers site

/-- Changes the router of a site. -/
def State.updRouter (s : State) (site : Nat) (f : Router → Router) : State :=
  { s with fab := { s.fab with routers := tset s.fab.routers site (f (s.router site)) } }

/-- TIME of the router of a site (R311). -/
def State.timeAt (s : State) (site : Nat) : Nat := s.fab.time + (s.router site).adj - (s.router site).lag

/-- TIME as the current tile reads it (R120, R311). -/
def State.tileTime (s : State) : Nat := s.timeAt s.tile.pl.phys

/-- How a state register can be reached at a privilege (R15). -/
inductive RegAccess where
  | hidden | readOnly | readWrite
deriving DecidableEq, Repr, Inhabited

/-- The table of R15: access at U and at S, none for an index that it does not list. -/
def regAccess (x : Nat) : Option (RegAccess × RegAccess) :=
  if x ≤ 0x004 then some (.readOnly, .readOnly)
  else if x ≤ 0x00A then some (.hidden, .readWrite)
  else if x = 0x010 ∨ x = 0x011 ∨ x = 0x01A then some (.readWrite, .readWrite)
  else if x = 0x018 ∨ x = 0x019 ∨ x = 0x01B then some (.readOnly, .readOnly)
  else if x = 0x020 ∨ x = 0x021 ∨ x = 0x028 ∨ x = 0x029 then some (.readOnly, .readOnly)
  else if 0x030 ≤ x ∧ x ≤ 0x038 then some (.readWrite, .readWrite)
  else if x = 0x040 then some (.readWrite, .readWrite)
  else if x = 0x041 then some (.readOnly, .readWrite)
  else if 0x042 ≤ x ∧ x ≤ 0x044 then some (.readOnly, .readOnly)
  else if 0x050 ≤ x ∧ x ≤ 0x05F then some (.readOnly, .readOnly)
  else if 0x100 ≤ x ∧ x ≤ 0x107 then some (.readOnly, .readOnly)
  else if 0x200 ≤ x ∧ x ≤ 0x23F then some (.readOnly, .readOnly)
  else if 0x300 ≤ x ∧ x ≤ 0x37F then some (.readOnly, .readOnly)
  else none

/-- The access that the current privilege has. -/
def Tile.access (t : Tile) (x : Nat) : Option RegAccess := (regAccess x).map fun p => if t.ex.prv then p.2 else p.1

/-- The value of a listed state register (R15, R120). -/
def State.readReg (s : State) (x : Nat) : Word :=
  let t := s.tile
  let r := t.regs
  match x with
  | 0x000 => w64 (t.pl.phys % 65536)
  | 0x001 => w64 (t.id.vt % 2 ^ 24)
  | 0x002 => t.gangWord
  | 0x003 => w64 (t.gang.asid % 4096)
  | 0x004 => t.statusWord
  | 0x005 => r.tvec.zeroExtend 64
  | 0x006 => r.trap.tpc
  | 0x007 => r.trap.tcause
  | 0x008 => r.trap.tval
  | 0x009 => r.trap.tinfo
  | 0x00A => r.trap.tstat
  | 0x010 => w64 r.fmode.val
  | 0x011 => r.fflags.zeroExtend 64
  | 0x018 => 16
  | 0x019 => 16
  | 0x01A => w64 r.vl.val
  | 0x01B => capsWord
  | 0x020 => w64 s.tileTime
  | 0x021 => t.gang.gseed
  | 0x028 => w64 t.ni.step.val
  | 0x029 => w64 t.ni.duty
  | 0x030 => r.psel
  | 0x040 => t.mstatWord
  | 0x041 => r.shbase.zeroExtend 64
  | 0x042 => t.incountWord
  | 0x043 => t.opsWord
  | 0x044 => t.hcntWord
  | _ =>
    if 0x031 ≤ x ∧ x ≤ 0x038 then r.perf.get (Fin.ofNat 8 (x - 0x031))
    else if 0x050 ≤ x ∧ x ≤ 0x05F then
      (if x % 2 = 0 then (r.h.get (Fin.ofNat 8 ((x - 0x050) / 2))).base else (r.h.get (Fin.ofNat 8 ((x - 0x050) / 2))).len)
    else if 0x100 ≤ x ∧ x ≤ 0x107 then t.engWord (x - 0x100)
    else if 0x200 ≤ x ∧ x ≤ 0x23F then t.chanWord (Fin.ofNat 64 x)
    else if 0x300 ≤ x ∧ x ≤ 0x33F then t.shWord0 (Fin.ofNat 64 x)
    else if 0x340 ≤ x ∧ x ≤ 0x37F then t.shWord1 (Fin.ofNat 64 x)
    else 0

/-- The value of a register load of n bytes (R107, R221): sign- or zero-extended. -/
def extendBytes (signed : Bool) (n x : Nat) : Word :=
  match n with
  | 1 => if signed then (BitVec.ofNat 8 x).signExtend 64 else (BitVec.ofNat 8 x).zeroExtend 64
  | 2 => if signed then (BitVec.ofNat 16 x).signExtend 64 else (BitVec.ofNat 16 x).zeroExtend 64
  | 4 => if signed then (BitVec.ofNat 32 x).signExtend 64 else (BitVec.ofNat 32 x).zeroExtend 64
  | _ => w64 x

/-- The bytes of an element of a type (R126, R155). -/
def elemSize : ElemTy → Nat
  | .f32 | .s32 | .n32 => 4
  | .bf16 | .fp16 | .s16 => 2
  | .s8 | .n8 => 1

/-- The lane value of a written element (R126): the bits above a narrow element are zero, or copies of its sign for S16 and
S8. -/
def fillElem (ty : ElemTy) (x : Nat) : W32 :=
  match ty with
  | .f32 | .s32 | .n32 => BitVec.ofNat 32 x
  | .bf16 | .fp16 => (BitVec.ofNat 16 x).zeroExtend 32
  | .s16 => (BitVec.ofNat 16 x).signExtend 32
  | .s8 => (BitVec.ofNat 8 x).signExtend 32
  | .n8 => (BitVec.ofNat 8 x).zeroExtend 32

end Sys2Proof.Machine
end

