-- ==== Sys2Proof/Machine/Sites.lean ====
section
/-! DEFINITION. The site grid (R309): places, neighbours, distances (R298), the routers that work (R312), the pool of a partition
(R321, R391), and the route of a gutter flit (R301). -/

namespace Sys2Proof.Machine

/-! ## Places -/

/-- The field of a site: bits [15:10] of the physical tile identifier (R309). -/
def fieldOf (site : Nat) : Nat := site / 1024

/-- The column and the row of a site in the site grid (R309). -/
def siteXY (x : Nat) : Nat × Nat := (24 * (fieldOf x % 8) + x / 32 % 32, 30 * (fieldOf x / 8) + x % 32)

/-- The site at a place of the grid (R309): 8 fields of 24 columns by 7 fields of 30 rows. -/
def siteAt (col row : Nat) : Nat := (row / 30 * 8 + col / 24) * 1024 + col % 24 * 32 + row % 30

/-- Whether a number is the identifier of a site (R309). -/
def isSite (x : Nat) : Bool := decide (fieldOf x < 56 ∧ x / 32 % 32 < 24 ∧ x % 32 < 30)

/-- The neighbour of a site at an output: 0 north, 1 east, 2 south, 3 west. -/
def neighbour (x out : Nat) : Option Nat :=
  let p := siteXY x
  match out with
  | 0 => if p.2 = 0 then none else some (siteAt p.1 (p.2 - 1))
  | 1 => if p.1 ≥ 191 then none else some (siteAt (p.1 + 1) p.2)
  | 2 => if p.2 ≥ 209 then none else some (siteAt p.1 (p.2 + 1))
  | 3 => if p.1 = 0 then none else some (siteAt (p.1 - 1) p.2)
  | _ => none

/-- The input port at which a flit arrives that left by an output. -/
def inPort (out : Nat) : Nat := (out + 2) % 4

/-- The output of a site that leads to a neighbour. -/
def outTo (x n : Nat) : Option Nat := [0, 1, 2, 3].find? fun o => decide (neighbour x o = some n)

/-! ## Distances -/

/-- The difference of two numbers. -/
def gap (a b : Nat) : Nat := max a b - min a b

/-- The Manhattan distance between two sites (R298). -/
def manhattan (a b : Nat) : Nat := gap (siteXY a).1 (siteXY b).1 + gap (siteXY a).2 (siteXY b).2

/-- The numbers between two numbers, both of them included. -/
def between (a b : Nat) : List Nat := (List.range (gap a b + 1)).map (· + min a b)

/-- The sites on the minimal paths between two sites: those of the rectangle that they span. -/
def boxOf (a b : Nat) : List Nat :=
  (between (siteXY a).1 (siteXY b).1).flatMap fun c => (between (siteXY a).2 (siteXY b).2).map (siteAt c)

/-- Whether the router of a site works (R312). -/
def State.routerWorks (s : State) (x : Nat) : Bool := !(s.router x).failed

/-- The working routers as the loader knew them when it made the tables in force (R297, R312, R391). -/
def State.mapped (s : State) (x : Nat) : Bool := isSite x && !Config.routerFailed x && !s.fab.mapped.contains x

/-- The sign of a difference, as 0, 1 or 2. -/
def signOf (a b : Nat) : Nat := if a < b then 0 else if a = b then 1 else 2

/-- The entry of the candidate table for a destination (R297, log 29, DEDUCED): the field, or the signs of the differences within a field. -/
def tableEntry (site dst : Nat) : Nat :=
  if fieldOf site ≠ fieldOf dst then fieldOf dst
  else 56 + 3 * signOf (siteXY dst).1 (siteXY site).1 + signOf (siteXY dst).2 (siteXY site).2

/-- The outputs that the candidate table of a router lists for a destination (R297): at most three. -/
def State.listed (s : State) (site dst : Nat) : List Nat := (Config.candidates s.svc.gen site (tableEntry site dst)).take 3

/-- The greatest of some lengths plus one, none where one is missing or there is none. -/
def longer : List (Option Nat) → Option Nat
  | [] => none
  | [x] => x.map (· + 1)
  | x :: l => match x, longer l with
    | some a, some b => some (max (a + 1) b)
    | _, _ => none

/-- Whether every router on the minimal paths between two sites works (R298). -/
def State.plainBox (s : State) (a b : Nat) : Bool := (boxOf a b).all s.mapped

/-- The length of the longest route that the candidate tables permit between two sites (R298), none where some route that they permit ends
at a router that is off the tables, or does not end. The first argument bounds the hops. -/
def State.longest (s : State) (dst : Nat) : Nat → Nat → Option Nat
  | 0, _ => none
  | n + 1, site =>
    if s.plainBox site dst then some (manhattan site dst)
    else longer ((s.listed site dst).map fun o => match neighbour site o with
      | some y => if s.mapped y then s.longest dst n y else none
      | none => none)

/-- Whether the tables in force lead from every working router to a site (R298), as every loader's tables do. -/
def State.soundTo (s : State) (dst : Nat) : Bool :=
  ((List.range 57344).filter s.mapped).all fun x => (s.longest dst 57344 x).isSome

/-- The sites at a growing number of hops over working routers: those reached so far, and those reached last. The first argument bounds the
hops. -/
def State.spread (s : State) (goal : Nat) : Nat → Nat → List Nat → List Nat → Nat
  | 0, d, _, _ => d
  | n + 1, d, seen, last =>
    if last.contains goal ∨ last.isEmpty then d
    else
      let next := (((last.flatMap fun x => [0, 1, 2, 3].filterMap (neighbour x)).filter s.mapped).eraseDups).filter fun x => !seen.contains x
      s.spread goal n (d + 1) (seen ++ next) next

/-- The distance between two sites (R298): the Manhattan distance where every router on the minimal paths works, else the length of the
longest route that the tables permit. Where the constants of Config are no loader's tables for the destination, the shortest way over
working routers stands in (log 48, DESIGN CHOICE). -/
def State.distance (s : State) (a b : Nat) : Nat :=
  if s.plainBox a b then manhattan a b
  else if s.soundTo b then (s.longest b 57344 a).getD 0
  else s.spread a 57344 0 [b] [b]

/-! ## Pools -/

/-- Whether a site has failed (R390). -/
def State.siteFailed (s : State) (x : Nat) : Bool := s.svc.failed.any fun f => decide (f.1 = x)

/-- The partition whose pool holds a site, 64 or more for none (R321, R391): repair gives sites to partitions. -/
def State.poolOf (s : State) (x : Nat) : Nat := tget (Config.poolOf x) s.svc.pools x

/-- Whether a site is a working tile (R1, R390). -/
def State.siteWorks (s : State) (x : Nat) : Bool := isSite x && Config.working x && !s.siteFailed x

/-- The working tiles of a partition's pool (R321, R391). -/
def State.pool (s : State) (part : Nat) : List Nat :=
  (List.range 57344).filter fun x => decide (s.poolOf x = part) && s.siteWorks x

/-! ## Use in the running interval -/

/-- The clock of a step, in cycles of 10 ns (R20). -/
def stepClock (s : Fin 4) : Nat :=
  match s with
  | 0 => 8 | 1 => 25 | 2 => 27 | 3 => 29

/-- What a physical tile has done that has held no context, at floor, since the interval began (R348). -/
def SiteUse.idle (start : Nat) : SiteUse := ⟨0, 0, 0, start, 0, 16⟩

/-- What a physical tile without a context has done in the running interval (R350, R353): what the contexts that left it ran, and the
cycles of the empty time, at the step in force, which the last context or the last boundary set (R349, log 73, DEDUCED). -/
def State.siteUse (s : State) (x : Nat) : SiteUse :=
  let u := tget (SiteUse.idle (10000 * s.power.interval)) s.power.sites x
  { u with all := u.all + (s.fab.time - u.since) * stepClock u.step / 10, since := s.fab.time }

/-! ## Gutter routes -/

/-- The sites of the route of a gutter flit where no router has failed (R301): along the row to the destination's column, and then along
that column. -/
def gutterPath (a b : Nat) : List Nat :=
  (between (siteXY a).1 (siteXY b).1).map (fun c => siteAt c (siteXY a).2) ++ (between (siteXY a).2 (siteXY b).2).map (siteAt (siteXY b).1)

/-- The output of a gutter flit at a router by the rule (R301): along the row and then along the column, or by the detour that the loader has
fixed where a router of that way has failed; none at its destination. -/
def State.gutterRule (s : State) (site dst : Nat) : Option Nat :=
  let p := siteXY site
  let q := siteXY dst
  if site = dst then none
  else if (gutterPath site dst).all s.mapped then
    some (if p.1 < q.1 then 1 else if q.1 < p.1 then 3 else if p.2 < q.2 then 2 else 0)
  else outTo site (Config.gutterNext s.svc.gen site dst)

/-- Whether the routes of the rule lead from a site to a destination over working routers. The first argument bounds the hops. -/
def State.gutterLeads (s : State) (dst : Nat) : Nat → Nat → Bool
  | 0, _ => false
  | n + 1, site =>
    decide (site = dst) || (match (s.gutterRule site dst).bind (neighbour site) with
      | some y => s.mapped y && s.gutterLeads dst n y
      | none => false)

/-- Whether a flit in the gutter lane at the end of one link may have to wait for that at the end of another (R301). -/
def State.gutterWaits (s : State) (a b : Nat × Nat) : Bool :=
  decide (neighbour a.1 a.2 = some b.1) &&
  (List.range 57344).any fun dst => decide (s.gutterRule a.1 dst = some a.2 ∧ s.gutterRule b.1 dst = some b.2)

/-- The links from which a chain of waits of a length begins; the first argument is the length. -/
def State.gutterChains (s : State) : Nat → List (Nat × Nat)
  | 0 => (List.range 57344).flatMap fun x => [0, 1, 2, 3].map fun o => (x, o)
  | n + 1 => (s.gutterChains n).filter fun a => (s.gutterChains n).any (s.gutterWaits a)

/-- Whether the routes of the rule are a loader's (R301): each leads to its destination, and no chain of waits closes. -/
def State.gutterSound (s : State) : Bool :=
  (((List.range 57344).filter s.mapped).all fun dst => ((List.range 57344).filter s.mapped).all (s.gutterLeads dst 57344)) &&
  (s.gutterChains (4 * 57344)).isEmpty

/-- The neighbour of a router on the shortest way to the working router of the lowest number. -/
def State.gutterUp (s : State) (x : Nat) : Option Nat :=
  let root := ((List.range 57344).find? s.mapped).getD 0
  let hops (y : Nat) : Nat := s.spread y 57344 0 [root] [root]
  ([0, 1, 2, 3].filterMap (neighbour x)).find? fun y => s.mapped y && decide (hops y < hops x)

/-- The neighbour of a router that is next on the way to a destination in the tree of those ways: down, where the destination lies below it,
else up. The first argument bounds the hops. -/
def State.gutterTree (s : State) (site : Nat) : Nat → Nat → Option Nat
  | 0, _ => s.gutterUp site
  | n + 1, x =>
    match s.gutterUp x with
    | some y => if y = site then some x else s.gutterTree site n y
    | none => s.gutterUp site

/-- The output of a gutter flit at a router (R301). Where the constant makes no loader's routes of the rule, those of a tree over the working
routers stand in for detours (log 48, DESIGN CHOICE). -/
def State.gutterOut (s : State) (site dst : Nat) : Option Nat :=
  if site = dst then none
  else if (gutterPath site dst).all s.mapped || s.gutterSound then s.gutterRule site dst
  else (s.gutterTree site 57344 dst).bind (outTo site)

/-! ## The ring -/

/-- The routers that a number of steps along the ring of the image pass from a site on (R300). -/
def State.ringFrom (s : State) : Nat → Nat → List Nat
  | 0, _ => []
  | n + 1, x => Config.ringNext s.svc.gen x :: s.ringFrom n (Config.ringNext s.svc.gen x)

/-- The router after a site in the order of the ring (R300): the one that the image names, where its ring passes every working router, as
every loader's does; else the next identifier stands in (log 48, DESIGN CHOICE). -/
def State.ringStep (s : State) (x : Nat) : Nat :=
  if ((List.range 57344).filter s.mapped).all fun y => (s.ringFrom 57344 x).contains y then Config.ringNext s.svc.gen x
  else (x + 1) % 57344

/-- The next working router of the ring after a site (R300, R312): a failed one is off it. The first argument bounds the routers. -/
def State.ringAfter (s : State) : Nat → Nat → Nat
  | 0, x => x
  | n + 1, x =>
    let y := s.ringStep x
    if s.routerWorks y && isSite y then y else s.ringAfter n y

end Sys2Proof.Machine
end

