-- ==== Sys2Proof/Machine/Service.lean ====
section
/-! DEFINITION. Shared operations of firmware: gang-stop (R334, steps 1 and 2 of its marking), the counting of uncorrectable
errors (R386, R387, R389), the failure of a site and the stop that repair begins with (R390, R391), and tile faults (R326). -/

namespace Sys2Proof.Machine

/-! ## Gang-stop -/

/-- Whether a gang is stopped or stopping (R334), for whatever reason. -/
def Gang.stopping (g : Gang) : Bool := g.byGstop || g.byShed || g.byFirmware || g.byRepair

/-- Whether a gang is shed (R361): it is stopped, and shedding stops it. -/
def Gang.isShed (g : Gang) : Bool := g.byShed && g.stopDone

/-- Whether a gang is shedding (R361): its class is marked, and it is not yet stopped. -/
def Gang.shedding (g : Gang) : Bool := g.shedWait || (g.byShed && !g.stopDone)

/-- Whether an asynchronous trap takes the present boundary of an activation before anything else does (R39). -/
def Tile.trapFirst (t : Tile) : Bool := t.ex.inh && !t.ex.prv && !t.ex.pends.isEmpty

/-- Whether a tile stops at once: it is at rest, in IDLE or held at a CWAIT (R334), and no pending trap takes the boundary first (R39). -/
def Tile.stopsAtOnce (t : Tile) : Bool := (!t.ex.inh || t.ex.idle || t.ex.cw.isSome) && !t.trapFirst

/-- What a stop keeps of a CWAIT that it withdraws. -/
def CwState.request (c : CwState) : W32 × Word × Bool := (c.ctr, c.thr, c.nopend)

/-- A CWAIT that a tile holds at has been fetched, and what takes its boundary leaves one fetch fewer to the stores before it (R108). -/
def Tile.cwaitPassed (t : Tile) : Tile := if t.ex.cw.isSome then t.fetchPassed else t

/-- The virtual tile stops at its present boundary (R329, R334): a CWAIT is withdrawn and will execute afresh. -/
def Tile.stopNow (t : Tile) : Tile :=
  { t.cwaitPassed with
    ex := { t.ex with cw := none, acqWait := none, withdrawn := (t.ex.cw.map CwState.request).or t.ex.withdrawn }
    pl := { t.pl with stopped := true, stopDue := false } }

/-- Gang-stop is taken (R334): it is a wake event for IDLE, and takes the boundary after it (R119). -/
def Tile.takeStop (t : Tile) : Tile := { t.stopNow with ex := { t.stopNow.ex with idle := false } }

/-- Step 1 of R334 at one virtual tile: a tile at rest, in IDLE or at a CWAIT stops at once; any other resident tile takes GSTOP
at its next boundary, as does every tile whose clock is paused (R348). -/
def Tile.stopMark (t : Tile) : Tile :=
  if t.pl.res ≠ .resident ∨ t.pl.stopped then t
  else if t.stopsAtOnce && !t.ni.paused then t.takeStop
  else { t with pl := { t.pl with stopDue := true } }

/-- The waiter of a virtual tile that is held at a CWAIT is withdrawn (R216). -/
def State.dropWaiter (s : State) (t : Tile) : State :=
  match t.ex.cw with
  | some c => s.withdraw t.id c.ctr t.gang.asid
  | none => s

/-- The current tile stops at its present boundary (R334). -/
def State.stopHere (s : State) : State := (s.dropWaiter s.tile).upd Tile.takeStop

/-- The pending trap of the current tile that became due first is taken, if its activation is at U (R39). -/
def State.takePending (s : State) : State :=
  match s.tile.ex.pends with
  | [] => s
  | p :: rest =>
    if s.tile.trapFirst then
      (s.upd fun t => { t.cwaitPassed with ex := { t.ex with pends := rest } }).trapHere
        { cause := p.cause, tval := p.val, aclass := p.aclass, lane := p.lane, apend := p.apend || !rest.isEmpty }
    else s

/-- Withdraws the waiters of the tiles of a gang that stop at once (R216, R334). -/
def State.withdrawStopped (s : State) (part gid : Nat) : State :=
  (s.tilesOf part gid).foldl (fun s t =>
    if t.pl.res = .resident ∧ t.stopsAtOnce ∧ !t.ni.paused ∧ !t.pl.stopped then s.dropWaiter t else s) s

/-- Gang-stop begins (R334): the tiles are marked; a change in progress settles by COMMIT or ABORT. -/
def State.stopTiles (s : State) (part gid : Nat) : State :=
  let s := s.withdrawStopped part gid
  s.updAll fun t => if t.id.part = part ∧ t.id.gid = gid then t.stopMark else t

/-- Marks a gang stopped for a reason and stops its tiles (R334). -/
def State.gangStop (s : State) (part gid : Nat) (why : Gang → Gang) : State :=
  match s.gang part gid with
  | none => s
  | some g =>
    let s := s.updGang part gid why
    if g.stopping then s else (s.updGang part gid fun g => { g with stopWork := true, stopDone := false }).stopTiles part gid

/-- The stop of a shedding gang begins (R361): shedding stops it. -/
def State.shedStop (s : State) (part gid : Nat) : State := s.gangStop part gid fun g => { g with byShed := true, shedWait := false }

/-- Whether the current tile, at a CWAIT of a counter, is at the barrier boundary that its shedding gang waits for (R268, R361). -/
def State.atShedBarrier (s : State) (ctr : W32) : Bool :=
  match s.gang s.tile.id.part s.tile.id.gid with
  | some g => g.shedWait && decide (g.barrier ≠ 0 ∧ g.barrier = ctr)
  | none => false

/-- The stop of the current tile's gang begins at its barrier boundary, and the tile stops before its CWAIT (R361). -/
def State.shedHere (s : State) : State :=
  let s := s.shedStop s.tile.id.part s.tile.id.gid
  (if s.tile.pl.stopped then s else s.stopHere).stall 15

/-! ## Errors -/

/-- The error register of a site (R389). -/
def State.siteErr (s : State) (site : Nat) : SiteErr := tget SiteErr.fresh s.svc.errs site

/-- Changes the error register of a site. -/
def State.updErr (s : State) (site : Nat) (f : SiteErr → SiteErr) : State :=
  { s with svc := { s.svc with errs := tset s.svc.errs site (f (s.siteErr site)) } }

/-- Firmware declares a site failed (R390), and repair begins with its stop (R391): the gangs that have a context on the site,
or every gang where the router goes too (cause 4). A site that has failed can still lose its router. -/
def State.siteFail (s : State) (site cause : Nat) : State :=
  if s.siteFailed site ∧ (cause ≠ 4 ∨ (s.router site).failed) then s
  else
    let hit (g : Gang) : Bool :=
      decide (cause = 4) || (s.tilesOf g.part g.gid).any fun t => decide (t.pl.res ≠ .absent ∧ t.pl.phys = site)
    let gs := (s.gangs.filter hit).map fun g => (g.part, g.gid)
    let others (l : List (Nat × Nat)) : List (Nat × Nat) := l.filter fun f => decide (f.1 ≠ site)
    let s := { s with svc := { s.svc with failed := others s.svc.failed ++ [(site, cause)]
                                          repair := { s.svc.repair with step := .stop, sites := others s.svc.repair.sites ++ [(site, cause)] } } }
    let s := if cause = 4 then s.updRouter site fun r => { r with failed := true } else s
    gs.foldl (fun s g => s.gangStop g.1 g.2 fun x => { x with byRepair := true }) s

/-- An uncorrectable error in a tile array of a site: TUNC, and the sixteenth within 3,600 s of TIME fails the site (R389,
R390). -/
def State.countUnc (s : State) (site : Nat) : State :=
  let now := s.timeAt site
  let e := s.siteErr site
  let times := now :: e.times.filter fun x => decide (now < x + 3600 * 10 ^ 9)
  let s := s.updErr site fun e => { e with unc := min 255 (e.unc + 1), times := times.take 16 }
  if times.length ≥ 16 then s.siteFail site 3 else s

/-- An uncorrectable error in an array of the current tile: event 57 and TUNC (R386, R389). -/
def State.tileUnc (s : State) : State := (s.upd fun t => t.event 57 1).countUnc s.tile.pl.phys

/-- Counts an uncorrectable error of a tile array if the condition holds. -/
def State.tileUncIf (s : State) (b : Bool) : State := if b then s.tileUnc else s

/-- An uncorrectable error of a sync engine or an HBM stack: ATTUNC at the router of its site (R389). -/
def State.attUnc (s : State) (site : Nat) : State := s.updErr site fun e => { e with attUnc := min 255 (e.attUnc + 1) }

/-- A read of HBM words meets the uncorrectable ones among them (R385, R389). -/
def State.meetHbm (s : State) (ws : List Nat) : State :=
  (ws.filter s.mem.bad.contains).foldl (fun s w => s.attUnc (stackOf (8 * w))) s

/-- Walks for some addresses of an ASID meet what errors the tables hold (R385): each word that they read counts once. -/
def State.walkMeets (s : State) (a : Nat) (vas : List Nat) : State :=
  match s.asid a with
  | some e => s.meetHbm ((vas.flatMap fun va => walkWords s.mem va e.root levels).eraseDups)
  | none => s

/-! ## Issue -/

/-- The NI asks the field's translation unit for the translations that an access waits for (R284, R340). -/
def Tile.noteMiss (t : Tile) (l : List Nat) : Tile :=
  { t with ni := { t.ni with misses := t.ni.misses ++ l.filter fun a => !t.ni.misses.contains a } }

/-- Tries to issue an instruction (R237, R253): it waits for what it needs; then its conditions are checked, and it waits,
traps, or has its effect. An uncorrectable error that traps at issue is counted (R386). An instruction that traps has been fetched
(R108). -/
def issue (n : Need) (body : State → Except Stop State) (s : State) : Out :=
  match s.tile.lacks n with
  | [] =>
    match body s with
    | .ok s' => .next s'
    | .error (.wait ev) => .next (s.stall ev)
    | .error (.miss ev l) => .next ((s.upd fun t => t.noteMiss l).stall ev)
    | .error (.trap i) => .next (((s.trapHere i).upd Tile.fetchPassed).tileUncIf (i.cause = 0x0B))
  | l =>
    match body s with
    | .error (.wait ev) | .error (.miss ev _) => .next (s.stall (firstStall (ev :: l)))
    | _ => .next (s.stall (firstStall l))

/-! ## Tile faults -/

/-- Parking for an absent tile that is not finished raises a tile fault (R326). -/
def State.tileFault (s : State) (id : TileId) : State :=
  s.withTile id fun s => s.upd fun t =>
    if t.pl.finished ∨ t.pl.res = .resident ∨ t.pl.res = .swappingIn then t else { t with pl := { t.pl with faulted := true } }

end Sys2Proof.Machine
end

