-- ==== Sys2Proof/Machine/Shingle.lean ====
section
/-! DEFINITION. The checks of a shingle that an instruction names (R166, R393), the holds, and the shingle instructions SHDEF,
SHFREE, SHRDY, SHSTAT and SHSET (R183 to R186). -/

namespace Sys2Proof.Machine

/-- What a named shingle is to an instruction (R166): read by the engine, MACC2S or CPT; exchanged by MSWAP; filled by CPIN;
drained by CPOUT; freed; made READY. -/
inductive ShRole where
  | read | swap | fill | drain | free | ready
deriving DecidableEq, Repr, Inhabited

/-- Whether an EMPTY shingle admits the role (R166). -/
def ShRole.emptyOk : ShRole → Bool
  | .fill | .free | .ready => true
  | .read | .swap | .drain => false

/-- Whether the role waits while the shingle is held (R166). -/
def ShRole.holdWaits : ShRole → Bool
  | .fill | .swap | .drain | .free => true
  | .read | .ready => false

/-- Whether an operation holds a shingle (R166): an outstanding MX operation that reads or writes it, or an outstanding CPT that
has not yet read every byte of it. -/
def Tile.holds (t : Tile) (n : Fin 64) : Bool :=
  t.ops.mx.any (fun o => decide (o.sh = some n)) ||
  t.ops.copies.any (fun c => decide (c.kind = .cpt ∧ c.sh = n) && !c.released)

/-- The traps of a named shingle (R166): undefined, or EMPTY where the role does not admit it. -/
def Tile.namedTraps (t : Tile) (n : Fin 64) (role : ShRole) (aclass : Nat) : Except Stop Shingle :=
  match t.sh n with
  | none => .error (.cause 0x09 (shingleTval 0 true 0 n.val) aclass)
  | some x =>
    if x.st = .empty ∧ !role.emptyOk then .error (.cause 0x09 (shingleTval 0 false 0 n.val) aclass) else .ok x

/-- The waits of a named shingle (R166): its state, then a hold. -/
def Tile.namedWaits (t : Tile) (n : Fin 64) (x : Shingle) (role : ShRole) : Except Stop Unit := do
  failIf (decide (x.st = .filling ∨ x.st = .draining)) (.wait 10)
  failIf (role.holdWaits && t.holds n) (.wait 11)

/-- The trap of an extent that passes the end of a shingle (R170, R189). -/
def extentTrap (n : Fin 64) (x : Shingle) (bytes aclass : Nat) : Except Stop Unit :=
  failIf (decide (bytes > x.len * 64)) (.cause 0x09 (shingleTval (x.base + x.len * 64) false x.st.code n.val) aclass)

/-- A shingle becomes FILLING (R27): the watermark is 0, and the fill's counter is recorded. -/
def Tile.startFill (t : Tile) (n : Fin 64) (ctr : W32) : Tile :=
  t.setSh n ((t.sh n).map fun x => { x with st := .filling, wmark := 0, fctr := ctr })

/-- Whether a range of the scratchpad overlaps a defined shingle other than n (R26). -/
def Tile.overlapsOther (t : Tile) (n : Fin 64) (base bytes : Nat) : Bool :=
  t.shingleList.any fun p => decide (p.1 ≠ n) && meets base bytes p.2.base (p.2.len * 64)

/-- Whether base and length satisfy R26 for shingle n. -/
def Tile.geometryOk (t : Tile) (n : Fin 64) (base len : Nat) : Bool :=
  decide (base % 64 = 0 ∧ 1 ≤ len ∧ len ≤ 8192 ∧ base + len * 64 ≤ 0x80000 ∧ t.regs.shbase.toNat ≤ base) &&
    !t.overlapsOther n base (len * 64)

/-- SHDEF (R183): PERM where the geometry breaks R26, SHINGLE where the shingle is defined. -/
def execShdef (a b : GReg) (s : State) : Out :=
  issue { regs := [.g a, .g b], reads := [.g a, .g b] } (fun s => do
    let t := s.tile
    let n := refSh (t.g a)
    let base := bitsOf (t.g b).toNat 18 0
    let len := bitsOf (t.g b).toNat 32 19
    failIf (!t.geometryOk n base len) (.cause 0x07 (w64 base))
    match t.sh n with
    | some x => .error (.cause 0x09 (shingleTval 0 false x.st.code n.val))
    | none => .ok (s.upd fun t => (t.issued [.g a, .g b]).setSh n (some ⟨.empty, 0, len, base, 0, 0⟩))) s

/-- SHFREE (R184): the entry becomes undefined. -/
def execShfree (a : GReg) (s : State) : Out :=
  issue { regs := [.g a], reads := [.g a] } (fun s => do
    let t := s.tile
    let n := refSh (t.g a)
    let x ← t.namedTraps n .free 0
    t.namedWaits n x .free
    .ok (s.upd fun t => (t.issued [.g a]).setSh n none)) s

/-- SHRDY (R184): an EMPTY shingle becomes READY with the watermark at its end; a READY one stays as it is. -/
def execShrdy (a : GReg) (s : State) : Out :=
  issue { regs := [.g a], reads := [.g a] } (fun s => do
    let t := s.tile
    let n := refSh (t.g a)
    let x ← t.namedTraps n .ready 0
    t.namedWaits n x .ready
    .ok (s.upd fun t =>
      let t := t.issued [.g a]
      if x.st = .empty then t.setSh n (some { x with st := .ready, wmark := x.len * 64 }) else t)) s

/-- SHSTAT (R185): word 0 or word 1 of the entry, with latency 2 (R241). -/
def execShstat (d a : GReg) (word1 : Bool) (s : State) : Out :=
  issue { regs := [.g d, .g a], reads := [.g a] } (fun s =>
    .ok (s.upd fun t =>
      let n := refSh (t.g a)
      (t.result 2 (.g d (if word1 then t.shWord1 n else t.shWord0 n))).issued [.g a])) s

/-- The state of a code (R25). -/
def ShState.ofCode (c : Nat) : ShState := if c = 0 then .empty else if c = 1 then .filling else if c = 2 then .ready else .draining

/-- SHSET (R186): PRIV at U; it waits while the shingle is held. -/
def execShset (a b : GReg) (n : Fin 64) (s : State) : Out :=
  issue { regs := [.g a, .g b], reads := [.g a, .g b] } (fun s => do
    let t := s.tile
    failIf (t.holds n) (.wait 22)
    failIf (!t.ex.prv) (.cause 0x03 (instrWord (.shset a b n)))
    let w := (t.g a).toNat
    let base := bitsOf w 18 0
    let len := bitsOf w 32 19
    let mark := bitsOf w 58 39
    if (t.g a).msb then do
      failIf (!t.geometryOk n base len || decide (mark > len * 64)) (.cause 0x07 (w64 base))
      .ok (s.upd fun t => (t.issued [.g a, .g b]).setSh n
        (some ⟨ShState.ofCode (bitsOf w 60 59), mark, len, base, (t.g b).truncate 32, (t.g b >>> 32).truncate 32⟩))
    else .ok (s.upd fun t => (t.issued [.g a, .g b]).setSh n none)) s

end Sys2Proof.Machine
end

