-- ==== Sys2Proof/Machine/Sync.lean ====
section
/-! DEFINITION. Shared operations of the sync engines: counters with saturation and release (R210, R211, R216), the tables and
deny bits (R218, R346), credits of copies (R188), and the arithmetic of atomics and reductions (R221, R223). -/

namespace Sys2Proof.Machine

/-! ## Counters -/

/-- A counter at its first operation (R210). -/
def Counter.fresh (asid : Nat) (id : W32) : Counter := ⟨asid, id, 0, 0, false, false, []⟩

/-- The counter of an ASID, none before its first operation. -/
def State.counter (s : State) (asid : Nat) (id : W32) : Option Counter :=
  s.sync.ctrs.find? fun c => decide (c.asid = asid ∧ c.id = id)

/-- The counter as an operation sees it: a system counter reads the throttle event count or zero (R210, R219). -/
def State.counterView (s : State) (asid : Nat) (id : W32) : Counter :=
  let c := (s.counter asid id).getD (Counter.fresh asid id)
  if id = 0xFFFFFFFF then { c with value := (s.part (s.asidPart asid)).throttle, sat := (s.part (s.asidPart asid)).throttleSat } else c

/-- Adds to VALUE (R211): it saturates at 2^64 − 1 and then sets SAT. -/
def Counter.addValue (c : Counter) (n : Nat) : Counter :=
  if c.value.toNat + n < 2 ^ 64 then { c with value := BitVec.ofNat 64 (c.value.toNat + n) }
  else { c with value := BitVec.allOnes 64, sat := true }

/-- Adds to PEND (R211): it saturates at −2^31 and 2^31 − 1 and then sets PSAT. -/
def Counter.addPend (c : Counter) (d : Int) : Counter :=
  let x := c.pend.toInt + d
  if x > 2 ^ 31 - 1 then { c with pend := BitVec.ofInt 32 (2 ^ 31 - 1), psat := true }
  else if x < -2 ^ 31 then { c with pend := BitVec.ofInt 32 (-2 ^ 31), psat := true }
  else { c with pend := BitVec.ofInt 32 x }

/-- CSET (R214). -/
def Counter.setTo (c : Counter) (x : Word) : Counter := { c with value := x, pend := 0, sat := false, psat := false }

/-! ## Operations on a counter -/

/-- Applies an operation to a counter, which comes into being with it, releases its waiters, and looks at the tables (R210,
R211, R218). -/
def State.ctrRaw (s : State) (asid : Nat) (id : W32) (f : Counter → Counter) : State :=
  let c := f ((s.counter asid id).getD (Counter.fresh asid id))
  let ctrs := match s.counter asid id with
    | some _ => s.sync.ctrs.map fun x => if x.asid = asid ∧ x.id = id then c else x
    | none => s.sync.ctrs ++ [c]
  let s := { s with sync := { s.sync with ctrs := ctrs } }
  let v := s.counterView asid id
  let s := s.releaseWaiters asid id v.value v.pend v.psat
  s.denySteps (s.asidPart asid) (s.ctrEngine asid id)

/-- Changes the entry of an ASID. -/
def State.updAsid (s : State) (a : Nat) (f : AsidEntry → AsidEntry) : State :=
  { s with mem := { s.mem with asids := s.mem.asids.map fun e => if e.asid = a then f e else e } }

/-- The bytes that a write of enabled bytes at a physical address writes, with their addresses. -/
def enabledBytes (pa : Nat) (data : List (Option Byte)) : List (Nat × Byte) :=
  ((upFrom pa data.length).zip data).filterMap fun w => w.2.map fun b => (w.1, b)

/-- Whether a write covers a whole 8-byte word. -/
def wholeWord (ws : List (Nat × Byte)) (w : Nat) : Bool := (upFrom (8 * w) 8).all fun a => ws.any fun x => decide (x.1 = a)

/-- The 8-byte words that a write touches only in part and that are uncorrectable (R387). -/
def State.badPartial (s : State) (pa : Nat) (data : List (Option Byte)) : List Nat :=
  let ws := enabledBytes pa data
  ((ws.map fun x => x.1 / 8).eraseDups).filter fun w => s.mem.bad.contains w && !wholeWord ws w

/-- Writes the enabled bytes in HBM but for the words given; words written whole are correct again (R387). -/
def State.writeHbm (s : State) (pa : Nat) (data : List (Option Byte)) (skip : List Nat) : State :=
  let ws := enabledBytes pa data
  { s with mem := { s.mem with
    hbm := ws.foldl (fun m w => if skip.contains (w.1 / 8) then m else Memory.setByte m w.1 w.2) s.mem.hbm
    bad := s.mem.bad.filter fun w => !wholeWord ws w } }

/-- Writes bytes at a virtual address of an ASID as firmware or an engine does, where a page is mapped there. A word that it writes whole is
correct again, and an uncorrectable one that it writes in part it leaves as it is, as R387 says of other writes (log 71, DESIGN CHOICE).
Nothing reaches a stack that has left the device (R390). -/
def State.fwWrite (s : State) (a va : Nat) (data : List Byte) : State :=
  let t := s.walkMeets a [va]
  match s.walk a va with
  | some e =>
    let pa := e.pa + (va - e.va)
    let skip := s.badPartial pa (data.map some)
    if s.stackGone pa then t else (t.meetHbm skip).writeHbm pa (data.map some) skip
  | none => t

/-- The record of a fault ring slot (R343). -/
def faultRecord (kind gid cause ty va x vt n : Nat) : List Byte :=
  toBytes kind 4 ++ toBytes gid 2 ++ toBytes cause 1 ++ toBytes ty 1 ++ toBytes va 8 ++ toBytes x 8 ++ toBytes vt 4 ++
  toBytes 0 4 ++ toBytes n 8 ++ toBytes 0 24

/-- Whether the fault ring slot of an index is still taken by an open fault (R343). -/
def State.slotTaken (s : State) (asid n : Nat) : Bool :=
  s.sync.faults.any fun f => decide (f.asid = asid ∧ f.index + 1024 = n)

/-- The next fault index of an ASID, and the state after it. -/
def State.faultIndex (s : State) (a : Nat) : Nat × State :=
  (((s.asid a).map (·.nextFault)).getD 0, s.updAsid a fun e => { e with nextFault := e.nextFault + 1 })

/-- The name of an uncorrectable counter in Sync.bad; a line word is named by its address over 8 (log 22, DESIGN CHOICE). -/
def ctrKey (asid : Nat) (id : W32) : Nat := 2 ^ 44 + asid * 2 ^ 32 + id.toNat

/-- A sync engine finds an uncorrectable word in what it operates on (R389): it counts it, and the error is gone. -/
def State.engineMeet (s : State) (key engine : Nat) : State :=
  { s with sync := { s.sync with bad := s.sync.bad.filter (· ≠ key) } }.attUnc (Config.engineSite engine)

/-- An uncorrectable counter (R388): VALUE all ones, PEND 0, SAT and PSAT 1. -/
def Counter.lost (c : Counter) : Counter := { c with value := BitVec.allOnes 64, pend := 0, sat := true, psat := true }

/-- A record is written to the fault ring of an ASID, and FLTCTR gains 1 (R343). -/
def State.putRecord (s : State) (a n : Nat) (bytes : List Byte) : State :=
  match s.asid a with
  | none => s
  | some e => (s.fwWrite a (e.svc + 0x20000 + 64 * (n % 1024)) bytes).ctrRaw a e.fltctr fun c => c.addValue 1

/-- A record is written to the fault ring of an ASID (R343). An engine that finds FLTCTR uncorrectable records that too (R388); the record
waits where its slot is taken. -/
def State.postFault (s : State) (a n : Nat) (bytes : List Byte) : State :=
  match s.asid a with
  | none => s
  | some e =>
    let key := ctrKey a e.fltctr
    if s.sync.bad.contains key then
      let s := (s.engineMeet key (s.ctrEngine a e.fltctr)).ctrRaw a e.fltctr Counter.lost
      let (m, s) := s.faultIndex a
      let lost := faultRecord 2 0 0 0 e.fltctr.toNat 0 0 m
      let s := if s.slotTaken a m then { s with sync := { s.sync with waiting := s.sync.waiting ++ [⟨a, m, lost⟩] } } else s.putRecord a m lost
      s.putRecord a n bytes
    else s.putRecord a n bytes

/-- A record goes to the fault ring of an ASID, or waits in the engine's log for its slot (R343). -/
def State.ringRecord (s : State) (a n : Nat) (bytes : List Byte) : State :=
  if s.slotTaken a n then { s with sync := { s.sync with waiting := s.sync.waiting ++ [⟨a, n, bytes⟩] } } else s.postFault a n bytes

/-- Writes the waiting records whose slots are free (R343). -/
def State.flushRecords (s : State) : State :=
  let l := s.sync.waiting
  l.foldl (fun s r => s.ringRecord r.asid r.index r.bytes) { s with sync := { s.sync with waiting := [] } }

/-- A sync engine meets an uncorrectable error (R343, R388, R389): it counts it, records it with KIND 2 and the GID of the gang whose
operation met it, and the error is gone. -/
def State.engineError (s : State) (asid gid key engine va : Nat) : State :=
  let (n, s) := (s.engineMeet key engine).faultIndex asid
  s.ringRecord asid n (faultRecord 2 gid 0 0 va 0 0 n)

/-- An engine looks at a counter for a gang, 0 for none (log 22, DESIGN CHOICE): an uncorrectable one is lost (R388). -/
def State.ctrMeet (s : State) (asid : Nat) (id : W32) (gid : Nat) : State :=
  if s.sync.bad.contains (ctrKey asid id) then
    (s.engineError asid gid (ctrKey asid id) (s.ctrEngine asid id) id.toNat).ctrRaw asid id Counter.lost
  else s

/-- Applies an operation of a gang, 0 for none, to a counter (R211), after the engine has met what errors it holds (R388). -/
def State.ctrBy (s : State) (asid : Nat) (id : W32) (gid : Nat) (f : Counter → Counter) : State := (s.ctrMeet asid id gid).ctrRaw asid id f

/-- Applies an operation of the current tile to a counter (R211). -/
def State.ctrApply (s : State) (asid : Nat) (id : W32) (f : Counter → Counter) : State := s.ctrBy asid id s.tile.id.gid f

/-- A named counter gains 1 in VALUE, for a gang or, as firmware signals, for none; counter 0 names none (R163), and a system counter never
advances (R210), 0xFFFF_FFFF neither: what names it here gains nothing (log 76, DESIGN CHOICE). -/
def State.ctrSignal (s : State) (asid : Nat) (id : W32) (gid : Nat := 0) : State :=
  if id = 0 ∨ sysCtr id then s else s.ctrBy asid id gid fun c => c.addValue 1

/-- A credit of a copy leaves the current tile's site for a counter's engine; counter 0 takes none (R163, R188). -/
def State.credit (s : State) (asid : Nat) (id : W32) (value : Nat) (pend : Int) : State :=
  if id = 0 then s
  else
    let n := s.fab.serial
    let s := s.packet false s.tile.pl.phys (some (Config.engineSite (s.ctrEngine asid id)))
    { s with sync := { s.sync with credits := s.sync.credits ++ [⟨n, asid, s.tile.id.gid, id, value, pend⟩] } }

/-- The THROTTLE check of table 0 and the PERM of a system counter, for an instruction that may name none (R210, R219). -/
def State.checkCtr (s : State) (id : W32) (aclass : Nat) : Except Stop Unit :=
  if id = 0 then .ok () else do
    s.throttle 0 id aclass
    failIf (sysCtr id) (.cause 0x07 (id.zeroExtend 64) aclass)

/-! ## Arithmetic at the engines -/

/-- The lesser or the greater of two numbers of n bytes, signed or natural. -/
def pickNum (max signed : Bool) (n x y : Nat) : Nat :=
  let v (z : Nat) : Int := if signed && decide (z ≥ 2 ^ (8 * n - 1)) then (z : Int) - 2 ^ (8 * n) else z
  if decide (v x ≤ v y) != max then x else y

/-- The new bytes of an atomic on n bytes (R221). -/
def atomicNew (op : AtomicOp) (nat : Bool) (n old x y : Nat) : Nat :=
  match op with
  | .axchg => x
  | .acas => if old = x then y else old
  | .aadd => (old + x) % 2 ^ (8 * n)
  | .amin => pickNum false (!nat) n old x
  | .amax => pickNum true (!nat) n old x

/-- The bytes of a reduction type (R223). -/
def redSize : RedTy → Nat
  | .f32 | .s32 | .n32 => 4
  | .s64 | .n64 => 8

/-- Whether a reduction type is signed. -/
def redSigned : RedTy → Bool
  | .s32 | .s64 => true
  | .f32 | .n32 | .n64 => false

/-- The code of a reduction type (R223). -/
def redCode : RedTy → Nat
  | .f32 => 0 | .s32 => 1 | .n32 => 2 | .s64 => 3 | .n64 => 4

/-- VMIN.F and VMAX.F of two FP32 words as a reduction takes them (R134, R223). -/
def fpPick (max : Bool) (x y : Nat) : Nat :=
  if (fp32.decode x).isNan || (fp32.decode y).isNan then fp32.nanBits
  else
    let key (z : Nat) : Int := if z ≥ 2 ^ 31 then -((z : Int) - 2 ^ 31) - 1 else z
    if decide (key x ≤ key y) != max then x else y

/-- The new value of a reduced element (R223). -/
def reduceNew (op : RedOp) (ty : RedTy) (old x : Nat) : Nat :=
  match op, ty with
  | .radd, .f32 => (fp32.add .rne (fp32.decode old) (fp32.decode x)).bits
  | .rmin, .f32 => fpPick false old x
  | .rmax, .f32 => fpPick true old x
  | .radd, t => (old + x) % 2 ^ (8 * redSize t)
  | .rmin, t => pickNum false (redSigned t) (redSize t) old x
  | .rmax, t => pickNum true (redSigned t) (redSize t) old x

/-- A line of a REDUCE page comes into its engine's buffer at the first operation that reaches it (R280). An uncorrectable HBM word is
found at this read (R385) and counted at its stack (R389); it stands uncorrectable in the buffer (R388, log 22, DEDUCED), as does every word
of a stack that has left the device (R390). -/
def State.bringLine (s : State) (asid va pa : Nat) : State :=
  let l := pa / 64 * 64
  if s.sync.lines.any fun x => decide (x.pa = l) then s
  else
    let lost := (upFrom (l / 8) 8).filter fun w => s.mem.bad.contains w || s.stackGone l
    let s := { s with sync := { s.sync with lines := s.sync.lines ++ [Line.mk asid l (va / 64 * 64)]
                                            bad := s.sync.bad ++ lost
                                            lineMem := Memory.write s.sync.lineMem l (Memory.bytes s.mem.hbm l 64) } }
    let s := s.meetHbm lost
    s.denySteps (s.asidPart asid) (s.lineEngine asid pa)

/-- Writes n bytes in the line buffers. -/
def State.setLine (s : State) (pa n x : Nat) : State :=
  { s with sync := { s.sync with lineMem := Memory.setNat s.sync.lineMem pa n x } }

/-- An engine looks at the line word of an address: an uncorrectable one becomes zero (R388). -/
def State.lineMeet (s : State) (asid gid va pa : Nat) : State :=
  if s.sync.bad.contains (pa / 8) then
    (s.engineError asid gid (pa / 8) (s.lineEngine asid pa) va).setLine (pa / 8 * 8) 8 0
  else s

/-- The physical address of a reduction at its application, or the cause of its fault (R228, R339). -/
def State.retranslate (s : State) (h : Hold) : Except Nat Nat :=
  match s.walk h.asid h.va with
  | none => .error 0x06
  | some e =>
    if !permits e.perms h.atS .red then .error 0x07
    else if e.mode ≠ 2 then .error 0x08
    else .ok (e.pa + (h.va - e.va))

/-- What the walk of a reduction's translation at its application meets (R385). -/
def State.redMeet (s : State) (h : Hold) : State := s.walkMeets h.asid [h.va]

/-- A reduction is applied at its translated address (R223). -/
def State.applyAt (s : State) (h : Hold) (pa : Nat) : State :=
  let n := redSize h.ty
  let s := (s.bringLine h.asid h.va pa).lineMeet h.asid h.tile.gid h.va pa
  s.setLine pa n (reduceNew h.op h.ty (Memory.nat s.sync.lineMem pa n) (h.x.toNat % 2 ^ (8 * n)))

end Sys2Proof.Machine
end

