-- ==== Sys2Proof/Machine/Net.lean ====
section
/-! DEFINITION. Shared operations of the fabric and of message delivery: translators and the placement they see (R322, R323),
flits (R296), the holds of the source NI (R198, R305, R308), selection (R264, R202), acceptance, overflow and parking (R30,
R302, R308, R326), and removal of a gang (R275). -/

namespace Sys2Proof.Machine

/-! ## Translators -/

/-- The translators other than tile NIs (R322): eave streamers, sync engines, host ports; a tile NI is its physical tile. -/
def streamerTr (k : Nat) : Nat := 65536 + k
/-- The translator number of the sync engine of a field. -/
def engineTr (f : Nat) : Nat := 65600 + f
/-- The translator number of a host port. -/
def portTr (p : Nat) : Nat := 65660 + p

/-- The physical tile of a context under the placement before a change in progress: none where RES is 0 (R321). -/
def Tile.based (t : Tile) : Option Nat :=
  if t.pl.res = .resident ∨ t.pl.res = .swappingOut then some t.pl.phys else none

/-- The physical tile of a virtual tile in the committed version of a translator, none where RES is 0 (R322, R323). -/
def State.seen (s : State) (id : TileId) (tr : Nat) : Option Nat :=
  let base := match s.findTile id with
    | some t => t.based
    | none => none
  match s.gang id.part id.gid with
  | none => none
  | some gn =>
    match gn.change with
    | none => base
    | some c =>
      if c.committed.contains tr then
        (match c.places.find? fun p => decide (p.1 = id.vt) with
         | some p => p.2
         | none => base)
      else base

/-- The translators of a gang (R322): those that have not failed or left the device (R390). -/
def State.translators (s : State) (part gid : Nat) : List Nat :=
  (((s.tilesOf part gid).filter fun t => decide (t.pl.res ≠ .absent) && !s.siteFailed t.pl.phys).map fun t => t.pl.phys).eraseDups ++
  ((List.range 48).filter fun k => s.routerWorks (Config.stackSite k)).map streamerTr ++
  ((List.range 56).filter fun k => s.routerWorks (Config.engineSite k)).map engineTr ++
  (([0, 1] : List Nat).filter fun k => s.routerWorks (Config.portSite k)).map portTr

/-! ## What the source NI holds -/

/-- Whether every global store, copy, atomic and reduction that a tile issued before a stamp has left its count (R198). -/
def Tile.releasedBefore (t : Tile) (stamp : Nat) : Bool :=
  !(t.ops.stores.any fun o => decide (o.stamp < stamp)) && !(t.ops.copies.any fun o => decide (o.stamp < stamp)) &&
  !(t.ops.loads.any fun o => decide (o.stamp < stamp) && (match o.kind with
      | .atomic _ _ _ _ _ => true
      | .timed _ _ | .global _ | .crd _ _ => false)) &&
  !(t.ops.ms.any fun o => decide (o.stamp < stamp) && (match o.kind with
      | .red _ _ _ _ _ _ _ _ => true
      | .msg | .cadd _ _ | .cexp _ _ | .cset _ _ | .seal _ _ _ | .handover _ _ _ _ _ _ => false))

/-- The single-copy atomic unit of a copy that holds an address of a range of n bytes from va (R294): its first address and its
length. -/
def copyUnit (va n a : Nat) : Nat × Nat :=
  let l := a / 64 * 64
  let w := a / 8 * 8
  if va ≤ l ∧ l + 64 ≤ va + n then (l, 64) else if va ≤ w ∧ w + 8 ≤ va + n then (w, 8) else (a, 1)

/-- The physical address of a virtual address of a copy's range. -/
def OutCopy.pa (c : OutCopy) (va : Nat) : Nat := tget 0 c.pages (va / 65536) + va % 65536

/-- Whether an address of a copy's range belongs to a unit that has not been performed. -/
def OutCopy.unitLeft (c : OutCopy) (a : Nat) : Bool :=
  decide (c.va ≤ a ∧ a < c.va + c.len) && !c.units.contains ((copyUnit c.va c.len a).1 - c.va)

/-- Whether a copy has an unperformed unit in the 64-byte line of a physical address. -/
def OutCopy.pendingLine (c : OutCopy) (pa : Nat) : Bool :=
  c.pages.any fun p => decide (p.2 ≤ pa ∧ pa < p.2 + 65536) &&
    (upFrom (p.1 * 65536 + (pa - p.2) / 64 * 64) 64).any c.unitLeft

/-- Whether a copy only reads global memory. -/
def OutCopy.reads (c : OutCopy) : Bool := match c.kind with
  | .cpin | .cpdeal _ => true
  | .cpout | .cpt => false

/-- The units of a copy's range, as offsets (R294). -/
def OutCopy.starts (c : OutCopy) : List Nat := (upFrom 0 c.len).filter fun k => decide ((copyUnit c.va c.len (c.va + k)).1 = c.va + k)

/-- Whether an earlier access of the tile to the line of a physical address holds a later one back (R305): every pair but two
loads, until the earlier one leaves its count, or the unit of a copy has been performed. -/
def Tile.lineHeld (t : Tile) (stamp pa : Nat) (load : Bool) : Bool :=
  (t.ops.stores.any fun o => decide (o.stamp < stamp) && o.elems.any fun e => decide (e.pa / 64 = pa / 64)) ||
  (!load && t.ops.loads.any fun o => decide (o.stamp < stamp) && (match o.kind with
    | .global _ => o.elems.any fun e => decide (e.pa / 64 = pa / 64)
    | .timed _ _ | .atomic _ _ _ _ _ | .crd _ _ => false)) ||
  (t.ops.copies.any fun c => decide (c.stamp < stamp) && !(load && c.reads) && decide (c.kind ≠ .cpt) && c.pendingLine pa)

/-- Whether an earlier load or copy of the tile has still to read one of n bytes at a physical address (R290): two loads of a common byte
are performed in issue order. -/
def Tile.readsFirst (t : Tile) (stamp pa n : Nat) : Bool :=
  (t.ops.loads.any fun o => decide (o.stamp < stamp) && (match o.kind with
    | .global _ => o.elems.any fun e => e.val.isNone && decide (e.pa < pa + n ∧ pa < e.pa + e.bytes)
    | .timed _ _ | .atomic _ _ _ _ _ | .crd _ _ => false)) ||
  (t.ops.copies.any fun c => decide (c.stamp < stamp) && c.reads && (upFrom pa n).any fun a =>
    c.pages.any fun p => decide (p.2 ≤ a ∧ a < p.2 + 65536) && c.unitLeft (p.1 * 65536 + (a - p.2)))

/-- Whether some bytes of a copy's unit, by its offset, are on their way to one of its recipients. -/
def State.unitTravels (s : State) (stamp off : Nat) : Bool :=
  s.fab.flits.any fun f => match f.ref with
    | .data t st _ k => decide (t = s.tile.id ∧ st = stamp ∧ k = off)
    | .msg _ | .req _ _ | .resp _ _ | .deny _ _ _ _ | .pkt _ | .part _ _ => false

/-- Whether the acknowledgement of some unit of a copy in the line of a physical address is on its way: the bytes of a CPIN or a CPDEAL, or
an answer to a CPOUT. -/
def State.unitAnswering (s : State) (c : OutCopy) (pa : Nat) : Bool :=
  c.pages.any fun p => decide (p.2 ≤ pa ∧ pa < p.2 + 65536) &&
    (upFrom (p.1 * 65536 + (pa - p.2) / 64 * 64) 64).any fun a => decide (c.va ≤ a ∧ a < c.va + c.len) && (match c.kind with
      | .cpout => s.answering c.stamp
      | .cpin | .cpdeal _ => s.unitTravels c.stamp ((copyUnit c.va c.len a).1 - c.va)
      | .cpt => false)

/-- Whether an earlier access of the current tile to the line of a physical address is unacknowledged and holds a later one back (R305). -/
def State.lineHeld (s : State) (stamp pa : Nat) (load : Bool) : Bool :=
  s.tile.lineHeld stamp pa load ||
  s.tile.ops.copies.any fun c => decide (c.stamp < stamp) && !(load && c.reads) && s.unitAnswering c pa

/-- Whether the NI holds the request of an operation of the current tile to a site (R198, R305). -/
def State.reqHeld (s : State) (stamp site : Nat) : Bool :=
  let t := s.tile
  (t.ops.loads.any fun o => decide (o.stamp = stamp) && (match o.kind with
    | .global _ => o.elems.any fun e => decide (stackOf e.pa = site) && s.lineHeld stamp e.pa true
    | .timed _ _ | .atomic _ _ _ _ _ | .crd _ _ => false)) ||
  (t.ops.stores.any fun o => decide (o.stamp = stamp) && o.elems.any fun e =>
    decide (stackOf e.pa = site) && s.lineHeld stamp e.pa false) ||
  (t.ops.copies.any fun c => decide (c.stamp = stamp) && c.starts.any fun k =>
    decide (stackOf (c.pa (c.va + k)) = site) && s.lineHeld stamp (c.pa (c.va + k)) c.reads) ||
  (t.ops.ms.any fun o => decide (o.stamp = stamp) && o.rel && !t.releasedBefore stamp)

/-- The packets of an operation of the current tile for a site leave: its request, or the bytes of a CPOUT, one flit for each unit (R294,
R296). -/
def State.sendReq (s : State) (stamp site : Nat) : State :=
  match s.tile.ops.copies.find? fun c => decide (c.stamp = stamp ∧ c.kind = .cpout) with
  | some c => (c.starts.filter fun k => decide (stackOf (c.pa (c.va + k)) = site)).foldl
      (fun s k => s.inject (.data s.tile.id stamp 0 k) false s.tile.pl.phys site) s
  | none => s.inject (.req s.tile.id stamp) false s.tile.pl.phys site

/-- The current tile's NI sends the requests of an operation, each to a site, and keeps those that it holds. -/
def State.injectReqs (s : State) (stamp : Nat) (sites : List Nat) : State :=
  sites.foldl (fun s d =>
    if s.reqHeld stamp d then s.upd fun t => { t with ops := { t.ops with kept := t.ops.kept ++ [(stamp, d)] } }
    else s.sendReq stamp d) s

/-- The current tile's NI asks for the lines of an access to global memory, one packet for each line (R296). -/
def State.injectLines (s : State) (stamp : Nat) (pas : List Nat) : State :=
  s.injectReqs stamp (((pas.map (· / 64)).eraseDups).map fun l => stackOf (64 * l))

/-- The current tile's NI sends the requests that it need hold no longer. -/
def State.sendKept (s : State) : State :=
  let l := s.tile.ops.kept
  let s := s.upd fun t => { t with ops := { t.ops with kept := [] } }
  l.foldl (fun s k => s.injectReqs k.1 [k.2]) s

/-- Whether the request of an operation of the current tile has still to reach some site. -/
def State.reqComing (s : State) (stamp : Nat) : Bool :=
  s.travelling (.req s.tile.id stamp) || s.tile.ops.kept.any fun k => decide (k.1 = stamp)
/-- Whether the request of an operation of the current tile has still to reach a given site. -/
def State.reqComingTo (s : State) (stamp site : Nat) : Bool :=
  s.travellingTo (.req s.tile.id stamp) site || s.tile.ops.kept.contains (stamp, site)

/-- Whether a tile has a HANDOVER issued before a stamp that has not been performed (R232). -/
def Tile.handingBefore (t : Tile) (stamp : Nat) : Bool :=
  t.ops.ms.any fun o => decide (o.stamp < stamp) && !o.done && (match o.kind with
    | .handover _ _ _ _ _ _ => true
    | .msg | .cadd _ _ | .cexp _ _ | .cset _ _ | .red _ _ _ _ _ _ _ _ | .seal _ _ _ => false)

/-- Whether two messages have one source (R307): a virtual tile, or a port and a function. -/
def Msg.sameSource (a b : Msg) : Bool := decide ((a.kind = .host) = (b.kind = .host) ∧ a.src = b.src)

/-- Whether two messages share their gang, source, destination and channel. -/
def Msg.samePair (a b : Msg) : Bool :=
  decide (a.part = b.part ∧ a.gid = b.gid ∧ a.dst = b.dst ∧ a.chan = b.chan) && a.sameSource b

/-- The messages of a pair that have not been accepted: on their way, or in the destination's reorder window (R308). -/
def State.unaccepted (s : State) (m : Msg) : List Msg :=
  (s.fab.flight ++ (match s.findTile ⟨m.part, m.gid, m.dst⟩ with
    | some t => t.inb.window
    | none => [])).filter fun x => x.samePair m

/-- Whether a message is held at its source (R198, R232, R305, R308). -/
def State.msgHeld (s : State) (m : Msg) : Bool :=
  let old := (s.unaccepted m).foldl (fun (b : Msg) x => if x.serial < b.serial then x else b) m
  decide ((m.seqno - old.seqno).toNat ≥ 64) ||
  s.fab.flight.any (fun x => x.samePair m && !x.sent && decide (x.serial < m.serial)) ||
  (match m.origin with
   | .op vt st =>
     match s.findTile ⟨m.part, m.gid, vt⟩ with
     | some t => t.handingBefore st || (t.ops.ms.any (fun o => decide (o.stamp = st) && o.rel) && !t.releasedBefore st)
     | none => false
   | .ni _ | .port _ => false)

/-- The site and the translator of a message's source. -/
def State.msgSite (s : State) (m : Msg) : Nat × Nat :=
  match m.origin with
  | .op vt _ | .ni vt =>
    (match s.findTile ⟨m.part, m.gid, vt⟩ with
     | some t => (t.pl.phys, t.pl.phys)
     | none => (0, 0))
  | .port p => (Config.portSite p, portTr p)

/-- A message leaves its source: it is translated (R322) and becomes a flit, unless its destination is absent. -/
def State.sendNow (s : State) (m : Msg) : State :=
  let (site, tr) := s.msgSite m
  let phys := s.seen ⟨m.part, m.gid, m.dst⟩ tr
  let s := { s with fab := { s.fab with flight := s.fab.flight.map fun x =>
    if x.serial = m.serial then { x with sent := true, phys := phys } else x } }
  match phys with
  | some p => s.inject (.msg m.serial) true site p
  | none => s

/-- Sends the messages that a predicate names and that nothing holds, oldest first. -/
def State.sendReady (s : State) (p : Msg → Bool) : State :=
  (s.fab.flight.filter fun m => !m.sent && p m).foldl (fun s m => if s.msgHeld m then s else s.sendNow m) s

/-- Whether a message comes from the current tile. -/
def Tile.isSource (t : Tile) (m : Msg) : Bool :=
  decide (m.part = t.id.part ∧ m.gid = t.id.gid) && (match m.origin with
    | .op vt _ | .ni vt => decide (vt = t.id.vt)
    | .port _ => false)

/-- Gives a message to its source, and sends what is not held. -/
def State.post (s : State) (m : Msg) : State :=
  let m := { m with serial := s.fab.serial }
  let s := { s with fab := { s.fab with serial := s.fab.serial + 1, flight := s.fab.flight ++ [m] } }
  s.sendReady (fun x => x.samePair m)

/-- The next number of the current tile for a destination and channel (R307), and the state after it. -/
def Tile.number (t : Tile) (dst : Nat) (c : Fin 64) : BitVec 16 × Tile :=
  match t.inb.outSeqs.find? fun o => decide (o.dst = dst ∧ o.chan = c) with
  | some o => (o.next, { t with inb := { t.inb with outSeqs := t.inb.outSeqs.map fun x =>
      if x.dst = dst ∧ x.chan = c then { x with next := x.next + 1 } else x } })
  | none => (0, { t with inb := { t.inb with outSeqs := t.inb.outSeqs ++ [⟨dst, c, 1⟩] } })

/-- The current tile, or its NI, sends a message to a virtual tile of its gang (R200, R202, R307). -/
def State.sendFrom (s : State) (origin : Origin) (dst : Nat) (c : Fin 64) (kind : MsgKind) (rfs : Bool) (payload : List Byte) :
    State :=
  let (q, t) := s.tile.number dst c
  { s with tile := t }.post
    { serial := 0, part := t.id.part, gid := t.id.gid, origin := origin, dst := dst, chan := c, kind := kind, rfs := rfs
      seqno := q, src := BitVec.ofNat 24 t.id.vt, payload := payload, sent := false, phys := none, parked := false }

/-! ## Selection -/

/-- Whether a channel is READY (R262). -/
def Tile.ready (t : Tile) (c : Fin 64) : Bool :=
  let e := t.inb.chans.get c
  e.bound && !e.mask && decide (t.pend c ≠ 0)

/-- The effective priority of a channel (R264). -/
def Channel.ep (e : Channel) : Fin 8 := if e.age = 4095 then 7 else e.pri

/-- The channel that a selection takes and its effective priority (R264). -/
def Tile.chosen (t : Tile) : Option (Fin 64 × Fin 8) :=
  let cand := (List.finRange 64).filter t.ready
  let ep (c : Fin 64) : Fin 8 := (t.inb.chans.get c).ep
  match cand with
  | [] => none
  | c0 :: _ =>
    let p := cand.foldl (fun m c => if m < ep c then ep c else m) (ep c0)
    let order := (List.finRange 64).map fun k => t.inb.rr.get p + 1 + k
    (order.find? fun c => t.ready c && decide (ep c = p)).map fun c => (c, p)

/-- Changes the table entry of a channel. -/
def Tile.updChan (t : Tile) (c : Fin 64) (f : Channel → Channel) : Tile :=
  { t with inb := { t.inb with chans := t.inb.chans.set c.val (f (t.inb.chans.get c)) c.isLt } }

/-- Frees an inbox slot (R207); AGE becomes 0 when PEND does (R264). -/
def Tile.freeSlot (t : Tile) (x : Slot) : Tile :=
  let t := { t with inb := { t.inb with slots := t.inb.slots.filter fun y => decide (y.slot ≠ x.slot) } }
  if t.pend x.chan = 0 then t.updChan x.chan fun e => { e with age := 0 } else t

/-- The oldest message of a channel in the inbox (R30). -/
def Tile.oldest (t : Tile) (c : Fin 64) : Option Slot := t.inb.slots.find? fun x => decide (x.chan = c)

/-- The bytes of an inbox slot as a number. -/
def Tile.slotNat (t : Tile) (x : Slot) (off n : Nat) : Nat := Memory.nat t.inb.bytes (64 * x.slot.val + off) n

/-- An activation begins (R264): RR, AGE, STATUS, the current message and the PC, with the bubble of R242. -/
def Tile.begin (t : Tile) (afterDone : Bool) (w : Fin 64) (p : Fin 8) (x : Slot) (pc : Nat) : Tile :=
  let aged := decide ((t.inb.chans.get w).age = 4095 ∧ (t.inb.chans.get w).pri < 7)
  let chans := Vector.ofFn fun c =>
    let e := t.inb.chans.get c
    if c = w then { e with age := 0 }
    else if afterDone && t.ready c then { e with age := Nat.min (e.age + 1) 4095 } else e
  let t := (t.event 25 1).eventIf aged 26
  { t with
    inb := { t.inb with chans := chans, rr := t.inb.rr.set p.val w p.isLt }
    ex := { t.ex with inh := true, chan := w, prv := false, curSlot := some x.slot, pc := w64 pc, branch := none,
                      tvecFetch := false }
    iss := t.iss.redirect t.iss.cycle 6
    pl := { t.pl with touched := true } }

/-- The payload of a refusal (R202). -/
def refusalPayload (target : Nat) : List Byte := toBytes target 8 ++ toBytes (2 ^ 64 - 1) 8 ++ toBytes 0 48

/-- Bytes of one 8-byte word of a slot as a selection reads them. Where the word is uncorrectable the error is counted (R385), and what is
taken is a free value (log 82, DESIGN CHOICE). -/
def State.readSlot (s : State) (x : Slot) (off n : Nat) : Nat × State :=
  if s.tile.inb.bad.contains (8 * x.slot.val + off / 8) then (Config.lostPayload s.drawn % 2 ^ (8 * n), s.draw.2.tileUnc)
  else (s.tile.slotNat x off n, s)

/-- A selection (R264), with the calls that R202 refuses: each refusal frees a message and the selector chooses again. The first
argument bounds the refusals; 256 slots hold no more. Event 58 counts them one in a cycle (R252; log 68, DESIGN CHOICE). -/
def State.selectLoop (afterDone : Bool) : Nat → State → State
  | 0, s => s
  | n + 1, s =>
    let t := s.tile
    match t.chosen with
    | none => s
    | some (w, p) =>
      match t.oldest w with
      | none => s
      | some x =>
        if w = 63 ∧ x.kind = .call ∧ !x.rfs then
          let (target, s) := s.readSlot x 0 8
          if t.gang.prog.calls.contains target then s.upd fun t => t.begin afterDone w p x target
          else
            let (reply, s) := s.readSlot x 40 4
            let s := s.upd fun t => { t.freeSlot x with iss := { (t.freeSlot x).iss with refused := t.iss.refused + 1 } }
            State.selectLoop afterDone n
              (s.sendFrom (.ni t.id.vt) (reply % 2 ^ 24) (Fin.ofNat 64 (bitsOf reply 29 24)) .call true (refusalPayload target))
        else s.upd fun t => t.begin afterDone w p x ((t.inb.chans.get w).entry * 4)

/-- Whether a virtual tile may run: resident, not stopped, not finished. -/
def Tile.mayRun (t : Tile) : Bool := decide (t.pl.res = .resident) && !t.pl.stopped && !t.pl.finished

/-- A selection of the current tile, at a DONE or at rest (R264); one that falls into a pause of its clock waits for the end of it (R250). -/
def State.select (s : State) (afterDone : Bool) : State :=
  if s.tile.mayRun && !s.tile.ni.paused && !s.tile.ex.inh then State.selectLoop afterDone 257 s else s

/-! ## Host ports -/

/-- Changes a port. -/
def State.updPort (s : State) (port : Nat) (f : Port → Port) : State :=
  let k : Fin 2 := Fin.ofNat 2 port
  { s with host := { s.host with ports := s.host.ports.set k.val (f (s.host.ports.get k)) k.isLt } }

/-- A posted write that is discarded (R374): MBERR gains 1; aer says that the port reports it under AER. -/
def State.mailError (s : State) (port part : Nat) (aer : Bool) : State :=
  (s.updPart part fun p => { p with mberr := p.mberr + 1 }).updPort port fun p => if aer then { p with aer := p.aer + 1 } else p

/-- The source word of a message from a port (R208). -/
def portSrc (port part : Nat) : BitVec 24 := BitVec.ofNat 24 (part % 64 + port * 256)

/-- The next number of a port for a function, gang, destination and channel (R307). -/
def State.portNumber (s : State) (port part gid dst : Nat) (c : Fin 64) : BitVec 16 :=
  match (s.host.ports.get (Fin.ofNat 2 port)).seqs.find? fun q => decide (q.part = part ∧ q.gid = gid ∧ q.dst = dst ∧ q.chan = c) with
  | some q => q.next
  | none => 0

/-- The message that a port would send next to a destination and channel (R261, R307). -/
def State.portMsg (s : State) (port part gid dst : Nat) (c : Fin 64) (data : List Byte) : Msg :=
  { serial := s.fab.serial, part := part, gid := gid, origin := .port port, dst := dst, chan := c, kind := .host, rfs := false
    seqno := s.portNumber port part gid dst c, src := portSrc port part, payload := data, sent := false, phys := none
    parked := false }

/-- A port sends a message (R258, R261). -/
def State.portSend (s : State) (port part gid dst : Nat) (c : Fin 64) (data : List Byte) : State :=
  let m := s.portMsg port part gid dst c data
  let s := s.updPort port fun p =>
    { p with seqs := (p.seqs.filter fun q => !decide (q.part = part ∧ q.gid = gid ∧ q.dst = dst ∧ q.chan = c)) ++
        [⟨part, gid, dst, c, m.seqno + 1⟩] }
  s.post m

/-! ## Removal of a gang -/

/-- The late messages that a virtual tile holds (R270). -/
def Tile.late (t : Tile) : Nat := if t.pl.finished then t.inb.slots.length + t.inb.overflow.length else 0

/-- The late messages of a gang (R270, R274). -/
def State.lateOf (s : State) (g : Gang) : Nat := (s.tilesOf g.part g.gid).foldl (fun n t => n + t.late) g.lateKept

/-- A completion record (R276). -/
def compRecord (tag gid status dstat late : Nat) : List Byte :=
  toBytes tag 2 ++ toBytes gid 2 ++ toBytes status 4 ++ toBytes dstat 4 ++ toBytes (min late (2 ^ 32 - 1)) 4

/-- A context leaves its physical tile: what it has run in the interval stays with the site, as do its step and its duty until the next
boundary (R349, R350, R353). -/
def State.leaveSite (s : State) (t : Tile) : State :=
  if t.pl.res = .resident ∨ t.pl.res = .swappingOut then
    let step := t.ni.stepNext.getD t.ni.step
    let u : SiteUse := ⟨t.ni.runCycles, t.ni.allCycles, if t.ni.topStep < step then step else t.ni.topStep, s.fab.time, step,
      t.ni.dutyNext.getD t.ni.duty⟩
    { s with power := { s.power with sites := tset s.power.sites t.pl.phys u } }
  else s

/-- The mailbox writes that a port holds for a gang that goes are discarded (R374). -/
def State.dropMail (s : State) (part gid : Nat) : State :=
  let l := (s.part part).held
  let s := s.updPart part fun p => { p with held := l.filter fun w => decide (w.gid ≠ gid) }
  (l.filter fun w => decide (w.gid = gid)).foldl (fun s w => s.mailError w.port part true) s

/-- The words that an outstanding store has still to write are written. -/
def State.finishStore (o : OutStore) (s : State) : State :=
  o.elems.foldl (fun s e =>
    if e.done then s else s.writeHbm e.pa (e.data.map some) (s.badPartial e.pa (e.data.map some))) s

/-- The units that an outstanding CPOUT has still to write are written; bytes of failing source words are left alone (R386). -/
def State.finishCopy (c : OutCopy) (s : State) : State :=
  if c.kind = .cpout then
    (c.starts.filter fun k => !c.units.contains k).foldl (fun s k =>
      let data := (upFrom k (copyUnit c.va c.len (c.va + k)).2).map fun x => if c.bad.contains (x / 8) then none else some (Memory.byte c.buf x)
      s.writeHbm (c.pa (c.va + k)) data (s.badPartial (c.pa (c.va + k)) data)) s
  else s

/-- An outstanding atomic that its engine has not performed is performed. -/
def State.finishAtomic (asid : Nat) (o : OutLoad) (s : State) : State :=
  match o.kind, o.elems with
  | .atomic op x y nat _, [e] =>
    if e.val.isSome then s
    else
      let m := 2 ^ (8 * e.bytes)
      let s := s.bringLine asid e.va e.pa
      s.setLine e.pa e.bytes (atomicNew op nat e.bytes (Memory.nat s.sync.lineMem e.pa e.bytes) (x.toNat % m) (y.toNat % m))
  | _, _ => s

/-- A reduction that has not been applied is applied, if its page still admits it (R228). -/
def State.finishRed (s : State) (h : Hold) : State :=
  match s.retranslate h with
  | .ok pa => (s.redMeet h).applyAt h pa
  | .error _ => s.redMeet h

/-- A reduction that its engine has not accepted is applied. -/
def State.finishMs (asid : Nat) (id : TileId) (o : MsOp) (s : State) : State :=
  match o.kind with
  | .red op ty va pa x atS epoch seq => if o.done then s else s.finishRed ⟨id, asid, epoch, seq, op, ty, va, pa, x, atS, none⟩
  | .msg | .cadd _ _ | .cexp _ _ | .cset _ _ | .seal _ _ _ | .handover _ _ _ _ _ _ => s

/-- The global writes that a virtual tile has issued and that are not performed yet are performed, in issue order (R292; log 59, DESIGN
CHOICE). -/
def State.finishWrites (s : State) (t : Tile) : State :=
  let l : List (Nat × (State → State)) :=
    t.ops.stores.map (fun o => (o.stamp, State.finishStore o)) ++ t.ops.copies.map (fun c => (c.stamp, State.finishCopy c)) ++
    t.ops.loads.map (fun o => (o.stamp, State.finishAtomic t.gang.asid o)) ++
    t.ops.ms.map fun o => (o.stamp, State.finishMs t.gang.asid t.id o)
  (sortList (fun a b => decide (a.1 ≤ b.1)) l).foldl (fun s x => x.2 s) s

/-- The order of held reductions (R225): address, virtual tile number, issue sequence. -/
def Hold.before (a b : Hold) : Bool :=
  decide (a.va < b.va ∨ (a.va = b.va ∧ (a.tile.vt < b.tile.vt ∨ (a.tile.vt = b.tile.vt ∧ a.seq ≤ b.seq))))

/-- Every global write of a gang that is removed is performed before its completion record is queued (R292; log 59, DESIGN CHOICE): those
that its virtual tiles have issued, and the reductions that its engines hold. -/
def State.finishGang (s : State) (part gid : Nat) : State :=
  let s := (s.tilesOf part gid).foldl State.finishWrites s
  (sortList Hold.before (s.sync.holds.filter fun h => decide (h.tile.part = part ∧ h.tile.gid = gid))).foldl State.finishRed s

/-- Forgets everything that a gang holds: contexts, packets, waiters, held reductions, rounds. The counters of a GSTOP or a GRESUME of it
that is pending gain nothing (log 59, DESIGN CHOICE). The engines look at their deny bits (R218), and at records that wait for a slot
(R343). -/
def State.dropGang (s : State) (part gid : Nat) : State :=
  let s := ((s.tilesOf part gid).foldl State.leaveSite s).dropMail part gid
  let mine (id : TileId) : Bool := decide (id.part = part ∧ id.gid = gid)
  let keep := (s.tile :: s.others).filter fun t => !mine t.id
  let (tile, others) : Tile × List Tile :=
    if mine s.tile.id then
      (match keep.find? fun t => decide (t.id = ⟨0, 0, 0⟩) with
       | some t => (t, keep.filter fun o => decide (o.id ≠ ⟨0, 0, 0⟩))
       | none => (Tile.fresh, keep))
    else (s.tile, s.others.filter fun t => !mine t.id)
  let gone (m : Msg) : Bool := decide (m.part = part ∧ m.gid = gid)
  let refGone (r : PacketRef) : Bool := match r with
    | .msg n => s.fab.flight.any fun m => gone m && decide (m.serial = n)
    | .req t _ | .resp t _ | .data t _ _ _ => mine t
    | .deny _ _ _ _ => false
    | .part n _ => s.fab.rowPackets.any fun r => mine r.dst && decide (r.serial = n)
    | .pkt n => s.fab.notices.any (fun r => mine r.dst && decide (r.serial = n)) ||
        s.fab.reports.any (fun r => mine r.dst && decide (r.serial = n))
  let s : State := { s with
    tile := tile, others := others
    gangs := s.gangs.filter fun g => !decide (g.part = part ∧ g.gid = gid)
    fab := { s.fab with
      flight := s.fab.flight.filter fun m => !gone m
      remotes := s.fab.remotes.filter fun r => !mine r.dst
      notices := s.fab.notices.filter fun r => !mine r.dst
      rowPackets := s.fab.rowPackets.filter fun r => !mine r.dst
      reports := s.fab.reports.filter fun r => !mine r.dst
      flits := s.fab.flits.filter fun f => !refGone f.ref }
    sync := { s.sync with
      ctrs := s.sync.ctrs.map fun c => { c with waiters := c.waiters.filter fun w => !mine w.tile }
      holds := s.sync.holds.filter fun h => !mine h.tile
      rounds := s.sync.rounds.filter fun r => !decide (r.part = part ∧ r.gid = gid)
      faults := s.sync.faults.filter fun f => !mine f.hold.tile }
    host := { s.host with ports := s.host.ports.map fun p =>
      { p with seqs := p.seqs.filter fun q => !decide (q.part = part ∧ q.gid = gid) } } }
  (s.denyAll part).flushRecords

/-- Removes a gang without closing (R275): its global writes are performed (R292), its completion record carries KILLED, and DONECTR
follows its post (R274, R375). -/
def State.killGang (s : State) (part gid : Nat) : State :=
  match s.gang part gid with
  | none => s
  | some g =>
    let late := s.lateOf g
    let rec_ : CompRec :=
      { bytes := compRecord g.tag.toNat gid 0 (8 + (if late = 0 then 0 else 4) + (if g.redLost then 2 else 0)) late
        asid := g.image.asid, donectr := g.donectr }
    ((s.finishGang part gid).dropGang part gid).updPart part fun p => { p with compq := p.compq ++ [rec_] }

/-! ## Acceptance -/

/-- The bytes of the overflow allocation that a virtual tile's queues hold, in 64 KiB pages, with 128 bytes a packet (R302,
log 21, PRESUMED). -/
def Tile.overflowBytes (t : Tile) : Nat :=
  ((t.inb.overflow.length * 128 + 65535) / 65536 + (t.inb.arrivals.length * 128 + 65535) / 65536) * 65536

/-- The bytes of the overflow allocation that the engines' tables take (R346): entries beyond a partition's quota and its reserve of one
eighth, 64 bytes each, in 64 KiB pages (log 21, PRESUMED). Such a table has its deny bit set (R218). -/
def State.engineOverflow (s : State) (part : Nat) : Nat :=
  (s.part part).denyBits.foldl (fun n d =>
    let q := (s.part part).gov.quota.get (Fin.ofNat 4 d.1)
    n + ((s.tableUse part d.1 d.2 - (q + q / 8)) * 64 + 65535) / 65536 * 65536) 0

/-- Where the overflow allocation of the partition does not suffice, the gang that needs more is removed (R302, R347). -/
def State.overflowCheck (s : State) (part gid : Nat) : State :=
  let used := (s.tiles.filter fun t => decide (t.id.part = part ∧ t.id.gid ≠ 0)).foldl (fun n t => n + t.overflowBytes) 0
  if used + s.engineOverflow part > (s.part part).gov.ovfalloc then s.killGang part gid else s

/-- The same check where an engine has taken an entry beyond the reserve (R346). -/
def State.engineCheck (s : State) (part gid : Nat) : State := if s.engineOverflow part = 0 then s else s.overflowCheck part gid

/-- A wake event for IDLE (R119), with the bubble of R242. -/
def Tile.wake (t : Tile) : Tile :=
  if t.ex.idle then { t with ex := { t.ex with idle := false }, iss := { t.iss with bubble := Nat.max t.iss.bubble (t.iss.cycle + 3) } }
  else t

/-- The largest number of slots that a channel may hold (R29). -/
def Channel.limit (e : Channel) : Nat := if e.quota = 0 then 256 else e.quota

/-- Whether the inbox admits one more message of a channel (R30). -/
def Tile.admits (t : Tile) (c : Fin 64) : Bool :=
  decide (t.inb.slots.length < 256 ∧ t.pend c < (t.inb.chans.get c).limit)

/-- Whether some queued message of the tile may move into the inbox (R302). -/
def Tile.moves (t : Tile) : Bool := t.inb.overflow.any fun m => t.admits m.chan

/-- A message takes an inbox slot of the current tile (R30); a tile at rest may then select (R264). -/
def State.acceptInbox (s : State) (m : Msg) : State :=
  let (n, s) := s.draw
  let free := (List.range 256).filter fun k => !s.tile.inb.slots.any fun x => decide (x.slot.val = k)
  match free[Config.slotChoice n % free.length]? with
  | none => s
  | some k =>
    let x : Slot := ⟨Fin.ofNat 256 k, m.chan, m.kind, m.rfs, m.seqno, m.src⟩
    let s := s.upd fun t =>
      ({ t with
        inb := { t.inb with slots := t.inb.slots ++ [x], bytes := Memory.write t.inb.bytes (64 * k) m.payload
                            bad := t.inb.bad.filter fun a => !decide (a = metaWord k ∨ (8 * k ≤ a ∧ a < 8 * k + 8)) }
        pl := { t.pl with touched := true } }.wake).event 27 1
    s.select false

/-- Puts a message into an overflow queue behind those of its channel that have passed R308, and ahead of those that have still to pass
it (R302, R327). -/
def queueIn (m : Msg) : List Msg → List Msg
  | [] => [m]
  | x :: t => if x.chan = m.chan ∧ x.parked then m :: x :: t else x :: queueIn m t

/-- A message that has passed R308 is accepted into the inbox or diverted to the overflow queue of the current tile (R30, R302). -/
def State.takeIn (s : State) (m : Msg) : State :=
  if s.tile.admits m.chan && !s.tile.inb.overflow.any (fun x => decide (x.chan = m.chan) && !x.parked) then s.acceptInbox m
  else
    (s.upd fun t =>
      ({ t with inb := { t.inb with overflow := queueIn m t.inb.overflow }, pl := { t.pl with touched := true } }.wake).event 28 1)

/-- The destination has taken a message: the operation that sent it is done, and the acknowledgement leaves (R200). A message for an
absent virtual tile is parked by its translator, with no packet to answer. -/
def State.acked (s : State) (m : Msg) : State :=
  match m.origin with
  | .op vt st =>
    let s := match m.phys with
      | some p => s.respond ⟨m.part, m.gid, vt⟩ st p
      | none => s
    s.updTile ⟨m.part, m.gid, vt⟩ fun t => { t with ops := { t.ops with ms := t.ops.ms.map fun o =>
      if o.stamp = st then { o with done := true } else o } }
  | .ni _ | .port _ => s

/-- What the current tile expects from the source of a message on its channel (R308). -/
def Tile.expected (t : Tile) (m : Msg) : Expect :=
  match t.inb.expects.find? fun e => decide (e.host = decide (m.kind = .host) ∧ e.src = m.src ∧ e.chan = m.chan) with
  | some e => e
  | none => ⟨decide (m.kind = .host), m.src, m.chan, 0, []⟩

/-- Records what the tile expects from a source. -/
def Tile.setExpected (t : Tile) (e : Expect) : Tile :=
  { t with inb := { t.inb with expects :=
      (t.inb.expects.filter fun x => !decide (x.host = e.host ∧ x.src = e.src ∧ x.chan = e.chan)) ++ [e] } }

/-- The expected number advances over numbers already taken in, and over held messages, which are accepted in number order
(R308). The first argument bounds the steps: 64 numbers and 64 held messages at most. -/
def State.advance (m : Msg) : Nat → State → State
  | 0, s => s
  | n + 1, s =>
    let e := s.tile.expected m
    if e.taken.contains e.next then
      State.advance m n (s.upd fun t => t.setExpected { e with next := e.next + 1, taken := e.taken.filter (· ≠ e.next) })
    else
      match s.tile.inb.window.find? fun x => x.samePair m && decide (x.seqno = e.next) with
      | none => s
      | some x =>
        let s := s.upd fun t =>
          { t with inb := { t.inb with window := t.inb.window.filter fun y => decide (y.serial ≠ x.serial) } }.setExpected
            { e with next := e.next + 1 }
        State.advance m n ((s.takeIn x).acked x)

/-- A message passes the sequence check of the current tile (R30, R308): accepted, or held in the reorder window, as SEQ of its channel says
when it comes. deliver says what an acceptance does. -/
def State.sequence (s : State) (m : Msg) (deliver : State → Msg → State) : State :=
  let e := s.tile.expected m
  if m.seqno = e.next then
    State.advance m 130 (deliver (s.upd fun t => t.setExpected { e with next := e.next + 1 }) m)
  else if (s.tile.inb.chans.get m.chan).seq then
    s.upd fun t => { t with inb := { t.inb with window := t.inb.window ++ [m] } }.event 55 1
  else deliver (s.upd fun t => t.setExpected { e with taken := e.taken ++ [m.seqno] }) m

/-! ## Mailboxes -/

/-- Whether the root of a gang is finished. -/
def State.rootFinished (s : State) (g : Gang) : Bool :=
  match s.findTile ⟨g.part, g.gid, g.root⟩ with
  | some t => t.pl.finished
  | none => false

/-- T = 0 and F = 0 (R273): no touched virtual tile is unfinished, and no message is in flight. -/
def State.gangQuiet (s : State) (g : Gang) : Bool :=
  (s.tilesOf g.part g.gid).all (fun t => (!t.pl.touched || t.pl.finished) && t.inb.window.isEmpty) &&
  !s.fab.flight.any fun m => decide (m.part = g.part ∧ m.gid = g.gid)

/-- Whether a gang has closed (R273): since the first instant at which its root is finished, T = 0 and F = 0. -/
def State.hasClosed (s : State) (g : Gang) : Bool := g.closed || (s.rootFinished g && s.gangQuiet g)

/-- Whether a gang can take a mailbox message for a virtual tile (R273, R374). -/
def State.mailTarget (s : State) (part gid dst : Nat) : Bool :=
  match s.gang part gid with
  | some g => !s.hasClosed g && inGrid g.rows g.cols dst
  | none => false

/-- A mailbox write is sent, held at the port under flow control or behind the launch message of its gang (R258), or discarded, where its
partition is disabled too (R261, R374). -/
def State.mailWrite (s : State) (w : HeldMail) (part : Nat) : State :=
  if !(s.part part).gov.enable || !s.mailTarget part w.gid w.dst then s.mailError w.port part true
  else
    let m := s.portMsg w.port part w.gid w.dst w.chan w.data
    let old := (s.unaccepted m).foldl (fun (b : Msg) x => if x.serial < b.serial then x else b) m
    let behind := (s.part part).held.any fun x =>
      decide (x.port = w.port ∧ x.gid = w.gid ∧ x.dst = w.dst ∧ x.chan = w.chan)
    let early := s.gangs.any fun g => decide (g.part = part ∧ g.gid = w.gid) && !g.launchSent
    if early ∨ behind ∨ (m.seqno - old.seqno).toNat ≥ 64 then s.updPart part fun p => { p with held := p.held ++ [w] }
    else s.portSend w.port part w.gid w.dst w.chan w.data

/-- The mailbox writes that a port holds for a partition are tried again in order (R374). -/
def State.retryMail (s : State) (part : Nat) : State :=
  let l := (s.part part).held
  l.foldl (fun s w => s.mailWrite w part) (s.updPart part fun p => { p with held := [] })

/-! ## Arrival -/

/-- BIND has cleared SEQ of a channel: its held messages are accepted at once, in number order (R308). -/
def State.releaseWindow (s : State) (c : Fin 64) : State :=
  let held := sortList (fun a b => decide (a.serial ≤ b.serial)) (s.tile.inb.window.filter fun m => decide (m.chan = c))
  let s := s.upd fun t => { t with inb := { t.inb with window := t.inb.window.filter fun m => decide (m.chan ≠ c) } }
  let s := held.foldl (fun s m =>
    let e := s.tile.expected m
    ((s.upd fun t => t.setExpected { e with taken := e.taken ++ [m.seqno] }).takeIn m).acked m) s
  (held.foldl (fun s m => State.advance m 130 s) s).retryMail s.tile.id.part

/-- A message is parked for the virtual tile of a name (R326). -/
def State.parkMsg (s : State) (m : Msg) : State :=
  let id : TileId := ⟨m.part, m.gid, m.dst⟩
  let s := s.withTile id fun s => s.upd fun t =>
    { t with inb := { t.inb with overflow := t.inb.overflow ++ [{ m with parked := true }] }
             pl := { t.pl with touched := true } }.wake
  let s := match m.origin with
    | .op vt _ | .ni vt => s.updTile ⟨m.part, m.gid, vt⟩ fun t => t.event 54 1
    | .port _ => s
  ((s.acked m).tileFault id).overflowCheck m.part m.gid

/-- A message that arrives while parked ones of its channel wait for their replay queues behind them, and passes R308 as it moves, as
they do (R302, R327, log 28, DEDUCED). -/
def State.queueBehind (s : State) (m : Msg) : State :=
  (s.upd fun t =>
    ({ t with inb := { t.inb with overflow := t.inb.overflow ++ [{ m with parked := true }] }
              pl := { t.pl with touched := true } }.wake).event 28 1).acked m

/-- A message reaches its destination (R308, R326): accepted, held, diverted or parked. It has left the fabric. -/
def State.arriveMsg (s : State) (m : Msg) : State :=
  let id : TileId := ⟨m.part, m.gid, m.dst⟩
  let parks := match m.phys with
    | none => true
    | some p => decide (s.seen id p ≠ some p)
  if parks then s.parkMsg m
  else (s.withTile id fun s =>
    if s.tile.inb.overflow.any fun x => decide (x.chan = m.chan) && x.parked then s.queueBehind m
    else s.sequence m fun s m => (s.takeIn m).acked m).overflowCheck m.part m.gid

end Sys2Proof.Machine
end

