-- ==== Sys2Proof/Machine/Stop.lean ====
section
/-! DEFINITION. Resumption of a stopped gang (R335), the release of pins (R177, R269), and the starts of swap-out (R329) and of a
version change (R323): shared operations of firmware. -/

namespace Sys2Proof.Machine

/-- The virtual tiles of a truss plan with their positions (R174). -/
def Plan.members (p : Plan) : List (Nat × Nat) :=
  (List.range p.rows).flatMap fun t => (List.range p.cols).map fun u => ((p.row0 + t) * 4096 + (p.col0 + u), 3 * t + u)

/-- The position of a virtual tile in a plan, none if it lies outside (R174, R175). -/
def Plan.posOf (p : Plan) (vt : Nat) : Option Nat := (p.members.find? fun m => decide (m.1 = vt)).map Prod.snd

/-- A resident virtual tile of a resumed gang continues from its boundary (R335); one at rest selects if a channel is READY, after the end
of a pause of its clock (R250). -/
def State.resumeTile (s : State) (id : TileId) : State :=
  s.withTile id fun s =>
    (s.upd fun t => { t with pl := { t.pl with stopped := false, stopDue := false } }).select false

/-- Whether the context of an absent virtual tile would run if it were resident (R324): it is in an activation that neither IDLE nor a
withdrawn CWAIT holds, a trap is due, a channel is READY, or a queued message could move into the inbox. -/
def Tile.wouldRun (t : Tile) : Bool :=
  (t.ex.inh && !t.ex.idle && (t.ex.withdrawn.isNone || !t.ex.pends.isEmpty)) || (List.finRange 64).any t.ready || t.moves

/-- The virtual tiles of a plan, as names of a gang. -/
def Plan.tiles (p : Plan) (part gid : Nat) : List TileId := p.members.map fun m => ⟨part, gid, m.1⟩

/-- Whether a virtual tile is joined under a plan. -/
def State.joinedAt (s : State) (id : TileId) (plan : Nat) : Bool :=
  match s.findTile id with
  | some t => t.eng.joined && decide (t.eng.plan.toNat = plan)
  | none => false

/-- Whether an operation is an MJOIN. -/
def MxKind.joining : MxKind → Bool
  | .mjoin _ => true
  | .mloadb | .mzero | .mma | .mmat _ _ _ | .macc2s _ _ _ | .ms2acc _ | .mswap _ _ => false

/-- Whether the current tile's MJOIN has left MX. -/
def Tile.joinDone (t : Tile) : Bool := !t.ops.mx.any fun o => o.kind.joining

/-- Whether a virtual tile is joined under a plan and its MJOIN has left MX: it is in the truss that the last pinning made (R175, R332). -/
def State.inRound (s : State) (id : TileId) (plan : Nat) : Bool :=
  match s.findTile id with
  | some t => t.eng.joined && decide (t.eng.plan.toNat = plan) && t.joinDone
  | none => false

/-- Whether the MJOIN of a virtual tile for a plan is in MX (R175). -/
def State.joiningAt (s : State) (id : TileId) (plan : Nat) : Bool := s.joinedAt id plan && !s.inRound id plan

/-- Whether a virtual tile belongs to a plan under which some member is joined and pinned (R175, R177): every member of it must stay
resident and pinned then, one that has left too (R269). -/
def State.inTruss (s : State) (id : TileId) (p : Plan) (k : Nat) : Bool :=
  let ids := p.tiles id.part id.gid
  ids.contains id && ids.any fun i => s.inRound i k

/-- The plans whose truss holds a virtual tile in that way. -/
def State.trussesOf (s : State) (t : Tile) : List Plan :=
  ((t.gang.prog.plans.zip (List.range t.gang.prog.plans.length)).filter fun x => s.inTruss t.id x.1 x.2).map Prod.fst

/-- Whether a truss holds a virtual tile (R269): it is joined, or belongs to a plan that members hold it for. -/
def State.trussed (s : State) (t : Tile) : Bool := t.eng.joined || !(s.trussesOf t).isEmpty

/-- Whether firmware swaps a virtual tile in again: a finished one only with its truss (R269, R270; log 90, DEDUCED). -/
def State.keeps (s : State) (t : Tile) : Bool := !t.pl.finished || s.trussed t

/-- Whether an absent virtual tile is swapped in on resumption (R335): it was running, or held a READY channel, when it was
saved; trusses are restored whole (R269). -/
def State.wantsBack (s : State) (t : Tile) : Bool :=
  decide (t.pl.res = .absent) && t.pl.touched && (s.trussed t || (!t.pl.finished && t.wouldRun))

/-- Firmware begins a version change of a gang that has none in progress (R323). -/
def State.beginChange (s : State) (part gid : Nat) (places : List (Nat × Option Nat)) (pins : List (Nat × Bool)) : State :=
  s.updGang part gid fun g =>
    if g.change.isSome then g else { g with change := some ⟨places, pins, [], []⟩ }

/-- Whether firmware may prepare a change of a gang: none is in progress, and no gang-stop (R323, R334). -/
def Gang.mayChange (g : Gang) : Bool := g.change.isNone && !g.stopWork

/-- Whether some virtual tile of the gang is joined under a plan (R175). -/
def State.planJoined (s : State) (g : Gang) (k : Nat) : Bool :=
  (s.tilesOf g.part g.gid).any fun t => t.eng.joined && decide (t.eng.plan.toNat = k)

/-- The pinned virtual tiles of a gang whose trusses every member has left (R177). -/
def State.unpinnable (s : State) (g : Gang) : List Nat :=
  let live := ((List.range g.image.prog.plans.length).filter fun k => s.planJoined g k).flatMap fun k =>
    match g.image.prog.plans[k]? with
    | some p => p.members.map Prod.fst
    | none => []
  ((s.tilesOf g.part g.gid).filter fun t => t.pl.pinned && !live.contains t.id.vt).map fun t => t.id.vt

/-- Firmware releases the pins of trusses that every member has left (R177, R269), by one version change, as soon as it may
prepare one. -/
def State.releasePins (s : State) (part gid : Nat) : State :=
  match s.gang part gid with
  | none => s
  | some g =>
    match s.unpinnable g with
    | [] => s
    | l => if g.mayChange then s.beginChange part gid [] (l.map fun v => (v, false)) else s

/-- A counter gains 1 for a GSTOP or a GRESUME (R236); its engine may need room for it (R347). -/
def State.gangSignal (part : Nat) (s : State) (c : GangSignal) : State := (s.ctrSignal c.asid c.ctr c.gid).engineCheck part c.gid

/-- A gang whose stop is complete, as each GSTOP of it has been told, and that nothing stops any more resumes (R335, R236). -/
def State.tryResume (s : State) (part gid : Nat) : State :=
  match s.gang part gid with
  | none => s
  | some g =>
    if g.stopping || !g.stopDone || !g.stopCtrs.isEmpty then s
    else
      let ids := ((s.tilesOf part gid).filter fun t => decide (t.pl.res = .resident)).map fun t => t.id
      let back := ((s.tilesOf part gid).filter s.wantsBack).map fun t => t.id
      let s := s.updGang part gid fun g => { g with stopDone := false, resumeCtrs := [] }
      let s := s.updAll fun t =>
        if t.id.part = part ∧ t.id.gid = gid then
          { t with pl := { t.pl with stopped := false, stopDue := false, wanted := t.pl.wanted || back.contains t.id } }
        else t
      let s := ids.foldl State.resumeTile s
      let s := g.resumeCtrs.foldl (State.gangSignal part) s
      s.releasePins part gid

/-- A reason to stop a gang goes away; the gang resumes when none is left (R335). -/
def State.gangFree (s : State) (part gid : Nat) (f : Gang → Gang) : State := (s.updGang part gid f).tryResume part gid

/-- Swap-out of a virtual tile begins (R329, step 1): it stops at its present boundary, since it is idle (R325), after a trap that is
pending there (R39), and its CWAIT is withdrawn. -/
def State.swapOut (s : State) (id : TileId) : State :=
  s.withTile id fun s =>
    let s := s.takePending
    (s.dropWaiter s.tile).upd fun t => { t.stopNow with pl := { t.stopNow.pl with res := .swappingOut } }

end Sys2Proof.Machine
end

