-- ==== Sys2Proof/Machine/Engine.lean ====
section
/-! DEFINITION. The matrix instructions as they issue: MCFG (R168), the engine operations (R170 to R180), MSWAP (R182), MJOIN
and MLEAVE (R175, R177). Their work follows in the events of EventEngine. -/

namespace Sys2Proof.Machine

/-- Adds an operation of class MX under the next stamp. -/
def Tile.pushMx (t : Tile) (k : MxKind) (g : Geom) (sh : Option (Fin 64)) (off : Nat) : Tile :=
  let o : MxOp := { stamp := t.ops.stamp, kind := k, geom := g, sh := sh, off := off, doneAt := none, rows := none, recv := none }
  { t with ops := { t.ops with stamp := t.ops.stamp + 1, mx := t.ops.mx ++ [o] } }

/-- Whether a value of an engine register lies in the ranges of its fields (R31). -/
def mcfgOk (r : Nat) (x : Nat) : Bool :=
  match r with
  | 0 => decide (x % 16 ≤ 3 ∧ x / 16 % 16 ≤ 2)
  | 1 => decide (1 ≤ x % 128 ∧ x % 128 ≤ 64)
  | 2 => decide (1 ≤ x % 256 ∧ x % 256 ≤ 128)
  | _ => true

/-- The bits of an engine register that are not reserved (R31). -/
def mcfgMask (r : Nat) : Word :=
  match r with
  | 0 => 0xFF
  | 1 => 0x7F
  | 2 => 0xFF
  | 3 => 0x7F7F
  | 4 => 0x7FFFF
  | _ => 0x3F

/-- MCFG (R168): ILLEGAL where a field is outside its range. -/
def execMcfg (r : Fin 8) (a : GReg) (s : State) : Out :=
  issue { regs := [.g a], reads := [.g a] } (fun s => do
    failIf (decide (r.val > 5) || !mcfgOk r.val (s.tile.g a).toNat) (.cause 0x01 (instrWord (.mcfg r a)))
    .ok (s.upd fun t =>
      let x := t.g a &&& mcfgMask r.val
      let t := t.issued [.g a]
      if h : r.val < 6 then { t with eng := { t.eng with regs := t.eng.regs.set r.val x h } } else t)) s

/-- The block format of a code of MFMT (R31). -/
def fmtOf (c : Nat) : BlkFmt := if c = 0 then .lb4 else if c = 1 then .lb6 else if c = 2 then .lb8 else .lb12

/-- The geometry that a matrix instruction reads at issue (R170): the engine registers and its extent (R163). -/
def Tile.geom (t : Tile) (ext : Word) : Geom :=
  let r (k : Fin 6) : Nat := (t.eng.regs.get k).toNat
  { afmt := fmtOf (r 0 % 16), bfmt := fmtOf (r 0 / 16 % 16), kb := r 1, n := r 2, row0 := r 3 % 128, col0 := r 3 / 256 % 128
    stride := r 4, kbase := r 5, m := bitsOf ext.toNat 7 0, c0 := bitsOf ext.toNat 14 8 }

/-- The checks of K and of the CIM columns (R170), for MLOADB, MMA and MMAT. -/
def Geom.badCim (g : Geom) : Bool := decide (g.kbase + g.kb > 64 ∨ g.c0 + g.n > 128)

/-- The checks of the accumulator rectangle (R170), for all but MLOADB. -/
def Geom.badAcc (g : Geom) : Bool := decide (g.m = 0 ∨ g.m > 128 ∨ g.row0 + g.m > 128 ∨ g.col0 + g.n > 128)

/-- RS (R170): the stride, or the packed row length. -/
def Geom.rs (g : Geom) (packed : Nat) : Nat := if g.stride ≠ 0 then g.stride else packed

/-- The K-rows that an operation reads (R172). -/
def Geom.krows (g : Geom) : List Nat := upFrom (32 * g.kbase) (32 * g.kb)

/-- The MXERR check (R172): TVAL names the lowest bad K-row's macro row and macro (R35). -/
def Tile.badRowTrap (t : Tile) (g : Geom) : Except Stop Unit :=
  match g.krows.find? fun k => t.eng.badRows.contains k with
  | some k => .error (.cause 0x0C (w64 (k % 128 * 256 + k / 128)) 9)
  | none => .ok ()

/-- The named shingle and the extent of an engine operation (R166, R170): traps first. -/
def Tile.namedExtent (t : Tile) (n : Fin 64) (off bytes : Nat) : Except Stop Shingle := do
  let x ← t.namedTraps n .read 9
  extentTrap n x (off + bytes) 9
  .ok x

/-- MLOADB (R171) at issue. -/
def execMloadb (a b : GReg) (s : State) : Out :=
  issue { regs := [.g a, .g b], reads := [.g a, .g b], cls := some .mx } (fun s => do
    let t := s.tile
    let g := t.geom (t.g b)
    let n := refSh (t.g a)
    let col := g.kb * blkBytes g.bfmt
    failIf g.badCim (.cause 0x01 (instrWord (.mloadb a b)))
    let x ← t.namedExtent n (refOff (t.g a)) ((g.n - 1) * g.rs col + col)
    t.namedWaits n x .read
    .ok (s.upd fun t => (t.issued [.g a, .g b]).pushMx .mloadb g (some n) (refOff (t.g a)))) s

/-- MZERO (R178) at issue. -/
def execMzero (b : GReg) (s : State) : Out :=
  issue { regs := [.g b], reads := [.g b], cls := some .mx } (fun s => do
    let g := s.tile.geom (s.tile.g b)
    failIf g.badAcc (.cause 0x01 (instrWord (.mzero b)))
    .ok (s.upd fun t => (t.issued [.g b]).pushMx .mzero g none 0)) s

/-- The checks of a multiply that reads its A rows from a shingle (R170, R172). -/
def Tile.checkMma (t : Tile) (i : Instr) (a : Word) (g : Geom) : Except Stop Unit := do
  let row := g.kb * blkBytes g.afmt
  failIf (g.badCim || g.badAcc) (.cause 0x01 (instrWord i))
  let x ← t.namedExtent (refSh a) (refOff a) ((g.m - 1) * g.rs row + row)
  t.badRowTrap g
  t.namedWaits (refSh a) x .read

/-- MMA (R172) at issue. -/
def execMma (a b : GReg) (s : State) : Out :=
  issue { regs := [.g a, .g b], reads := [.g a, .g b], cls := some .mx } (fun s => do
    let g := s.tile.geom (s.tile.g b)
    s.tile.checkMma (.mma a b) (s.tile.g a) g
    .ok (s.upd fun t => (t.issued [.g a, .g b]).pushMx .mma g (some (refSh (t.g a))) (refOff (t.g a)))) s

/-- Whether a joined tile is the source of its truss row: position 0 or 3 (R174). -/
def Engine.isSource (e : Engine) : Bool := decide (e.pos.val % 3 = 0)

/-- MMAT (R176) at issue: as MMA where the tile is in no truss; a member that is not the source names no shingle. -/
def execMmat (a b : GReg) (s : State) : Out :=
  issue { regs := [.g a, .g b], reads := [.g a, .g b], cls := some .mx } (fun s => do
    let t := s.tile
    let g := t.geom (t.g b)
    let bump (t : Tile) : Tile := { t with eng := { t.eng with mmats := t.eng.mmats + 1 } }
    if !t.eng.joined then do
      t.checkMma (.mmat a b) (t.g a) g
      .ok (s.upd fun t => (t.issued [.g a, .g b]).pushMx (.mmat false true 0) g (some (refSh (t.g a))) (refOff (t.g a)))
    else if t.eng.isSource then do
      t.checkMma (.mmat a b) (t.g a) g
      .ok (s.upd fun t =>
        bump ((t.issued [.g a, .g b]).pushMx (.mmat true true t.eng.mmats) g (some (refSh (t.g a))) (refOff (t.g a))))
    else do
      failIf (g.badCim || g.badAcc) (.cause 0x01 (instrWord (.mmat a b)))
      t.badRowTrap g
      .ok (s.upd fun t => bump ((t.issued [.g a, .g b]).pushMx (.mmat true false t.eng.mmats) g none 0))) s

/-- The element size of an accumulator format (R179). -/
def accSize : AccFmt → Nat
  | .f32 => 4
  | .bf16 | .fp16 => 2

/-- The checks of MACC2S and MS2ACC (R170, R179, R180): MISALIGN stands before every SHINGLE condition, with BASE read as 0 for an
undefined shingle. -/
def Tile.checkAccCopy (t : Tile) (i : Instr) (a : Word) (g : Geom) (f : AccFmt) : Except Stop Unit := do
  let es := accSize f
  let n := refSh a
  let off := refOff a
  let rs := g.rs (g.n * es)
  let base := match t.sh n with
    | some x => x.base
    | none => 0
  failIf g.badAcc (.cause 0x01 (instrWord i))
  failIf (decide (off % es ≠ 0)) (.cause 0x04 (w64 (base + off)) 9)
  failIf (decide (rs % es ≠ 0)) (.cause 0x04 (w64 (base + off + rs)) 9)
  let x ← t.namedExtent n off ((g.m - 1) * rs + g.n * es)
  t.namedWaits n x .read

/-- MACC2S (R179) at issue; FMODE.RM is read now, with 4 read as RNE. -/
def execMacc2s (a b : GReg) (clr : Bool) (f : AccFmt) (s : State) : Out :=
  issue { regs := [.g a, .g b], reads := [.g a, .g b], cls := some .mx } (fun s => do
    let g := s.tile.geom (s.tile.g b)
    s.tile.checkAccCopy (.macc2s a b clr f) (s.tile.g a) g f
    .ok (s.upd fun t =>
      (t.issued [.g a, .g b]).pushMx (.macc2s clr f t.regs.fmode.val) g (some (refSh (t.g a))) (refOff (t.g a)))) s

/-- MS2ACC (R180) at issue. -/
def execMs2acc (a b : GReg) (f : AccFmt) (s : State) : Out :=
  issue { regs := [.g a, .g b], reads := [.g a, .g b], cls := some .mx } (fun s => do
    let g := s.tile.geom (s.tile.g b)
    s.tile.checkAccCopy (.ms2acc a b f) (s.tile.g a) g f
    .ok (s.upd fun t => (t.issued [.g a, .g b]).pushMx (.ms2acc f) g (some (refSh (t.g a))) (refOff (t.g a)))) s

/-- MSWAP (R182) at issue: XLATE for a partner outside the grid; the shingle goes to FILLING with counter 0. -/
def execMswap (a b : GReg) (s : State) : Out :=
  issue { regs := [.g a, .g b], reads := [.g a, .g b], cls := some .mx } (fun s => do
    let t := s.tile
    let n := refSh (t.g a)
    let q := bitsOf (t.g b).toNat 23 0
    failIf (!inGrid t.gang.rows t.gang.cols q) (.cause 0x06 (t.g b) 9)
    let x ← t.namedTraps n .swap 9
    t.namedWaits n x .swap
    .ok (s.upd fun t =>
      let k := tget 0 t.eng.mswaps q
      let t := ((t.issued [.g a, .g b]).pushMx (.mswap q k) (t.geom 0) (some n) 0).startFill n 0
      { t with eng := { t.eng with mswaps := tset t.eng.mswaps q (k + 1) } })) s

/-- The notices that a tile sends to every member of a plan (R175, R177). -/
def Tile.notices (t : Tile) (p : Plan) (plan : Nat) (leave : Bool) : List Notice :=
  p.members.map fun m => ⟨0, { t.id with vt := m.1 }, none, t.id.vt, plan, leave⟩

/-- Sends notices; the NI translates each (R322). -/
def State.sendNotices (s : State) (l : List Notice) : State :=
  l.foldl (fun s x =>
    let phys := s.seen x.dst s.tile.pl.phys
    let n := s.fab.serial
    let s := s.packet false s.tile.pl.phys phys
    { s with fab := { s.fab with notices := s.fab.notices ++ [{ x with serial := n, phys := phys }] } }) s

/-- MJOIN (R175) at issue: ILLEGAL where the tile is joined, or the plan does not exist or does not hold the tile. -/
def execMjoin (a : GReg) (s : State) : Out :=
  issue { regs := [.g a], reads := [.g a], cls := some .mx } (fun s => do
    let t := s.tile
    let k := bitsOf (t.g a).toNat 15 0
    let bad : Except Stop State := .error (.cause 0x01 (instrWord (.mjoin a)))
    match t.eng.joined, t.gang.prog.plans[k]? with
    | false, some p =>
      match p.posOf t.id.vt with
      | some pos =>
        .ok ((s.upd fun t =>
          let t := (t.issued [.g a]).pushMx (.mjoin k) (t.geom 0) none 0
          { t with eng := { t.eng with joined := true, pos := Fin.ofNat 6 pos, plan := BitVec.ofNat 16 k, joinSerial := s.fab.serial, mmats := 0 } }).sendNotices
            (t.notices p k false))
      | none => bad
    | _, _ => bad) s

/-- MLEAVE (R177): no effect outside a truss; else it waits until MX is 0, and every member gets a leave notice. -/
def execMleave (s : State) : Out :=
  issue {} (fun s => do
    let t := s.tile
    failIf (t.eng.joined && decide (t.count .mx ≠ 0)) (.wait 22)
    if t.eng.joined then
      let k := t.eng.plan.toNat
      let s := s.upd fun t =>
        let t := t.issued []
        { t with eng := { t.eng with joined := false, pos := 0, plan := 0 } }
      match t.gang.prog.plans[k]? with
      | some p => .ok (s.sendNotices (t.notices p k true))
      | none => .ok s
    else .ok (s.upd fun t => t.issued [])) s

end Sys2Proof.Machine
end

