-- ==== Sys2Proof/Machine/LocalMem.lean ====
section
/-! DEFINITION. Local scalar memory: LD, LDN and ST (R105 to R108). -/

namespace Sys2Proof.Machine

/-- The local window of an effective address, or XLATE (R105). -/
def localWindow (ea : Word) (aclass : Nat) : Except Stop (Window × Nat) :=
  match windowOf ea.toNat with
  | some p => .ok p
  | none => .error (.cause 0x06 ea aclass)

/-- The checks of a local load of n bytes (R105, R106): the window and the offset in it. -/
def Tile.checkLoad (t : Tile) (ea : Word) (n : Nat) : Except Stop (Window × Nat) := do
  failIf (decide (ea.toNat % n ≠ 0)) (.cause 0x04 ea 2)
  let (w, off) ← localWindow ea 2
  failIf (w.wide && decide (n < 4)) (.cause 0x07 ea 2)
  t.gate true 2 none (w.touch off n)
  .ok (w, off)

/-- The arrival latency of a local load before its access cycles: base for the raw window and the inbox, base + 2 for a decode
or widen window (R239, R240). -/
def loadLatency (base : Nat) (wide : Bool) (cycles : Nat) : Nat := base + (if wide then 2 else 0) + (cycles - 1)

/-- The counts of a local load at its issue (R252): events 30 and 50. -/
def Tile.loadEvents (t : Tile) (bytes : List Nat) : Tile := (t.event 30 1).eventIf (t.belowMark bytes) 50

/-- A local scalar load (R107): its bytes are read now, and gd is written at its arrival (R34). -/
def localLoad (d a : GReg) (z : Fin 8) (off : BitVec 13) (signed : Bool) : State → Out :=
  issue { regs := [.g d, .g a], reads := [.g a], unit := .localPort, cls := some .ld } fun s => do
    let t := s.tile
    let n := 2 ^ z.val
    let ea := memEa t a z off
    let (w, o) ← t.checkLoad ea n
    let bytes := w.touch o n
    let cy := readCycles (w.words o n)
    let bad := t.badLocal w o n
    let op : OutLoad :=
      { stamp := t.ops.stamp
        kind := .timed (t.arrival (loadLatency 4 w.wide cy.1)) true
        elems := [{ reg := .g d, lane := 0, va := ea.toNat, pa := 0, bytes := n
                    val := some (extendBytes signed n (t.readLocal w o n)) }]
        regs := [.g d], hs := 0, issued := t.iss.cycle, aclass := 2, ecc := bad.map fun v => (0, v, none) }
    .ok ((s.upd fun t =>
      let t := ((t.loadEvents bytes).usePort (some t.ops.stamp) (w.words o n) cy.1).issued [.g a]
      { t.nextStamp with ops := { t.nextStamp.ops with loads := t.ops.loads ++ [op] } }).tileUncIf bad.isSome)

/-- LD (R107): sign-extended. -/
def execLd (d a : GReg) (z : Fin 8) (off : BitVec 13) (s : State) : Out := localLoad d a z off true s

/-- LDN (R107): zero-extended. -/
def execLdn (d a : GReg) (z : Fin 8) (off : BitVec 13) (s : State) : Out := localLoad d a z off false s

/-- The checks of a local store of n bytes (R105, R106, R386): the raw offset. At U the code segment is closed to stores, and a
store of fewer than 8 bytes to an uncorrectable word traps ECC. -/
def Tile.checkStore (t : Tile) (ea : Word) (n : Nat) : Except Stop Nat := do
  failIf (decide (ea.toNat % n ≠ 0)) (.cause 0x04 ea 3)
  let (w, off) ← localWindow ea 3
  failIf (decide (w ≠ .raw)) (.cause 0x07 ea 3)
  failIf (!t.ex.prv && decide (off < t.regs.shbase.toNat)) (.cause 0x07 ea 3)
  t.gateTraps false 3 (upFrom off n)
  failIf (decide (n < 8) && t.pad.bad.contains (off / 8)) (.cause 0x0B (w64 off) 3)
  t.gate false 3 none (upFrom off n)
  .ok off

/-- The instruction words of the code segment that stores to the given bytes change, with their old values: instruction fetch
may see the old one at the first and second fetches after the store (R108). -/
def Tile.staleWords (t : Tile) (addrs : List Nat) : List (Nat × W32 × Nat) :=
  ((addrs.map (· / 4 * 4)).eraseDups).filterMap fun a =>
    if a < t.regs.shbase.toNat then some (a, Memory.word t.pad.bytes a, 2) else none

/-- Whether all 8 bytes of a word are among the given addresses. -/
def coversWord (addrs : List Nat) (w : Nat) : Bool := (upFrom (8 * w) 8).all fun a => addrs.contains a

/-- The raw bytes that a list of writes names. -/
def writeAddrs (ws : List (Nat × List Byte)) : List Nat := ws.flatMap fun w => upFrom w.1 w.2.length

/-- The aligned 8-byte words that a store to the given bytes changes, with their bytes before, where an engine operation that names a
shingle has not started: it may see either (R167). -/
def Tile.shadowWords (t : Tile) (addrs : List Nat) : List (Nat × Nat × List Byte) :=
  if t.ops.mx.any fun o => o.doneAt.isNone && o.sh.isSome then
    ((addrs.map (· / 8)).eraseDups.map fun w => (t.ops.stamp, w, Memory.bytes t.pad.bytes (8 * w) 8)) ++ t.pad.shadow
  else []

/-- Writes the raw bytes of a store that has been checked, in order (R108, R157): the bytes, the old words that R108 and R167 leave
visible, and the 8-byte words that the store replaces whole, whose error it clears (R386). -/
def Tile.storeRaw (t : Tile) (ws : List (Nat × List Byte)) : Tile :=
  let addrs := writeAddrs ws
  { t with pad := { bytes := ws.foldl (fun m w => Memory.write m w.1 w.2) t.pad.bytes
                    old := t.staleWords addrs ++ t.pad.old
                    bad := t.pad.bad.filter fun w => !coversWord addrs w
                    shadow := t.shadowWords addrs
                    early := t.pad.early } }

/-- ST (R108): it counts in no class, and its bytes are there before any later local access. -/
def execSt (v a : GReg) (z : Fin 8) (off : BitVec 13) (s : State) : Out :=
  issue { regs := [.g v, .g a], reads := [.g v, .g a], unit := .localPort } (fun s => do
    let t := s.tile
    let n := 2 ^ z.val
    let o ← t.checkStore (memEa t a z off) n
    .ok (s.upd fun t =>
      let cy := writeCycles (Window.words .raw o n)
      (((t.event 33 1).usePort none (Window.words .raw o n) cy).issued [.g v, .g a]).storeRaw [(o, toBytes (t.g v).toNat n)])) s

end Sys2Proof.Machine
end

