-- ==== Sys2Proof/Machine/Message.lean ====
section
/-! DEFINITION. Messages, the handler table and activations as the tile's instructions reach them (R199 to R209): SEND, SENDV,
CALLAT, BIND, UNBIND, CHMASK, DONE, INRD and INSKIP. -/

namespace Sys2Proof.Machine

/-- Adds an operation of class MS under the next stamp. -/
def Tile.pushMs (t : Tile) (k : MsKind) (rel : Bool) (hs : BitVec 8) : Tile :=
  { t with ops := { t.ops with stamp := t.ops.stamp + 1, ms := t.ops.ms ++ [⟨t.ops.stamp, k, rel, hs, false⟩] } }

/-- The trap for a destination or callee outside the grid (R199, R201). -/
def Tile.checkVtile (t : Tile) (x : Word) : Except Stop Unit :=
  failIf (!inGrid t.gang.rows t.gang.cols (bitsOf x.toNat 23 0)) (.cause 0x06 x 10)

/-- A message issues (R200): it enters MS and goes to the NI. -/
def State.issueMsg (s : State) (reads : List RegName) (rel : Bool) (dst : Nat) (c : Fin 64) (kind : MsgKind) (payload : List Byte) :
    State :=
  let st := s.tile.ops.stamp
  let s := s.upd fun t => ((t.event 29 1).issued reads).pushMs .msg rel 0
  s.sendFrom (.op s.tile.id.vt st) dst c kind false payload

/-- The checks of a SEND payload (R199): alignment, window, destination, shingle traps, uncorrectable bytes, shingle waits. -/
def Tile.checkPayload (t : Tile) (x ea : Word) : Except Stop (List Byte) := do
  failIf (decide (ea.toNat % 64 ≠ 0)) (.cause 0x04 ea 10)
  let (w, off) ← localWindow ea 10
  t.checkVtile x
  t.gateTraps true 10 (w.touch off 64)
  match t.badLocal w off 64 with
  | some v => .error (.cause 0x0B v 10)
  | none => do
    t.gate true 10 none (w.touch off 64)
    .ok (toBytes (t.readLocal w off 64) 64)

/-- The channel of a destination or call word (R199, R201). -/
def wordChan (x : Word) : Fin 64 := Fin.ofNat 64 (bitsOf x.toNat 29 24)

/-- SEND (R199): its payload is read at issue. Scopes from TILE to HOST wait for the same events (R234). -/
def execSend (a b : GReg) (_sc : Scope) (rel : Bool) (s : State) : Out :=
  issue { regs := [.g a, .g b], reads := [.g a, .g b], cls := some .ms } (fun s => do
    let x := s.tile.g a
    let payload ← s.tile.checkPayload x (s.tile.g b)
    .ok (s.issueMsg [.g a, .g b] rel (bitsOf x.toNat 23 0) (wordChan x) .send payload)) s

/-- SENDV (R199): the 16 lanes, whatever VL and the mask. -/
def execSendv (a : GReg) (b : VReg) (_sc : Scope) (rel : Bool) (s : State) : Out :=
  issue { regs := [.g a, .v b], reads := [.g a, .v b], cls := some .ms } (fun s => do
    let x := s.tile.g a
    s.tile.checkVtile x
    let payload := (s.tile.v b).toList.flatMap fun l => toBytes l.toNat 4
    .ok (s.issueMsg [.g a, .v b] rel (bitsOf x.toNat 23 0) (wordChan x) .sendv payload)) s

/-- The registers that hold the arguments of a CALLAT (R201). -/
def callArgs (b : GReg) : List GReg := [b, b + 1, b + 2, b + 3]

/-- CALLAT (R201): a CALL to channel 63 of the callee. -/
def execCallat (a b : GReg) (sc : Scope) (rel : Bool) (s : State) : Out :=
  let rs : List RegName := .g a :: (callArgs b).map .g
  issue { regs := rs, reads := rs, cls := some .ms } (fun s => do
    let t := s.tile
    let x := t.g a
    failIf (decide (b.val > 28)) (.cause 0x01 (instrWord (.callat a b sc rel)))
    t.checkVtile x
    let back := t.id.vt % 2 ^ 24 + bitsOf x.toNat 29 24 * 2 ^ 24
    let payload := toBytes (bitsOf x.toNat 50 32) 8 ++ ((callArgs b).flatMap fun r => toBytes (t.g r).toNat 8) ++
      toBytes back 4 ++ toBytes 0 20
    .ok (s.issueMsg rs rel (bitsOf x.toNat 23 0) 63 .call payload)) s

/-- BIND (R203): PERM for an entry outside the code segment; held messages of a channel that is no longer SEQUENCED are
accepted at once (R308). -/
def execBind (c : Fin 64) (a : GReg) (s : State) : Out :=
  issue { regs := [.g a], reads := [.g a] } (fun s => do
    let t := s.tile
    let x := (t.g a).toNat
    let entry := bitsOf x 18 2
    failIf (decide (entry * 4 ≥ t.regs.shbase.toNat)) (.cause 0x07 (w64 (entry * 4)) 10)
    let s := s.upd fun t => (t.issued [.g a]).updChan c fun e =>
      { bound := true, seq := (t.g a).getLsbD 62, mask := (t.g a).getLsbD 61, pri := Fin.ofNat 8 (bitsOf x 60 58)
        quota := min (bitsOf x 57 49) 256, age := e.age, entry := entry }
    .ok ((if (t.g a).getLsbD 62 then s else s.releaseWindow c).overflowCheck t.id.part t.id.gid)) s

/-- UNBIND (R204). -/
def execUnbind (c : Fin 64) (s : State) : Out :=
  issue {} (fun s => .ok (s.upd fun t => (t.issued []).updChan c fun e => { e with bound := false })) s

/-- CHMASK (R205): all selected channels in one step. -/
def execChmask (a b : GReg) (s : State) : Out :=
  issue { regs := [.g a, .g b], reads := [.g a, .g b] } (fun s => .ok (s.upd fun t =>
    let x := t.g a
    let y := t.g b
    let t := t.issued [.g a, .g b]
    let set (c : Fin 64) (e : Channel) : Channel := if y.getLsbD c.val then { e with mask := x.getLsbD c.val } else e
    { t with inb := { t.inb with chans := Vector.ofFn fun c => set c (t.inb.chans.get c) } })) s

/-- The current message's slot, none where there is none (R209). -/
def Tile.current (t : Tile) : Option Slot :=
  match t.ex.curSlot with
  | some k => t.inb.slots.find? fun x => decide (x.slot = k)
  | none => none

/-- Frees the current message, if there is one (R207). -/
def Tile.freeCurrent (t : Tile) : Tile :=
  match t.current with
  | some x => { t.freeSlot x with ex := { t.ex with curSlot := none } }
  | none => { t with ex := { t.ex with curSlot := none } }

/-- The activation ends (R207): the status word, and the finish of the virtual tile. -/
def Tile.endActivation (t : Tile) (fin : Option W32) (now : Nat) : Tile :=
  { t with
    ex := { t.ex with inh := false, chan := 0, prv := false, curSlot := none }
    pl := { t.pl with idleSince := now, finished := t.pl.finished || fin.isSome, status := fin.getD t.pl.status } }

/-- DONE (R207): KEEP and FINAL together trap ILLEGAL. The selector then chooses (R264). -/
def execDone (a : GReg) (fin keep : Bool) (s : State) : Out :=
  issue { regs := [.g a], reads := [.g a] } (fun s => do
    let t := s.tile
    failIf (fin && keep || !t.ex.inh) (.cause 0x01 (instrWord (.done a fin keep)))
    let s := s.upd fun t =>
      let st : Option W32 := if fin then some ((t.g a).truncate 32) else none
      let t := t.issued [.g a]
      (if keep then t else t.freeCurrent).endActivation st s.fab.time
    .ok (s.select true)) s

/-- The code of a message kind (R208). -/
def MsgKind.code : MsgKind → Nat
  | .send => 0 | .sendv => 1 | .call => 2 | .host => 3

/-- The metadata word of an inbox slot (R208). -/
def Slot.word (x : Slot) : Word :=
  w64 (2 ^ 63 + x.kind.code * 2 ^ 61 + x.rfs.toNat * 2 ^ 60 + x.seqno.toNat * 2 ^ 32 + x.chan.val * 2 ^ 24 + x.src.toNat)

/-- INRD (R208): counts in LD; arrival 4 (R241). A CUR with a non-zero slot field traps ILLEGAL. Where the metadata
of the slot is uncorrectable, ECC follows (R386), with the address of the slot (log 82, DESIGN CHOICE). -/
def execInrd (d a : GReg) (cur : Bool) (s : State) : Out :=
  issue { regs := [.g d, .g a], reads := [.g a], cls := some .ld } (fun s => do
    let t := s.tile
    failIf (cur && decide (a ≠ 0)) (.cause 0x01 (instrWord (.inrd d a cur)))
    let x := if cur then t.current else t.inb.slots.find? fun x => decide (x.slot.val = (t.g a).toNat % 256)
    let v : Word := match x with
      | some x => x.word
      | none => 0
    let slot := if cur then x.map fun y => y.slot.val else some ((t.g a).toNat % 256)
    let lost := slot.filter fun k => t.inb.bad.contains (metaWord k)
    .ok ((s.upd fun t =>
      let o : OutLoad :=
        { stamp := t.ops.stamp, kind := .timed (t.iss.cycle + 3) false
          elems := [{ reg := .g d, lane := 0, va := 0, pa := 0, bytes := 8, val := some v }]
          regs := [.g d], hs := 0, issued := t.iss.cycle, aclass := 10
          ecc := lost.map fun k => (0, BitVec.ofNat 64 (2 ^ 60 + 0x08000000 + 64 * k), none) }
      let t := t.issued [.g a]
      { t with ops := { t.ops with stamp := t.ops.stamp + 1, loads := t.ops.loads ++ [o] } }).tileUncIf lost.isSome)) s

/-- INSKIP (R209): frees the current message; the channel's next oldest becomes current. Result latency 2 (R241). -/
def execInskip (d : GReg) (s : State) : Out :=
  issue { regs := [.g d] } (fun s => .ok (s.upd fun t =>
    let t := t.issued []
    match t.current with
    | none => t.result 2 (.g d 0)
    | some _ =>
      let t := t.freeCurrent
      match t.oldest t.ex.chan with
      | some y => { t with ex := { t.ex with curSlot := some y.slot } }.result 2 (.g d 1)
      | none => t.result 2 (.g d 0))) s

end Sys2Proof.Machine
end

