-- ==== Sys2Proof/Machine/Counter.lean ====
section
/-! DEFINITION. The counter instructions as they issue (R210 to R217): CADD, CEXP, CSET, CRD and CWAIT. The engine applies them
in the events of EventSync. -/

namespace Sys2Proof.Machine

/-- The serials of the host writes of an ASID that stand in a port's queue (R292). -/
def State.hostQueue (s : State) (asid : Nat) : List Nat :=
  s.host.ports.toList.flatMap fun p => (p.writes.filter fun w => decide (w.asid = asid)).map fun w => w.serial

/-- Whether one of the listed host writes has not been performed. -/
def State.hostPending (s : State) (l : List Nat) : Bool :=
  s.host.ports.toList.any fun p => p.writes.any fun w => l.contains w.serial

/-- The checks of an instruction that operates on a counter (R197, R210, R219). -/
def State.checkCounter (s : State) (i : Instr) (id : W32) : Except Stop Unit := do
  failIf (decide (id = 0)) (.cause 0x01 (instrWord i))
  s.checkCtr id 10

/-- A counter operation issues (R32): it enters MS, and its request leaves for the counter's home. -/
def State.issueCtr (s : State) (reads : List RegName) (id : W32) (k : MsKind) (rel : Bool) : State :=
  let st := s.tile.ops.stamp
  let s := s.upd fun t => ((t.event 44 1).issued reads).pushMs k rel 0
  s.injectReqs st [Config.engineSite (s.ctrEngine s.tile.gang.asid id)]

/-- CADD (R212). -/
def execCadd (a b : GReg) (sc : Scope) (rel : Bool) (s : State) : Out :=
  issue { regs := [.g a, .g b], reads := [.g a, .g b], cls := some .ms } (fun s => do
    let id := ctrId (s.tile.g a)
    s.checkCounter (.cadd a b sc rel) id
    .ok (s.issueCtr [.g a, .g b] id (.cadd id (s.tile.g b)) rel)) s

/-- CEXP (R213). -/
def execCexp (a b : GReg) (s : State) : Out :=
  issue { regs := [.g a, .g b], reads := [.g a, .g b], cls := some .ms } (fun s => do
    let id := ctrId (s.tile.g a)
    s.checkCounter (.cexp a b) id
    .ok (s.issueCtr [.g a, .g b] id (.cexp id ((s.tile.g b).truncate 32)) false)) s

/-- CSET (R214). -/
def execCset (a b : GReg) (s : State) : Out :=
  issue { regs := [.g a, .g b], reads := [.g a, .g b], cls := some .ms } (fun s => do
    let id := ctrId (s.tile.g a)
    s.checkCounter (.cset a b) id
    .ok (s.issueCtr [.g a, .g b] id (.cset id (s.tile.g b)) false)) s

/-- CRD (R215): it counts in LD; the engine reads the counter later. -/
def execCrd (d a : GReg) (pend : Bool) (s : State) : Out :=
  issue { regs := [.g d, .g a], reads := [.g a], cls := some .ld } (fun s => do
    let id := ctrId (s.tile.g a)
    failIf (decide (id = 0)) (.cause 0x01 (instrWord (.crd d a pend)))
    let st := s.tile.ops.stamp
    let s := s.upd fun t =>
      let o : OutLoad :=
        { stamp := st, kind := .crd id pend, elems := [{ reg := .g d, lane := 0, va := 0, pa := 0, bytes := 8, val := none }]
          regs := [.g d], hs := 0, issued := t.iss.cycle, aclass := 10, ecc := none }
      let t := (t.event 44 1).issued [.g a]
      { t with ops := { t.ops with stamp := st + 1, loads := t.ops.loads ++ [o] } }
    .ok (s.injectReqs st [Config.engineSite (s.ctrEngine s.tile.gang.asid id)])) s

/-- CWAIT holds the tile (R216): the request leaves, with its deadline (R217), and the cycle counts event 14. -/
def State.startCwait (s : State) (id : W32) (thr : Word) (nopend : Bool) (texp : Nat) : State :=
  let st := s.tile.ops.stamp
  let c : CwState :=
    { ctr := id, thr := thr, nopend := nopend, stamp := st
      deadline := if texp = 0 then none else some (s.tileTime + 2 ^ texp)
      sent := true, queued := false, released := false, acquired := none }
  let s := s.upd fun t =>
    { t.nextStamp with ex := { t.nextStamp.ex with cw := some c, withdrawn := none }, pl := { t.nextStamp.pl with idleSince := s.fab.time } }
  (s.injectReqs st [Config.engineSite (s.ctrEngine s.tile.gang.asid id)]).stall 14

/-- CWAIT (R216): a first execution sends the request; the tile then holds, until the release has reached the NI and the host
writes that an acquire at HOST scope awaits have been performed (R292). At the barrier boundary that a shedding gang waits for, whether the
tile arrives or holds, the gang's stop begins instead, before the CWAIT can trap THROTTLE (R361). -/
def execCwait (a b : GReg) (sc : Scope) (acq nopend : Bool) (texp : Fin 32) (s : State) : Out :=
  match s.tile.ex.cw with
  | some c =>
    if s.atShedBarrier c.ctr then .next s.shedHere
    else
    match c.acquired with
    | none => .next (s.stall 14)
    | some l =>
      if acq && decide (sc = .host) && s.hostPending l then .next (s.stall 14)
      else .next (s.upd fun t =>
        let t := (t.event 44 1).issued [.g a, .g b]
        { t with ex := { t.ex with cw := none } })
  | none =>
    issue { regs := [.g a, .g b], reads := [.g a, .g b] } (fun s => do
      let id := ctrId (s.tile.g a)
      failIf (decide (id = 0)) (.cause 0x01 (instrWord (.cwait a b sc acq nopend texp)))
      failIf (!s.atShedBarrier id && (s.throttle 1 id 10).toOption.isNone) (.cause 0x0A (w64 (2 ^ 32 + id.toNat)) 10)
      .ok (if s.atShedBarrier id then s.shedHere else s.startCwait id (s.tile.g b) nopend texp.val)) s

end Sys2Proof.Machine
end

