-- ==== Sys2Proof/Machine/Own.lean ====
section
/-! DEFINITION. Ownership hand-over, range handles and fences as they issue (R229 to R235): HANDOVER, HSET, FENCE, FENCEA; and
the pages of a range, which copies and mode changes use too. -/

namespace Sys2Proof.Machine

/-! ## Pages of a range -/

/-- The page-table leaves that map a range, in ascending order, up to the first address that none maps (R187, R229). The first
argument bounds the pages. -/
def State.mapRange (s : State) (a stop : Nat) : Nat → Nat → List TlbEntry × Option Nat
  | 0, _ => ([], none)
  | n + 1, va =>
    if va ≥ stop then ([], none)
    else
      match s.walk a va with
      | none => ([], some va)
      | some e =>
        let r := State.mapRange s a stop n (e.va + e.size)
        (e :: r.1, r.2)

/-- The pages of n bytes from va upward. -/
def State.pagesOf (s : State) (a va n : Nat) : List TlbEntry × Option Nat :=
  s.mapRange a (va + n) (n / 65536 + 2) va

/-- The lowest address of a range that lies in a page. -/
def TlbEntry.lowest (e : TlbEntry) (va : Nat) : Nat := max e.va va

/-- The translation that the current tile's NI has at hand for an address (R284, R340): that of the micro-TLB, or one that has been fetched
for the access at issue, which may need more than the micro-TLB has entries (log 24, DESIGN CHOICE). -/
def Tile.atHand (t : Tile) (va : Nat) : Option TlbEntry :=
  (t.held va).or (t.ni.got.find? fun e => decide (e.asid = t.gang.asid ∧ e.va ≤ va ∧ va < e.va + e.size))

/-- The translations at hand that map a range, in ascending order, up to the first address for which none is. The first argument bounds
the pages. -/
def Tile.handRange (t : Tile) (stop : Nat) : Nat → Nat → List TlbEntry × Option Nat
  | 0, _ => ([], none)
  | n + 1, va =>
    if va ≥ stop then ([], none)
    else
      match t.atHand va with
      | none => ([], some va)
      | some e =>
        let r := Tile.handRange t stop n (e.va + e.size)
        (e :: r.1, r.2)

/-- The translations at hand of n bytes from va upward (R187, R284). -/
def Tile.handPages (t : Tile) (va n : Nat) : List TlbEntry × Option Nat := t.handRange (va + n) (n / 65536 + 2) va

/-- Where no translation is at hand for an address of a range (R187, R229, R284): the access waits for it, and traps where the walk has said
that no leaf maps it (R340). -/
def State.checkGap (s : State) (gap : Option Nat) (trap : Nat → Stop) : Except Stop Unit :=
  match gap with
  | none => .ok ()
  | some va =>
    .error (if va ≥ 2 ^ 56 ∨ (s.tile.ni.noLeaf.contains va ∧ (s.walk s.tile.gang.asid va).isNone) then trap va else .miss 22 [va])

/-- The range of a handle (R14), which ends with the address space. -/
def Handle.span (h : Handle) : Nat := min (h.base.toNat + h.len.toNat) (2 ^ 56) - h.base.toNat

/-! ## HANDOVER -/

/-- The checks of HANDOVER (R229), in the order of R37, with the PERM of a system counter before that of a page (R210). The wait for a mode
change comes before all of them (log 70, DESIGN CHOICE). -/
def State.checkHandover (s : State) (ga : Word) (h : Handle) (id : W32) (read : Bool) : Except Stop Unit := do
  let t := s.tile
  let base := h.base.toNat
  let len := h.span
  let (pages, gap) := t.handPages base len
  failIf (decide (len ≠ 0) && s.modePending t.gang.asid base len) (.wait 22)
  failIf (decide (id ≠ 0) && (s.throttle 0 id 10).toOption.isNone) (.cause 0x0A (id.zeroExtend 64) 10)
  failIf (decide (base % 65536 ≠ 0 ∨ h.len.toNat % 65536 ≠ 0)) (.cause 0x04 (w64 base) 10)
  s.checkGap gap fun va => .cause 0x06 (w64 va) 10
  failIf (!read && !inGrid t.gang.rows t.gang.cols (bitsOf ga.toNat 23 0)) (.cause 0x06 ga 10)
  failIf (sysCtr id) (.cause 0x07 (id.zeroExtend 64) 10)
  match pages.find? fun e => decide (e.va < base ∨ base + len < e.va + e.size) with
  | some e => .error (.cause 0x07 (w64 e.va) 10)
  | none =>
    match pages.find? fun e => !permits e.perms t.ex.prv .handover with
    | some e => .error (.cause 0x07 (w64 e.va) 10)
    | none =>
      match pages.find? fun e => decide (t.modeFor e e.va ≠ (0, t.id.vt)) with
      | some e => .error (.cause 0x08 (w64 e.va) 10)
      | none => .ok ()

/-- HANDOVER (R229, R230): it enters MS and the counts of the handles that overlap its range. -/
def execHandover (h : HReg) (a b : GReg) (read : Bool) (s : State) : Out :=
  let r := s.tile.regs.h.get h
  let hs := s.tile.handlesOf [(r.base.toNat, r.len.toNat)]
  issue { regs := [.g a, .g b], reads := [.g a, .g b], cls := some .ms, hs := hs } (fun s => do
    let ga := s.tile.g a
    let id := ctrId (s.tile.g b)
    s.checkHandover ga r id read
    .ok (s.upd fun t => ((t.issued [.g a, .g b]).usePages r.base.toNat r.span).pushMs
      (.handover h r.base.toNat r.span (bitsOf ga.toNat 23 0) read id) false hs)) s

/-! ## Handles and fences -/

/-- HSET (R233): waits until the handle's count is 0. -/
def execHset (h : HReg) (a b : GReg) (s : State) : Out :=
  issue { regs := [.g a, .g b], reads := [.g a, .g b] } (fun s => do
    failIf (decide (s.tile.hcount h.val ≠ 0)) (.wait 22)
    .ok (s.upd fun t =>
      let x : Handle := ⟨t.g a, t.g b⟩
      let t := t.issued [.g a, .g b]
      { t with regs := { t.regs with h := t.regs.h.set h.val x h.isLt } })) s

/-- A fence whose release wait is met (R234, R292): an acquire at HOST scope holds until the host writes have been performed that were
accepted before its acquire point, which may have been in an earlier cycle. -/
def fenceAcquire (host : Bool) (s : State) : Out :=
  if !host then .next (s.upd fun t => t.issued [])
  else
    let l := s.tile.ex.acqWait.getD (s.hostQueue s.tile.gang.asid)
    if s.hostPending l then
      .next ((s.upd fun t => { t with ex := { t.ex with acqWait := some l } }).stall 13)
    else .next (s.upd fun t =>
      let t := t.issued []
      { t with ex := { t.ex with acqWait := none } })

/-- FENCE (R234): role 0 and an empty set trap ILLEGAL. -/
def execFence (acq rel : Bool) (sc : Scope) (hs : BitVec 8) (s : State) : Out :=
  if !(acq || rel) || decide (hs = 0) then
    issue {} (fun _ => .error (.cause 0x01 (instrWord (.fence acq rel sc hs)))) s
  else if rel && (List.range 8).any (fun k => hs.getLsbD k && decide (s.tile.hcount k ≠ 0)) then .next (s.stall 13)
  else fenceAcquire (acq && decide (sc = .host)) s

/-- Whether every class count and every handle count is zero (R235); handle counts count operations of the classes. -/
def Tile.allZero (t : Tile) : Bool :=
  decide (t.count .ld = 0 ∧ t.count .st = 0 ∧ t.count .cp = 0 ∧ t.count .mx = 0 ∧ t.count .ms = 0) &&
  (List.range 8).all fun k => decide (t.hcount k = 0)

/-- FENCEA (R235): role 0 traps ILLEGAL. -/
def execFencea (acq rel : Bool) (sc : Scope) (s : State) : Out :=
  if !(acq || rel) then issue {} (fun _ => .error (.cause 0x01 (instrWord (.fencea acq rel sc)))) s
  else if !s.tile.allZero then .next (s.stall 13)
  else fenceAcquire (acq && decide (sc = .host)) s

/-- Whether an instruction is a fence that acquires at HOST scope and whose wait for its counts is met (R234, R235). -/
def Tile.acquires (t : Tile) (i : Instr) : Bool :=
  match i with
  | .fence acq rel sc hs => acq && decide (sc = .host ∧ hs ≠ 0) && !(rel && (List.range 8).any fun k => hs.getLsbD k && decide (t.hcount k ≠ 0))
  | .fencea acq _ sc => acq && decide (sc = .host) && t.allZero
  | _ => false

end Sys2Proof.Machine
end

