-- ==== Sys2Proof/Machine/Copy.lean ====
section
/-! DEFINITION. The copies as they issue (R187 to R193): CPIN, CPOUT, CPDEAL and CPT; their units (R294) and the geometry of a
deal (R191); and WAIT (R195). The bytes move in the events of EventCopy. -/

namespace Sys2Proof.Machine

/-! ## Ranges -/

/-- The physical base of each 64 KiB page of a range. -/
def pageBases (l : List TlbEntry) (va n : Nat) : List (Nat × Nat) :=
  (upFrom (va / 65536) ((va + n + 65535) / 65536 - va / 65536)).filterMap fun p =>
    (l.find? fun e => decide (e.va ≤ p * 65536 ∧ p * 65536 < e.va + e.size)).map fun e => (p, e.pa + (p * 65536 - e.va))

/-- The checks of a copy's global range (R187), against the translations that the NI has (R284): a pending mode change and absent
translations wait; then XLATE, the PERM of a system counter (R210), PERM, MMODEL, each at its lowest address. -/
def State.checkRange (s : State) (k : AccessKind) (ids : List W32) (va n : Nat) : Except Stop (List (Nat × Nat)) := do
  let t := s.tile
  let fail (c : Nat) (x : Word) : Except Stop (List (Nat × Nat)) := .error (.cause c x 8)
  failIf (decide (n ≠ 0) && s.modePending t.gang.asid va n) (.wait 22)
  let (pages, gap) := t.handPages va n
  s.checkGap gap fun a => .cause 0x06 (w64 a) 8
  match ids.find? sysCtr with
  | some id => fail 0x07 (id.zeroExtend 64)
  | none =>
    match pages.find? fun e => !permits e.perms t.ex.prv k with
    | some e => fail 0x07 (w64 (e.lowest va))
    | none =>
      match pages.find? fun e => !admits (t.modeFor e (e.lowest va)).1 ((t.modeFor e (e.lowest va)).2 == t.id.vt) k with
      | some e => fail 0x08 (w64 (e.lowest va))
      | none => .ok (pageBases pages va n)

/-- The check of a copy's range that waits (R253): the wait of the named shingle, where it applies too, is counted before it. -/
def waitsFirst {α : Type} (range : Except Stop α) (sh : Except Stop Unit) : Except Stop α :=
  match range, sh with
  | .error (.wait a), .error (.wait b) => .error (.wait (firstStall [a, b]))
  | .error (.miss a l), .error (.wait b) => .error (.miss (firstStall [a, b]) l)
  | r, _ => r

/-- The THROTTLE checks of the counters that a copy names, in order (R219). -/
def State.throttleCopy (s : State) (ids : List W32) : Except Stop Unit :=
  match ids.find? fun id => decide (id ≠ 0) && (s.throttle 0 id 8).toOption.isNone with
  | some id => .error (.cause 0x0A (id.zeroExtend 64) 8)
  | none => .ok ()

/-- The virtual address of a copy operand (R187). -/
def copyVa (x : Word) : Nat := bitsOf x.toNat 55 0

/-- The shingle number of a copy operand (R187). -/
def copySh (x : Word) : Fin 64 := Fin.ofNat 64 (bitsOf x.toNat 61 56)

/-- Adds an operation of class CP under the next stamp. -/
def Tile.pushCopy (t : Tile) (c : OutCopy) : Tile :=
  let t := if c.pages.isEmpty then t else t.usePages c.va c.len
  { t with ops := { t.ops with stamp := t.ops.stamp + 1, copies := t.ops.copies ++ [{ c with stamp := t.ops.stamp }] } }

/-- The host writes that an acquire at HOST scope awaits (R292). -/
def State.acquireList (s : State) (acq : Bool) (sc : Scope) : List Nat :=
  if acq && decide (sc = .host) then s.hostQueue s.tile.gang.asid else []

/-- The current tile's NI asks the streamers of a copy's pages for its bytes (R296); the copy has issued last. -/
def State.askStacks (s : State) (pages : List (Nat × Nat)) : State :=
  s.injectReqs (s.tile.ops.stamp - 1) ((pages.map fun p => stackOf p.2).eraseDups)

/-- With XP, the issuing tile adds the total to the counter's pending bytes (R188). -/
def State.expect (s : State) (xp : Bool) (id : W32) (total : Nat) : State :=
  if xp then s.credit s.tile.gang.asid id 0 total else s

/-! ## CPIN and CPOUT -/

/-- CPIN (R189). -/
def execCpin (a b : GReg) (sc : Scope) (acq xp : Bool) (s : State) : Out :=
  let n := copySh (s.tile.g a)
  let va := copyVa (s.tile.g a)
  let id := ctrId (s.tile.g b)
  let l := bitsOf (s.tile.g b).toNat 51 32
  let len := if l ≠ 0 then l else (match s.tile.sh n with
    | some x => x.len * 64
    | none => 0)
  let hs := s.tile.handlesOf [(va, len)]
  issue { regs := [.g a, .g b], reads := [.g a, .g b], cls := some .cp, hs := hs } (fun s => do
    s.throttleCopy [id]
    let pages ← waitsFirst (s.checkRange .copyIn [id] va len) (do
      let x ← s.tile.namedTraps n .fill 8
      s.tile.namedWaits n x .fill)
    let x ← s.tile.namedTraps n .fill 8
    extentTrap n x len 8
    s.tile.namedWaits n x .fill
    let wait := s.acquireList acq sc
    .ok ((s.upd fun t =>
      let st := t.ops.stamp
      let t := ((t.issued [.g a, .g b]).pushCopy
        { stamp := 0, kind := .cpin, sh := n, va := va, len := len, pages := pages, ctr := id, vis := 0, flag := false
          hostWait := wait, buf := [], bad := [], units := [], left := len, released := false, visible := false, ecc := none, hs := hs }).startFill n id
      { t with ops := { t.ops with fills := t.ops.fills ++ [⟨.copy t.id.vt st 0, n, len, len, []⟩] } }).expect xp id len |>.askStacks pages)) s

/-- The bytes of a CPOUT leave for their streamers, but for those that the NI holds (R305). -/
def State.sendUnits (s : State) (c : OutCopy) : State :=
  s.injectReqs c.stamp ((c.starts.map fun k => stackOf (c.pa (c.va + k))).eraseDups)

/-- The bytes of a copy that reads a shingle, with the words that are uncorrectable, as offsets over 8 (R386). -/
def Tile.badWords (t : Tile) (base n : Nat) : List Nat :=
  (List.range ((n + 7) / 8)).filter fun k => t.pad.bad.contains (base / 8 + k)

/-- The uncorrectable words of a CPOUT, CPT or MSWAP source (R386): one read that meets several counts 1 (log 44, DESIGN CHOICE), and ECC
becomes due with array 0, the lowest of them and ACLASS 8. -/
def State.sourceEcc (s : State) (base : Nat) (bad : List Nat) : State :=
  match bad with
  | [] => s
  | k :: _ => (s.upd fun t => t.trapDue ⟨0x0B, w64 (base + 8 * k), 8, none, false⟩).tileUnc

/-- CPOUT (R190): the bytes to drain are those of the shingle at issue, since nothing may change them while it is DRAINING. -/
def execCpout (a b : GReg) (_sc : Scope) (rel : Bool) (s : State) : Out :=
  let n := copySh (s.tile.g a)
  let va := copyVa (s.tile.g a)
  let rc := ctrId (s.tile.g b)
  let vc := ctrId (s.tile.g b >>> 32)
  let len := match s.tile.sh n with
    | some x => x.wmark
    | none => 0
  let hs := s.tile.handlesOf [(va, len)]
  issue { regs := [.g a, .g b], reads := [.g a, .g b], cls := some .cp, hs := hs } (fun s => do
    s.throttleCopy [rc, vc]
    let pages ← waitsFirst (s.checkRange .copyOut [rc, vc] va len) (do
      let x ← s.tile.namedTraps n .drain 8
      s.tile.namedWaits n x .drain)
    let x ← s.tile.namedTraps n .drain 8
    s.tile.namedWaits n x .drain
    let bad := s.tile.badWords x.base len
    let c : OutCopy :=
      { stamp := s.tile.ops.stamp, kind := .cpout, sh := n, va := va, len := len, pages := pages, ctr := rc, vis := vc, flag := rel
        hostWait := [], buf := Memory.write [] 0 (Memory.bytes s.tile.pad.bytes x.base len), bad := bad, units := [], left := 0
        released := false, visible := false, ecc := none, hs := hs }
    let s := s.upd fun t => ((t.issued [.g a, .g b]).pushCopy c).setSh n (some { x with st := .draining, dctr := rc })
    .ok ((s.sendUnits c).sourceEcc x.base bad)) s

/-! ## CPDEAL and CPT -/

/-- The number of recipients of a deal (R191). -/
def Deal.count (d : Deal) : Nat := d.rows * d.cols

/-- The virtual tile of a recipient (R191). -/
def Deal.recipient (d : Deal) (t : Nat) : Nat :=
  if d.colOrder then (d.row0 + t % d.rows) * 4096 + (d.col0 + t / d.rows)
  else (d.row0 + t / d.cols) * 4096 + (d.col0 + t % d.cols)

/-- The bytes of a range of T that go to a recipient (R191). -/
def Deal.share (d : Deal) (total t : Nat) : Nat :=
  (List.range ((total + d.block - 1) / d.block)).foldl (fun n b =>
    if b % d.count = t then n + (min ((b + 1) * d.block) total - b * d.block) else n) 0

/-- The recipient of a byte of a deal's range (R191). -/
def Deal.owner (d : Deal) (y : Nat) : Nat := y / d.block % d.count

/-- The range offset of byte x of a recipient's fill (R191). -/
def Deal.source (d : Deal) (t x : Nat) : Nat := (x / d.block * d.count + t) * d.block + x % d.block

/-- The remote fills that a copy sends leave for their recipients (R192), translated by the party that sends them (R322). -/
def State.sendFills (s : State) (tr stamp : Nat) (sh : Fin 64) (ctr : W32) (l : List (Nat × Nat × Nat)) : State :=
  l.foldl (fun s r =>
    let dst : TileId := { s.tile.id with vt := r.2.1 }
    { s with fab := { s.fab with
      serial := s.fab.serial + 1
      remotes := s.fab.remotes ++
        [⟨s.fab.serial, dst, s.tile.id.vt, stamp, r.1, sh, r.2.2, ctr, s.seen dst tr, false⟩] } }) s

/-- CPDEAL (R191): each recipient with a block receives a remote fill, sent by the streamer of the range's first page. -/
def execCpdeal (a b : GReg) (sc : Scope) (acq xp : Bool) (s : State) : Out :=
  let va := copyVa (s.tile.g a)
  let id := ctrId (s.tile.g b)
  let total := bitsOf (s.tile.g b).toNat 63 40
  let hs := s.tile.handlesOf [(va, total)]
  match s.tile.gang.prog.deals[bitsOf (s.tile.g b).toNat 39 32]? with
  | none =>
    issue { regs := [.g a, .g b], reads := [.g a, .g b] } (fun _ =>
      .error (.cause 0x01 (instrWord (.cpdeal a b sc acq xp)))) s
  | some d =>
    if total = 0 then
      issue { regs := [.g a, .g b], reads := [.g a, .g b] } (fun s => .ok (s.upd fun t => t.issued [.g a, .g b])) s
    else
      issue { regs := [.g a, .g b], reads := [.g a, .g b], cls := some .cp, hs := hs } (fun s => do
        s.throttleCopy [id]
        let pages ← s.checkRange .copyIn [id] va total
        let wait := s.acquireList acq sc
        let st := s.tile.ops.stamp
        let fills := (List.range d.count).filterMap fun t =>
          if d.share total t = 0 then none else some (t, d.recipient t, d.share total t)
        let s := s.upd fun t => (t.issued [.g a, .g b]).pushCopy
          { stamp := 0, kind := .cpdeal d, sh := copySh (t.g a), va := va, len := total, pages := pages, ctr := id, vis := 0
            flag := false, hostWait := wait, buf := [], bad := [], units := [], left := total, released := false
            visible := false, ecc := none, hs := hs }
        let stack := match pages with
          | p :: _ => p.2 / 2 ^ 36
          | [] => 0
        .ok (((s.sendFills (streamerTr stack) st (copySh (s.tile.g a)) id fills).expect xp id total).askStacks pages)) s

/-- CPT (R193): XLATE for a destination outside the grid; the source is held until it has been read. -/
def execCpt (a b : GReg) (xp : Bool) (s : State) : Out :=
  issue { regs := [.g a, .g b], reads := [.g a, .g b], cls := some .cp } (fun s => do
    let w := (s.tile.g a).toNat
    let dst := bitsOf w 23 0
    let rsh : Fin 64 := Fin.ofNat 64 (bitsOf w 29 24)
    let n : Fin 64 := Fin.ofNat 64 (bitsOf w 37 32)
    let id := ctrId (s.tile.g b)
    s.throttleCopy [id]
    failIf (!inGrid s.tile.gang.rows s.tile.gang.cols dst) (.cause 0x06 (s.tile.g a) 8)
    failIf (sysCtr id) (.cause 0x07 (id.zeroExtend 64) 8)
    let x ← s.tile.namedTraps n .read 8
    s.tile.namedWaits n x .read
    let st := s.tile.ops.stamp
    let len := x.wmark
    let bad := s.tile.badWords x.base len
    let s := s.upd fun t => (t.issued [.g a, .g b]).pushCopy
      { stamp := 0, kind := .cpt, sh := n, va := 0, len := len, pages := [], ctr := id, vis := 0, flag := false
        hostWait := [], buf := [], bad := bad, units := [], left := len, released := decide (len = 0), visible := false, ecc := none
        hs := 0 }
    .ok (((s.sourceEcc x.base bad).sendFills s.tile.pl.phys st rsh id [(0, dst, len)]).expect xp id len)) s

/-! ## WAIT -/

/-- Whether a class count is at or below a field of WAIT; 15 means no limit (R195). -/
def waitMet (count : Nat) (f : Fin 16) : Bool := decide (f.val = 15 ∨ count ≤ f.val)

/-- WAIT (R195): it issues when every class count is at or below its field. -/
def execWait (ld st cp mx ms : Fin 16) (s : State) : Out :=
  issue {} (fun s => do
    let t := s.tile
    failIf (!(waitMet (t.count .ld) ld && waitMet (t.count .st) st && waitMet (t.count .cp) cp && waitMet (t.count .mx) mx &&
      waitMet (t.count .ms) ms)) (.wait 12)
    .ok (s.upd fun t => t.issued [])) s

end Sys2Proof.Machine
end

