-- ==== Sys2Proof/Machine/EventTile.lean ====
section
/-! DEFINITION. The steps of a tile beside its instructions: fetch and its faults (R24, R36, R38, R78, R386), asynchronous traps
(R39), the end of a cycle (R238, R251), arrivals (R34), stores (R112), accesses at their homes (R278, R305, R387), translation
(R340), and clock steps and fetch duty (R249, R250). An event that is not due leaves the state as it is. -/

namespace Sys2Proof.Machine

/-! ## Fetch -/

/-- What stands at the PC. -/
inductive Fetched where
  | ok (i : Instr)
  | unassigned (w : W32) (second : Option W32)
  | fault (addr : Word) (ecc : Bool)
deriving DecidableEq, Repr, Inhabited

/-- Why a word cannot be fetched (R24, R104, R386): misaligned or outside the code segment, or uncorrectable. -/
def Tile.fetchBad (t : Tile) (a : Word) : Option Bool :=
  if a.toNat % 4 ≠ 0 ∨ a.toNat ≥ t.regs.shbase.toNat then some false
  else if t.pad.bad.contains (a.toNat / 8) then some true else none

/-- The word at an address as fetch sees it: where a store has changed it lately, the old or the new one (R108), the one that the fetch of
the instruction at issue has seen if it has been fetched. -/
def Tile.fetchWord (t : Tile) (draw a : Nat) : W32 :=
  match t.pad.seen.find? fun e => decide (e.1 = a) with
  | some e => e.2
  | none =>
    match t.pad.old.find? fun e => decide (e.1 = a) with
    | some e => if Config.fetchSeesNew draw then Memory.word t.pad.bytes a else e.2.1
    | none => Memory.word t.pad.bytes a

/-- Whether the fetch at the PC makes a choice that R108 leaves open: it has not been made yet for the instruction at issue. -/
def Tile.fetchChoice (t : Tile) : Bool :=
  (t.pad.old.any fun e => decide (e.1 = t.ex.pc.toNat ∨ e.1 = t.ex.pc.toNat + 4)) &&
  !t.pad.seen.any fun e => decide (e.1 = t.ex.pc.toNat)

/-- The fetch at the PC makes its choice, for as long as the instruction stands at issue (R108), and two draws are used up (log 1, DESIGN
CHOICE). -/
def State.fetched (s : State) : State :=
  if s.tile.fetchChoice then
    let seen (k : Nat) : Nat × W32 := (s.tile.ex.pc.toNat + 4 * k, s.tile.fetchWord (s.drawn + k) (s.tile.ex.pc.toNat + 4 * k))
    { s.upd (fun t => { t with pad := { t.pad with seen := [seen 0, seen 1] } }) with drawn := s.drawn + 2 }
  else s

/-- Fetches the instruction at the PC (R24, R77, R78). -/
def Tile.fetch (t : Tile) (draw : Nat) : Fetched :=
  let pc := t.ex.pc
  match t.fetchBad pc with
  | some e => .fault pc e
  | none =>
    let w := t.fetchWord draw pc.toNat
    if w.toNat / 2 ^ 26 = 0x3E then
      match t.fetchBad (pc + 4) with
      | some e => .fault (pc + 4) e
      | none =>
        let v := t.fetchWord (draw + 1) (pc.toNat + 4)
        match decode (toBytes w.toNat 4 ++ toBytes v.toNat 4) with
        | .ok r => .ok r.1
        | .error _ => .unassigned w (some v)
    else
      match decode (toBytes w.toNat 4) with
      | .ok r => .ok r.1
      | .error _ => .unassigned w none

/-- Whether the words that stand at the PC are in the fetch buffer (R237, R247): the block of the first, and for a pair that of the
second; an address that no fetch reaches needs none. -/
def Tile.fetchReady (t : Tile) : Bool :=
  let has (a : Word) : Bool := decide (t.fetchBad a = some false) ||
    t.iss.fetch.blocks.any fun p => decide (p.1 = a.toNat / 32 ∧ p.2 ≤ t.iss.cycle)
  let head (w : W32) : Bool := decide (w.toNat / 2 ^ 26 = 0x3E)
  let pc := t.ex.pc
  let pair := head (Memory.word t.pad.bytes pc.toNat) || t.pad.old.any fun e => decide (e.1 = pc.toNat) && head e.2.1
  has pc && (!pair || has (pc + 4))

/-- Whether the current tile stands at an instruction boundary at which an instruction may issue in this cycle (R237, R253). -/
def Tile.atIssue (t : Tile) : Bool :=
  t.mayRun && !t.ni.paused && t.ex.inh && !t.ex.idle && t.iss.tail.isNone && !t.iss.ending && t.slotAllowed &&
  decide (t.iss.bubble ≤ t.iss.cycle) && t.fetchReady

/-- UNASSIGNED_ENCODING (R7, R37, R78): a TAIL that is reached alone traps ILLEGAL_TAIL, any other word or pair ILLEGAL. -/
def execUnassignedEncoding (w : W32) (second : Option W32) (s : State) : Out :=
  if s.tile.atIssue && decide (s.tile.fetch s.drawn = .unassigned w second) then
    let cause := if w.toNat / 2 ^ 26 = 0x3F then 0x02 else 0x01
    .next ((s.trapHere { cause := cause, tval := w64 (w.toNat + (second.getD 0).toNat * 2 ^ 32) }).upd Tile.fetchPassed)
  else .next s

/-- FETCH_FAULT (R24, R36, R78, R386): FETCH, or ECC on the fetch. A fault on the first fetch at TVEC ends the activation, and the
virtual tile finishes with the cause code (R38). -/
def execFetchFault (addr : Word) (ecc : Bool) (s : State) : Out :=
  if s.tile.atIssue && decide (s.tile.fetch s.drawn = .fault addr ecc) then
    let cause := if ecc then 0x0B else 0x05
    let s := s.tileUncIf ecc
    if s.tile.ex.tvecFetch then
      .next ((s.upd fun t =>
        let t := { t.freeCurrent with iss := { t.freeCurrent.iss with stall := some 3 } }
        t.endActivation (some (BitVec.ofNat 32 cause)) s.fab.time))
    else .next ((s.trapHere { cause := cause, tval := addr, aclass := 1 }).upd Tile.fetchPassed)
  else .next s

/-- ASYNCHRONOUS_TRAP (R39): the trap that became due first is taken at a boundary at U. -/
def execAsynchronousTrap (s : State) : Out :=
  let t := s.tile
  if t.mayRun && !t.ni.paused && t.iss.tail.isNone && !t.iss.ending then .next s.takePending else .next s

/-! ## The end of a cycle -/

/-- REGISTER_TO_REGISTER_WRITE (R238): at the end of the cycle in which it is due, a result is written. -/
def execRegisterToRegisterWrite (n : Nat) (s : State) : Out :=
  match s.tile.iss.writes[n]? with
  | none => .next s
  | some w =>
    if s.tile.iss.ending && decide (w.due ≤ s.tile.iss.cycle) then
      .next (s.upd fun t => { t with iss := { t.iss with writes := dropNth t.iss.writes n } }.applyWrite w)
    else .next s

/-- The operation at the head of the engine's queue (R165). -/
def Tile.mxHead (t : Tile) : Option MxOp := t.ops.mx.find? fun o => match o.kind with
  | .mswap _ _ | .mjoin _ => false
  | .mloadb | .mzero | .mma | .mmat _ _ _ | .macc2s _ _ _ | .ms2acc _ => true

/-- Whether the engine's head operation has started and its last busy cycle has not passed. -/
def Tile.mxBusy (t : Tile) : Bool := match t.mxHead with
  | some o => (match o.doneAt with
    | some d => decide (t.iss.cycle ≤ d)
    | none => false)
  | none => false

/-- Whether the engine waits for the A rows of its truss row (event 38). -/
def Tile.mxStarves (t : Tile) : Bool := match t.mxHead with
  | some o => o.doneAt.isNone && (match o.kind with
    | .mmat true false _ => o.rows.isNone
    | .mmat _ _ _ | .mloadb | .mzero | .mma | .macc2s _ _ _ | .ms2acc _ | .mswap _ _ | .mjoin _ => false)
  | none => false

/-- Whether the virtual tile holds at a CWAIT (R216, R324): until the release reaches its NI. -/
def Tile.holdsCw (t : Tile) : Bool := t.ex.cw.any fun c => c.acquired.isNone

/-- Whether the virtual tile runs in the sense of R324: an activation that neither IDLE nor a CWAIT holds. A pinned tile that does so counts
too in run(t) of R350 (log 78, DEDUCED). -/
def Tile.running (t : Tile) : Bool := t.mayRun && t.ex.inh && !t.ex.idle && !t.holdsCw

/-- The events of a counted cycle (R252, R253). -/
def Tile.countCycle (t : Tile) : Tile :=
  let t := t.event 0 1
  let t := match t.iss.stall with
    | some e => t.event e 1
    | none => t
  let run := t.running
  let t := (((((t.eventIf t.mxBusy 36).eventIf t.mxStarves 38).eventIf t.pl.pinned 61).eventIf (decide (2 ≤ t.ni.step.val)) 62).eventIf
    (decide (t.ni.step = 0)) 63).eventIf (decide (t.iss.refused ≠ 0)) 58
  { t with iss := { t.iss with refused := t.iss.refused - 1 }
           ni := { t.ni with runCycles := t.ni.runCycles + run.toNat, allCycles := t.ni.allCycles + 1
                             topStep := if t.ni.topStep < t.ni.step then t.ni.step else t.ni.topStep } }

/-- TILE_CYCLE (R251 to R253): the events of the cycle are counted, what the NI may send leaves (R198), and the end of the cycle
begins. -/
def execTileCycle (s : State) : Out :=
  if s.tile.counts && !s.tile.iss.ending then
    let s := s.upd fun t => { t.countCycle with iss := { t.countCycle.iss with ending := true } }
    .next (s.sendKept.sendReady s.tile.isSource)
  else .next s

/-- The cycle is over. -/
def Tile.endCycle (t : Tile) : Tile := { t with iss := { t.iss with cycle := t.iss.cycle + 1, stall := none, ending := false } }

/-- FETCHDUTY_UPDATE (R249): a new DUTY takes effect at the start of a window. -/
def execFetchdutyUpdate (s : State) : Out :=
  match s.tile.ni.dutyNext with
  | some d =>
    if s.tile.iss.cycle % 16 = 0 ∧ !s.tile.iss.ending then
      .next (s.upd fun t => { t with ni := { t.ni with duty := d, dutyNext := none } })
    else .next s
  | none => .next s

/-- STEP_CHANGE (R250, R348): at an instruction boundary the clock pauses, and the new step is applied; event 23. -/
def execStepChange (s : State) : Out :=
  match s.tile.ni.stepNext with
  | some k =>
    if s.tile.counts && s.tile.iss.tail.isNone && !s.tile.iss.ending then
      .next (s.upd fun t =>
        let t := t.event 23 1
        { t with ni := { t.ni with step := k, stepNext := none, paused := true } })
    else .next s
  | none => .next s

/-- STEP_PAUSE_END (R250): the clock resumes. What arrived meanwhile is written, and traps that became due are taken, from the
first cycle onward; a selection that fell due is made. -/
def execStepPauseEnd (s : State) : Out := .next ((s.upd fun t => { t with ni := { t.ni with paused := false } }).select false)

/-! ## Loads and stores -/

/-- The least arrival latency of a load of no fixed time (R239, R241). -/
def LoadKind.least : LoadKind → Nat
  | .timed _ _ => 0
  | .global _ | .atomic _ _ _ _ _ => 24
  | .crd _ _ => 16

/-- LOAD_ARRIVAL (R34, R38, R250): the data of a load is written, and it leaves its counts; with uncorrectable data, ECC becomes
due. A load of fixed time arrives at the end of its cycle. -/
def execLoadArrival (n : Nat) (s : State) : Out :=
  match s.tile.ops.loads[n]? with
  | none => .next s
  | some o =>
    let due := match o.kind with
      | .timed a _ => s.tile.iss.ending && decide (a ≤ s.tile.iss.cycle) && decide (s.tile.firstDue = some n)
      | .global _ | .atomic _ _ _ _ _ | .crd _ _ =>
        s.tile.counts && !s.tile.iss.ending && decide (o.issued + o.kind.least ≤ s.tile.iss.cycle) &&
        !s.answering o.stamp && o.elems.all fun e => e.val.isSome
    if due then .next (s.upd fun t => t.arrive n) else .next s

/-- GLOBAL_STORE_VISIBLE (R112, R387): a store whose every element has been performed and acknowledged leaves its counts; ECC becomes due
for the lowest element that met an uncorrectable word. -/
def execGlobalStoreVisible (n : Nat) (s : State) : Out :=
  match s.tile.ops.stores[n]? with
  | none => .next s
  | some o =>
    if (o.elems.all fun e => e.done) && !s.answering o.stamp then
      .next (s.upd fun t =>
        let t := { t with ops := { t.ops with stores := dropNth t.ops.stores n } }
        match o.ecc with
        | some (va, l) => t.trapDue ⟨0x0B, w64 (3 * 2 ^ 60 + va), 5, if o.vec then some l else none, false⟩
        | none => t)
    else .next s

/-! ## Accesses at their homes -/

/-- The lowest uncorrectable word that n bytes at a physical address use, if any. -/
def State.badHbm (s : State) (pa n : Nat) : Bool := (upFrom pa n).any fun a => s.mem.bad.contains (a / 8)

/-- The value of loaded bytes (R107, R126, R221). -/
def LoadExt.value (e : LoadExt) (n x : Nat) : Word :=
  match e with
  | .signed => extendBytes true n x
  | .zero => extendBytes false n x
  | .elem t => (fillElem t x).zeroExtend 64

/-- The lower of two failing addresses. -/
def lowerEcc (a : Option (Nat × Word × Option (Fin 64))) (va : Nat) (l : Option (Fin 64)) : Option (Nat × Word × Option (Fin 64)) :=
  match a with
  | some (v, x, k) => if v ≤ va then some (v, x, k) else some (va, w64 (3 * 2 ^ 60 + va), l)
  | none => some (va, w64 (3 * 2 ^ 60 + va), l)

/-- The lane that a load element names in a trap: that of a vector register. -/
def LoadElem.trapLane (e : LoadElem) : Option (Fin 64) := match e.reg with
  | .v _ => some e.lane
  | .g _ | .m _ => none

/-- Changes a load. -/
def Tile.updLoad (t : Tile) (n : Nat) (f : OutLoad → OutLoad) : Tile :=
  { t with ops := { t.ops with loads := mapNth f t.ops.loads n } }

/-- Element k of a global load is performed (R278), after earlier reads of the tile of its bytes (R290): its bytes are read at the home; an
uncorrectable word is met (R387). -/
def State.performLoad (s : State) (n k : Nat) (o : OutLoad) (e : LoadElem) (ext : LoadExt) : State :=
  if e.val.isSome || s.reqComingTo o.stamp (stackOf e.pa) || s.lineHeld o.stamp e.pa true || s.tile.readsFirst o.stamp e.pa e.bytes then s
  else
    let bad := s.badHbm e.pa e.bytes
    let v := ext.value e.bytes (Memory.nat s.mem.hbm e.pa e.bytes)
    let s := s.upd fun t => t.updLoad n fun o =>
      { o with elems := mapNth (fun e => { e with val := some v }) o.elems k
               ecc := if bad then lowerEcc o.ecc e.va e.trapLane else o.ecc }
    let rest := (dropNth o.elems k).any fun x => x.val.isNone && decide (x.pa / 64 = e.pa / 64)
    let s := if rest then s else s.respond s.tile.id o.stamp (stackOf e.pa)
    if bad then s.attUnc (stackOf e.pa) else s

/-- The word that CRD returns (R215); a counter that does not exist reads as zero. -/
def Counter.crdWord (c : Counter) (pend : Bool) : Word :=
  if pend then w64 (c.pend.toNat + c.psat.toNat * 2 ^ 32 + c.sat.toNat * 2 ^ 33 + (!c.waiters.isEmpty).toNat * 2 ^ 34)
  else c.value

/-- Whether an MS operation and a counter have an order at one engine (R211, R305): one that has not been applied comes first,
but for a REL-held one to another counter (R198). -/
def State.msBefore (s : State) (o : MsOp) (stamp engine : Nat) (ctr : Option W32) : Bool :=
  let t := s.tile
  let asid := t.gang.asid
  let held := o.rel && !t.releasedBefore o.stamp
  let onCtr (c : W32) : Bool := decide (s.ctrEngine asid c = engine) && (!held || decide (ctr = some c))
  !o.done && decide (o.stamp < stamp) && (match o.kind with
    | .cadd c _ | .cexp c _ | .cset c _ | .seal c _ _ => onCtr c
    | .red _ _ _ pa _ _ _ _ => decide (s.lineEngine asid pa = engine)
    | .msg | .handover _ _ _ _ _ _ => false)

/-- Whether an earlier numbered operation of the current tile has still to be applied at an engine (R305): MS operations, atomics
and the CWAIT request. -/
def State.numberedBefore (s : State) (stamp engine : Nat) (ctr : Option W32) : Bool :=
  let t := s.tile
  let asid := t.gang.asid
  t.ops.ms.any (fun o => s.msBefore o stamp engine ctr) ||
  t.ops.loads.any (fun o => decide (o.stamp < stamp) && (match o.kind with
    | .atomic _ _ _ _ _ => o.elems.any fun e => e.val.isNone && decide (s.lineEngine asid e.pa = engine)
    | .timed _ _ | .global _ | .crd _ _ => false)) ||
  (match t.ex.cw with
   | some c => decide (c.stamp < stamp) && !c.queued && !c.released && c.acquired.isNone && decide (s.ctrEngine asid c.ctr = engine)
   | none => false)

/-- A CRD is performed (R215), after the tile's earlier operations on the counter. -/
def State.performCrd (s : State) (n : Nat) (o : OutLoad) (c : W32) (pend : Bool) : State :=
  let asid := s.tile.gang.asid
  let eng := s.ctrEngine asid c
  if o.elems.any (fun e => e.val.isSome) || s.reqComing o.stamp || s.numberedBefore o.stamp eng (some c) then s
  else
    let s := s.ctrMeet asid c s.tile.id.gid
    let v := if (s.counter asid c).isSome ∨ c = 0xFFFFFFFF then (s.counterView asid c).crdWord pend else 0
    let s := s.respond s.tile.id o.stamp (Config.engineSite eng)
    s.upd fun t => t.updLoad n fun o => { o with elems := o.elems.map fun e => { e with val := some v } }

/-- Changes a store. -/
def Tile.updStore (t : Tile) (n : Nat) (f : OutStore → OutStore) : Tile :=
  { t with ops := { t.ops with stores := mapNth f t.ops.stores n } }

/-- Element k of a global store is performed (R278, R387). Elements of one instruction are performed in lane order (R157). -/
def State.performStore (s : State) (n k : Nat) (o : OutStore) (e : StoreElem) : State :=
  let first := (o.elems.take k).all fun x => x.done || decide (x.pa / 64 ≠ e.pa / 64)
  if e.done || !first || s.reqComingTo o.stamp (stackOf e.pa) || s.lineHeld o.stamp e.pa false then s
  else
    let data := e.data.map some
    let skip := s.badPartial e.pa data
    let s := s.writeHbm e.pa data skip
    let low := match o.ecc with
      | some (va, l) => if va ≤ e.va then (va, l) else (e.va, e.lane)
      | none => (e.va, e.lane)
    let s := s.upd fun t => t.updStore n fun o =>
      { o with elems := mapNth (fun e => { e with done := true }) o.elems k
               ecc := if skip.isEmpty then o.ecc else some low }
    let rest := (dropNth o.elems k).any fun x => !x.done && decide (x.pa / 64 = e.pa / 64)
    let s := if rest then s else s.respond s.tile.id o.stamp (stackOf e.pa)
    if skip.isEmpty then s else s.attUnc (stackOf e.pa)

/-- Changes a copy. -/
def Tile.updCopy (t : Tile) (n : Nat) (f : OutCopy → OutCopy) : Tile :=
  { t with ops := { t.ops with copies := mapNth f t.ops.copies n } }

/-- The recipients of the bytes of a unit that a copy reads (R189, R191): the place in the deal pattern, and the physical tile that the
streamer finds (R322). -/
def State.unitTo (s : State) (c : OutCopy) (off n stack : Nat) : List (Nat × Option Nat) :=
  match c.kind with
  | .cpdeal d => ((upFrom off n).map d.owner).eraseDups.map fun r => (r, s.seen { s.tile.id with vt := d.recipient r } (streamerTr stack))
  | .cpin | .cpout | .cpt => [(0, some s.tile.pl.phys)]

/-- A unit of a CPIN or CPDEAL is read, and its bytes leave for their recipients (R189, R191, R294, R296). An uncorrectable one is left to
COPY_FAULT (R194). -/
def State.performRead (s : State) (n off : Nat) (c : OutCopy) : State :=
  let u := copyUnit c.va c.len (c.va + off)
  let pa := c.pa u.1
  if u.1 ≠ c.va + off ∨ c.len ≤ off ∨ c.units.contains off ∨ s.hostPending c.hostWait ∨ s.badHbm pa u.2 ∨
      s.reqComingTo c.stamp (stackOf pa) ∨ s.lineHeld c.stamp pa true ∨ s.tile.readsFirst c.stamp pa u.2 then s
  else
    let data := Memory.bytes s.mem.hbm pa u.2
    let s := (s.unitTo c off u.2 (pa / 2 ^ 36)).foldl (fun s r => match r.2 with
      | some p => s.inject (.data s.tile.id c.stamp r.1 off) false (stackOf pa) p
      | none => s) s
    s.upd fun t => t.updCopy n fun c => { c with buf := Memory.write c.buf off data, units := c.units ++ [off] }

/-- A unit of a CPOUT is written, and acknowledged (R190, R294, R386, R387): bytes of failing source words are left alone. -/
def State.performWrite (s : State) (n off : Nat) (c : OutCopy) : State :=
  let u := copyUnit c.va c.len (c.va + off)
  let pa := c.pa u.1
  if u.1 ≠ c.va + off ∨ c.len ≤ off ∨ c.units.contains off ∨ s.travelling (.data s.tile.id c.stamp 0 off) ∨
      s.reqComingTo c.stamp (stackOf pa) ∨ s.lineHeld c.stamp pa false then s
  else
    let data := (upFrom 0 u.2).map fun k => if c.bad.contains ((off + k) / 8) then none else some (Memory.byte c.buf (off + k))
    let skip := s.badPartial pa data
    let low := (enabledBytes pa data).find? fun x => skip.contains (x.1 / 8)
    let s := (s.writeHbm pa data skip).respond s.tile.id c.stamp (stackOf pa)
    let s := s.upd fun t => t.updCopy n fun c =>
      { c with units := c.units ++ [off]
               ecc := match low with
                 | some x => some (min (c.ecc.getD (u.1 + (x.1 - pa))) (u.1 + (x.1 - pa)))
                 | none => c.ecc }
    if skip.isEmpty then s else s.attUnc (stackOf pa)

/-- The physical tile to which a CPT sends its bytes (R193, R322): that of its remote fill, and of the tile where that has started. -/
def State.cptTo (s : State) (c : OutCopy) : Option Nat :=
  match s.fab.remotes.find? fun r => decide ({ r.dst with vt := r.issuer } = s.tile.id ∧ r.stamp = c.stamp) with
  | some r => r.phys
  | none =>
    ((s.tilesOf s.tile.id.part s.tile.id.gid).find? fun t => t.ops.fills.any fun f =>
      decide (f.src = .copy s.tile.id.vt c.stamp 0)).map fun t => t.pl.phys

/-- A word of a CPT's source that is uncorrectable when it is read (R385, R386), as an offset over 8: its bytes will keep their old contents
at the destination, and the first such word of the copy is reported (log 44, DESIGN CHOICE). -/
def State.meetSource (s : State) (n base : Nat) (c : OutCopy) (k : Nat) : State :=
  if !s.tile.pad.bad.contains (base / 8 + k) || c.bad.contains k then s
  else
    let s := s.upd fun t => t.updCopy n fun c => { c with bad := c.bad ++ [k] }
    if c.bad.isEmpty then s.sourceEcc base [k] else s

/-- An aligned 8-byte word of a CPT's source is read (R167, R193); the flit of its 64 bytes leaves with the last word of them that is
read, and with the last one of all the hold ends; event 41 counts the flits then (log 69, DESIGN CHOICE). -/
def State.performLocal (s : State) (n off : Nat) (c : OutCopy) : State :=
  match s.tile.sh c.sh with
  | none => s
  | some x =>
    if off % 8 ≠ 0 ∨ c.len ≤ off ∨ c.units.contains off then s
    else
      let s := s.meetSource n x.base c (off / 8)
      let m := min 8 (c.len - off)
      let data := Memory.bytes s.tile.pad.bytes (x.base + off) m
      let all := decide ((c.units.length + 1) * 8 ≥ c.len)
      let whole := ((upFrom (off / 64 * 64) 64).filter fun k => decide (k % 8 = 0 ∧ k < c.len ∧ k ≠ off)).all c.units.contains
      let s := match (if whole then s.cptTo c else none) with
        | some p => s.inject (.data s.tile.id c.stamp 0 (off / 64 * 64)) true s.tile.pl.phys p
        | none => s
      s.upd fun t =>
        let t := t.updCopy n fun c => { c with buf := Memory.write c.buf off data, units := c.units ++ [off], released := all }
        if all then t.event 41 ((c.len + 63) / 64) else t

/-- ACCESS_PERFORMED_AT_HOME (R278): one element of a load or store, one unit of a copy, or the read of a CRD is performed. The
number counts the loads, or the stores, and then the copies; lane is the element, or the unit's offset in the range. -/
def execAccessPerformedAtHome (store : Bool) (n lane : Nat) (s : State) : Out :=
  let t := s.tile
  if store then
    match t.ops.stores[n]? with
    | some o =>
      (match o.elems[lane]? with
       | some e => .next (s.performStore n lane o e)
       | none => .next s)
    | none =>
      let k := n - t.ops.stores.length
      (match t.ops.copies[k]? with
       | some c => if c.kind = .cpout then .next (s.performWrite k lane c) else .next s
       | none => .next s)
  else
    match t.ops.loads[n]? with
    | some o =>
      (match o.kind, o.elems[lane]? with
       | .global ext, some e => .next (s.performLoad n lane o e ext)
       | .crd c p, _ => .next (s.performCrd n o c p)
       | _, _ => .next s)
    | none =>
      let k := n - t.ops.loads.length
      (match t.ops.copies[k]? with
       | some c => if c.reads then .next (s.performRead k lane c) else if c.kind = .cpt then .next (s.performLocal k lane c) else .next s
       | none => .next s)

/-! ## Translation -/

/-- Adds an entry to a cache of a size; the least recently used one, which stands first, goes where there is no room (R340). -/
def cacheIn {α : Type} (size : Nat) (l : List α) (x : α) : List α := (l ++ [x]).drop (l.length + 1 - size)

/-- What the walker meets as it reads the tables for an address of the current tile's ASID (R385, R389). -/
def State.walkMeet (s : State) (va : Nat) : State := s.walkMeets s.tile.gang.asid [va]

/-- TRANSLATION_WALK (R340): a translation that an access waits for is fetched, through the field's unit; events 42 and 43. A walk that
finds no leaf says so. The walker's reads of the tables meet what errors these have (R385). What it brings waits for the end of a pause of
the tile's clock (R250). -/
def execTranslationWalk (va : Nat) (s : State) : Out :=
  let t := s.tile
  let f := fieldOf t.pl.phys
  if !t.ni.misses.contains va || t.ni.paused then .next s
  else
  let s := s.upd fun t => { t with ni := { t.ni with misses := t.ni.misses.filter (· ≠ va) } }
  match s.walk t.gang.asid va with
  | some e =>
    let hit := s.mem.unitTlb.any fun x => decide (x = (f, e))
    let s := s.upd fun t =>
      { (t.event 42 1).eventIf (!hit) 43 with ni := { t.ni with
          tlb := cacheIn 32 (t.ni.tlb.filter fun x => decide (x ≠ e)) e
          got := t.ni.got.filter (· ≠ e) ++ [e]
          misses := t.ni.misses.filter fun a => !decide (e.va ≤ a ∧ a < e.va + e.size) } }
    let mine := s.mem.unitTlb.filter fun x => decide (x.1 = f ∧ x ≠ (f, e))
    let rest := s.mem.unitTlb.filter fun x => decide (x.1 ≠ f)
    let s := { s with mem := { s.mem with unitTlb := rest ++ cacheIn 4096 mine (f, e) } }
    .next (if hit then s else s.walkMeet va)
  | none =>
    .next (s.walkMeet va |>.upd fun t =>
      { (t.event 42 1).event 43 1 with ni := { t.ni with noLeaf := t.ni.noLeaf.filter (· ≠ va) ++ [va] } })

end Sys2Proof.Machine
end

