-- ==== Sys2Proof/Machine/EventCopy.lean ====
section
/-! DEFINITION. Copies and exchanges as their bytes move (R182, R188 to R194): landings, release and visibility points, faults,
remote fills and the pairing of MSWAPs. An event that is not due leaves the state as it is. -/

namespace Sys2Proof.Machine

/-! ## Landings -/

/-- The copy of a stamp of a virtual tile. -/
def State.copyOf (s : State) (id : TileId) (stamp : Nat) : Option OutCopy :=
  match s.findTile id with
  | some t => t.ops.copies.find? fun c => decide (c.stamp = stamp)
  | none => none

/-- The range offset of byte x of a recipient's fill. -/
def OutCopy.source (c : OutCopy) (recip x : Nat) : Nat :=
  match c.kind with
  | .cpdeal d => d.source recip x
  | .cpin | .cpout | .cpt => x

/-- The flit that carries a byte of a copy's range, by its offset: the 64 bytes of a CPT, or a unit (R294, R296). -/
def OutCopy.flitOf (c : OutCopy) (x : Nat) : Nat :=
  match c.kind with
  | .cpt => x / 64 * 64
  | .cpin | .cpdeal _ | .cpout => (copyUnit c.va c.len (c.va + x)).1 - c.va

/-- Whether a copy has read, or written, all that goes with a byte of its range. -/
def OutCopy.hasRead (c : OutCopy) (x : Nat) : Bool :=
  match c.kind with
  | .cpt => ((upFrom (x / 64 * 64) 64).filter fun k => decide (k % 8 = 0 ∧ k < c.len)).all c.units.contains
  | .cpin | .cpdeal _ | .cpout => c.units.contains (c.flitOf x)

/-- The byte that a fill brings at an offset, none where the source was uncorrectable and the old contents stay (R386); the outer
none says that the byte is not there yet. -/
def State.fillByte (s : State) (f : Fill) (x : Nat) : Option (Option Byte) :=
  match f.src with
  | .copy vt stamp recip =>
    (match s.copyOf { s.tile.id with vt := vt } stamp with
     | some c =>
       let y := c.source recip x
       if !c.hasRead y || s.travelling (.data { s.tile.id with vt := vt } stamp recip (c.flitOf y)) then none
       else if decide (c.kind = .cpt) && c.bad.contains (y / 8) then some none else some (some (Memory.byte c.buf y))
     | none => none)
  | .mswap stamp =>
    (match s.tile.ops.mx.find? fun o => decide (o.stamp = stamp) with
     | some o => (match o.recv with
       | some l => if s.travelling (.data s.tile.id stamp 0 (x / 64 * 64)) then none else l[x]?
       | none => none)
     | none => none)

/-- Whether an offset has landed. -/
def Fill.has (f : Fill) (x : Nat) : Bool := f.landed.any fun r => decide (r.1 ≤ x ∧ x < r.1 + r.2)

/-- The contiguous prefix that has landed (R27); the first argument bounds the ranges. -/
def prefixOf (landed : List (Nat × Nat)) : Nat → Nat → Nat
  | 0, w => w
  | n + 1, w =>
    match landed.find? fun r => decide (r.1 ≤ w ∧ w < r.1 + r.2) with
    | some r => prefixOf landed n (r.1 + r.2)
    | none => w

/-- The bytes of a copy leave its count of bytes owed (R188, R191): the counter is credited, with the 1 of the last landing, and
the copy leaves CP. -/
def State.landedBytes (s : State) (id : TileId) (stamp n : Nat) : State :=
  match s.copyOf id stamp, s.findTile id with
  | some c, some t =>
    let last := decide (c.left ≤ n)
    let s := s.updTile id fun t => { t with ops := { t.ops with copies :=
      (t.ops.copies.map fun x => if x.stamp = stamp then { x with left := x.left - n } else x).filter fun x =>
        !(decide (x.stamp = stamp) && last) } }
    s.credit t.gang.asid c.ctr last.toNat (-(n : Int))
  | _, _ => s

/-- Writes landed bytes into the scratchpad; an 8-byte word written whole is correct again. -/
def Tile.landWrite (t : Tile) (base off : Nat) (l : List (Option Byte)) : Tile :=
  let ws := ((upFrom (base + off) l.length).zip l).filterMap fun w => w.2.map fun b => (w.1, b)
  let addrs := ws.map Prod.fst
  { t with pad := { t.pad with bytes := ws.foldl (fun m w => Memory.setByte m w.1 w.2) t.pad.bytes
                               bad := t.pad.bad.filter fun w => !coversWord addrs w } }

/-- Whether a fill has moved its shingle to READY (R27): later bytes are those beyond the shingle (R192), and the shingle is no longer
this fill's. -/
def Fill.complete (f : Fill) : Bool := !f.landed.isEmpty && decide (f.len ≤ prefixOf f.landed f.landed.length 0)

/-- The shingle of a fill after a landing (R27): WMARK advances, and the shingle becomes READY at the fill length. done says that the
fill was complete before. -/
def Tile.landMark (t : Tile) (f : Fill) (done : Bool) : Tile :=
  match t.sh f.sh with
  | some x =>
    if x.st = .filling ∧ !done then
      let w := min f.len (prefixOf f.landed f.landed.length 0)
      t.setSh f.sh (some { x with wmark := w, st := if w = f.len then .ready else .filling })
    else t
  | none => t

/-- The flit that brings a byte of a fill, by a number of its own among those of the fill (R294, R296). -/
def State.flitKey (s : State) (f : Fill) (x : Nat) : Nat :=
  match f.src with
  | .copy vt stamp recip =>
    (match s.copyOf { s.tile.id with vt := vt } stamp with
     | some c => c.flitOf (c.source recip x)
     | none => x)
  | .mswap _ => x / 64 * 64

/-- How many flits of a fill have landed whole with the landing of some of its bytes, after which it is as given (R252, event 40). -/
def State.flitsLanded (s : State) (g : Fill) (xs : List Nat) : Nat :=
  ((xs.map (s.flitKey g)).eraseDups).countP fun k => (upFrom 0 g.cut).all fun x => decide (s.flitKey g x ≠ k) || g.has x

/-- FILL_LANDING (R27, R182, R188, R192): up to 64 bytes of a fill land; bytes beyond the shingle are discarded, and credited as
landed. A fill of no bytes lands once. Nothing lands while the tile's clock is paused (R250). -/
def execFillLanding (n off len : Nat) (s : State) : Out :=
  match s.tile.ops.fills[n]? with
  | none => .next s
  | some f =>
    let xs := upFrom off len
    let data := (xs.filter fun x => decide (x < f.len)).map fun x => s.fillByte f x
    let here := xs.all fun x => (s.fillByte f x).isSome
    let ok := (decide (1 ≤ len ∧ len ≤ 64 ∧ off + len ≤ f.cut) && !xs.any f.has && here) ||
      (decide (f.cut = 0 ∧ len = 0 ∧ off = 0))
    if !ok || s.tile.ni.paused then .next s
    else
      let g := { f with landed := f.landed ++ [(off, len)] }
      let whole := decide (prefixOf g.landed g.landed.length 0 = f.cut)
      let s := s.upd fun t =>
        let base := match t.sh f.sh with
          | some x => x.base
          | none => 0
        let t := if (t.sh f.sh).isSome then t.landWrite base off (data.map fun d => d.getD none) else t
        let t := (t.landMark g f.complete).event 40 (s.flitsLanded g xs)
        { t with ops := { t.ops with fills := if whole then dropNth t.ops.fills n else mapNth (fun _ => g) t.ops.fills n } }
      match f.src with
      | .copy vt stamp _ => .next (s.landedBytes { s.tile.id with vt := vt } stamp len)
      | .mswap stamp =>
        .next (if whole then s.upd fun t => { t with ops := { t.ops with mx := t.ops.mx.filter fun o => decide (o.stamp ≠ stamp) } }
               else s)

/-! ## CPOUT -/

/-- RELEASE_POINT (R190): every source byte has been read; the shingle becomes READY, and the release counter gains 1. Event 41 counts the
flits of the copy here, one for each 64 bytes (log 69, DESIGN CHOICE). -/
def execReleasePoint (n : Nat) (s : State) : Out :=
  match s.tile.ops.copies[n]? with
  | none => .next s
  | some c =>
    if decide (c.kind = .cpout) && !c.released then
      let s := s.upd fun t =>
        let t := (t.updCopy n fun c => { c with released := true }).event 41 ((c.len + 63) / 64)
        match t.sh c.sh with
        | some x => if x.st = .draining then t.setSh c.sh (some { x with st := .ready }) else t
        | none => t
      .next ((s.ctrSignal s.tile.gang.asid c.ctr s.tile.id.gid).engineCheck s.tile.id.part s.tile.id.gid)
    else .next s

/-- Whether every unit of a copy has been read or written. -/
def OutCopy.allUnits (c : OutCopy) : Bool := (upFrom 0 c.len).all c.hasRead

/-- VISIBILITY_POINT (R190, R293): every byte is visible, and with REL every earlier store, copy, atomic and reduction has left its
count; the visibility counter gains 1, the copy leaves CP, and ECC becomes due for words that it could not write (R387). -/
def execVisibilityPoint (n : Nat) (s : State) : Out :=
  match s.tile.ops.copies[n]? with
  | none => .next s
  | some c =>
    if decide (c.kind = .cpout) && c.released && c.allUnits && !s.answering c.stamp && (!c.flag || s.tile.releasedBefore c.stamp) then
      let s := s.upd fun t =>
        let t := { t with ops := { t.ops with copies := dropNth t.ops.copies n } }
        match c.ecc with
        | some va => t.trapDue ⟨0x0B, w64 (3 * 2 ^ 60 + va), 8, none, false⟩
        | none => t
      .next ((s.ctrSignal s.tile.gang.asid c.vis s.tile.id.gid).engineCheck s.tile.id.part s.tile.id.gid)
    else .next s

/-! ## Faults -/

/-- Ends the fills of a copy in error at every virtual tile (R27, R194): of a CPDEAL those of every recipient, and the remote fills
that have not started are dropped (log 56, DESIGN CHOICE). -/
def State.endFills (s : State) (id : TileId) (stamp : Nat) : State :=
  let mine (f : Fill) : Bool := match f.src with
    | .copy vt st _ => decide (vt = id.vt ∧ st = stamp)
    | .mswap _ => false
  let stopOne (t : Tile) : Tile :=
    let l := t.ops.fills.filter mine
    let t := l.foldl (fun t f => match t.sh f.sh with
      | some x => if x.st = .filling ∧ !f.complete then t.setSh f.sh (some { x with st := .empty }) else t
      | none => t) t
    { t with ops := { t.ops with fills := t.ops.fills.filter fun f => !mine f } }
  let s := s.updAll fun t => if t.id.part = id.part ∧ t.id.gid = id.gid then stopOne t else t
  let rest := s.fab.remotes.filter fun r =>
    !decide (r.dst.part = id.part ∧ r.dst.gid = id.gid ∧ r.issuer = id.vt ∧ r.stamp = stamp)
  { s with fab := { s.fab with remotes := rest } }

/-- The address with which a unit of a copy fails (R194): that of the first byte that it cannot read; where the streamer fails, or the unit
is one to write, that of the unit. -/
def State.unitFails (s : State) (c : OutCopy) (va : Nat) : Nat :=
  let u := copyUnit c.va c.len va
  ((upFrom u.1 u.2).find? fun a => c.reads && s.badHbm (c.pa a) 1).getD u.1

/-- The lowest failing address of a copy that fails at a unit (R194, R387): a lower one is that of another byte that it has not read and
cannot read, or of a word that it could not write. -/
def State.failingVa (s : State) (c : OutCopy) (va : Nat) : Nat :=
  let here := s.unitFails c va
  let low := if c.reads then (upFrom c.va c.len).find? fun a => c.unitLeft a && s.badHbm (c.pa a) 1 else c.ecc
  min here (low.getD here)

/-- COPY_FAULT (R194): a copy meets an uncorrectable word or a failing streamer at a unit that it has not yet performed. Its fills end
in error, it leaves CP, and ECC becomes due for the lowest failing address. A shingle that it drains stays DRAINING where it has not come
to its release point, since no other event of R27 ends that state (log 26, DEDUCED). -/
def execCopyFault (n va : Nat) (s : State) : Out :=
  match s.tile.ops.copies[n]? with
  | none => .next s
  | some c =>
    if c.kind ≠ .cpt ∧ c.unitLeft va then
      let low := s.failingVa c va
      let pa := c.pa (s.unitFails c va)
      let bad := c.reads && s.badHbm pa 1
      let s := s.endFills s.tile.id c.stamp
      let s := s.upd fun t =>
        let t := { t with ops := { t.ops with copies := dropNth t.ops.copies n } }
        t.trapDue ⟨0x0B, w64 (3 * 2 ^ 60 + low), 8, none, false⟩
      .next (if bad then s.attUnc (stackOf pa) else s)
    else .next s

/-! ## Remote fills and exchanges -/

/-- Parks a packet of a serial for an absent virtual tile (R326), which it does not touch (R273). -/
def State.parkArrival (s : State) (id : TileId) (a : Arrival) : State :=
  let s := s.withTile id fun s => s.upd fun t =>
    { t with inb := { t.inb with arrivals := if t.inb.arrivals.contains a then t.inb.arrivals else t.inb.arrivals ++ [a] } }
  (s.tileFault id).overflowCheck id.part id.gid

/-- Whether a fill that the current tile's arrival queue holds waits there behind one of the same shingle (R327). -/
def State.fillBehind (s : State) (r : Remote) : Bool :=
  s.tile.inb.arrivals.contains (.fill r.serial) &&
  (s.tile.inb.arrivals.takeWhile fun a => decide (a ≠ .fill r.serial)).any fun a => match a with
    | .fill n => s.fab.remotes.any fun q => decide (q.serial = n ∧ q.sh = r.sh)
    | .join _ => false

/-- A remote fill starts at its recipient, the current tile, once its shingle admits it (R192); it leaves the arrival queue. -/
def State.startRemote (s : State) (r : Remote) : State :=
  match s.tile.sh r.sh with
  | some x =>
    if (x.st = .empty ∨ x.st = .ready) ∧ !s.tile.holds r.sh ∧ !s.fillBehind r then
      let s := { s with fab := { s.fab with remotes := s.fab.remotes.filter fun q => decide (q.serial ≠ r.serial) } }
      s.upd fun t =>
        let t := t.startFill r.sh r.ctr
        let f : Fill := ⟨.copy r.issuer r.stamp r.recip, r.sh, min r.len (x.len * 64), r.len, []⟩
        { t with ops := { t.ops with fills := t.ops.fills ++ [f] }
                 inb := { t.inb with arrivals := t.inb.arrivals.filter fun a => decide (a ≠ .fill r.serial) } }
    else s
  | none => s

/-- Whether a flit of a remote fill has come to its recipient, or has been sent for an absent one (R192); a fill of no bytes has none to
wait for. -/
def State.fillComes (s : State) (r : Remote) : Bool :=
  let s := s.focus r.dst
  decide (r.len = 0) || (upFrom 0 r.len).any fun x => (s.fillByte ⟨.copy r.issuer r.stamp r.recip, r.sh, r.len, r.len, []⟩ x).isSome

/-- Whether a physical tile holds a virtual tile's context in its NI's committed version (R322). -/
def State.holdsAt (s : State) (id : TileId) (p : Nat) : Bool := decide (s.seen id p = some p)

/-- REMOTE_FILL (R192, R322, R326): with its first flit, a remote fill is parked, discarded for a virtual tile that has finished and is
absent, or starts. One that was misdelivered while its tile is resident elsewhere goes into the tile's arrival queue and is processed there
(log 72, DEDUCED). -/
def execRemoteFill (n : Nat) (s : State) : Out :=
  match s.fab.remotes[n]? with
  | none => .next s
  | some r =>
    if r.parked || !s.fillComes r then .next s
    else if r.phys.any fun p => s.holdsAt r.dst p then .next (s.withTile r.dst fun s => s.startRemote r)
    else
      match s.findTile r.dst with
      | none => .next s
      | some t =>
        let set (f : Remote → Remote) : State := { s with fab := { s.fab with remotes := mapNth f s.fab.remotes n } }
        if t.pl.res = .resident ∧ s.holdsAt r.dst t.pl.phys then
          .next ((set fun r => { r with phys := some t.pl.phys }).parkArrival r.dst (.fill r.serial))
        else if t.pl.finished then
          let s := { s with fab := { s.fab with remotes := dropNth s.fab.remotes n } }
          .next (s.landedBytes { r.dst with vt := r.issuer } r.stamp r.len)
        else .next ((set fun r => { r with parked := true }).parkArrival r.dst (.fill r.serial))

/-- The unpaired MSWAP of a virtual tile with a partner and an index (R182). -/
def Tile.swapWith (t : Tile) (q k : Nat) : Option MxOp :=
  t.ops.mx.find? fun o => decide (o.kind = .mswap q k) && o.recv.isNone

/-- The bytes that one side sends, with the offsets of failing words (R182, R386). -/
def Tile.swapBytes (t : Tile) (o : MxOp) (n : Nat) : List Byte × List Nat :=
  match o.sh with
  | some sh => (match t.sh sh with
    | some x => (Memory.bytes t.pad.bytes x.base n, t.badWords x.base n)
    | none => ([], []))
  | none => ([], [])

/-- The length of the shingle of an MSWAP, in bytes. -/
def Tile.swapLen (t : Tile) (o : MxOp) : Nat :=
  match o.sh with
  | some sh => (match t.sh sh with
    | some x => x.len * 64
    | none => 0)
  | none => 0

/-- One side of a paired MSWAP receives its partner's bytes from a site: its fill begins, and its own failing words are reported. Bytes that
a failing word of the partner would supply keep their old contents (R386). Event 41 counts a flit for each 64 bytes here (log 69, DESIGN
CHOICE). -/
def State.swapSide (s : State) (o : MxOp) (n from_ : Nat) (mine : List Nat) (theirs : List Byte × List Nat) : State :=
  let got := (upFrom 0 n).map fun k => if theirs.2.contains (k / 8) then none else some (theirs.1.getD k 0)
  match o.sh with
  | none => s
  | some sh =>
    let base := match s.tile.sh sh with
      | some x => x.base
      | none => 0
    let s := s.upd fun t =>
      let t := t.event 41 ((n + 63) / 64)
      { t with ops := { t.ops with
        mx := t.ops.mx.map fun q => if q.stamp = o.stamp then { q with recv := some got } else q
        fills := t.ops.fills ++ [⟨.mswap o.stamp, sh, n, n, []⟩] } }
    let s := ((upFrom 0 n).filter fun k => decide (k % 64 = 0)).foldl (fun s k =>
      s.inject (.data s.tile.id o.stamp 0 k) true from_ s.tile.pl.phys) s
    s.sourceEcc base mine

/-- Whether a virtual tile's context is on a physical tile. -/
def Tile.present (t : Tile) : Bool := decide (t.pl.res = .resident ∨ t.pl.res = .swappingOut)

/-- MSWAP_PAIRING (R182): two MSWAPs of one index, each naming the other's tile, exchange the bytes up to the shorter shingle, which both
engines read while their clocks run (R250). -/
def execMswapPairing (n : Nat) (s : State) : Out :=
  match s.tile.ops.mx[n]? with
  | none => .next s
  | some o =>
    match o.kind with
    | .mswap q k =>
      let me := s.tile
      let other : TileId := { me.id with vt := q }
      (match s.findTile other with
       | none => .next s
       | some p =>
         match p.swapWith me.id.vt k with
         | none => .next s
         | some o2 =>
           if o.recv.isSome || !me.present || !p.present || me.ni.paused || p.ni.paused then .next s
           else
             let len := min (me.swapLen o) (p.swapLen o2)
             let a := me.swapBytes o len
             let b := p.swapBytes o2 len
             let s := s.swapSide o len p.pl.phys a.2 b
             .next (if q = me.id.vt then s else s.withTile other fun s => s.swapSide o2 len me.pl.phys b.2 a))
    | _ => .next s

end Sys2Proof.Machine
end

