-- ==== Sys2Proof/Machine/EventEngine.lean ====
section
/-! DEFINITION. The CIM engine at work (R61, R62, R165, R169 to R181, R241), trusses (R174 to R177, R332), the macro checksum (R181)
and the background scrub (R385). An event that is not due leaves the state as it is. -/

namespace Sys2Proof.Machine

/-! ## Blocks and steps -/

/-- A block as the engine reads it: magnitude bits, the two scales, and the 32 elements (R54, R55). -/
structure Block where
  p : Nat
  s0 : Nat
  s1 : Nat
  elems : List Nat
deriving DecidableEq, Repr, Inhabited

/-- The block at an offset of a delivered row; bytes that were not delivered read as zero (R176). -/
def rowBlock (f : BlkFmt) (row : List Byte) (j : Nat) : Block :=
  let n := blkBytes f
  let x := ofBytes ((row.drop (j * n)).take n)
  ⟨pBits f, x % 1024, x / 1024 % 1024, (List.range 32).map fun i => elemBits (pBits f) (x / 2 ^ 32) i⟩

/-- The address of a cell (R169). -/
def cellAt (k c : Nat) : Nat := 128 * k + c

/-- The address of a scale entry (R169). -/
def scaleAt (kb c : Nat) : Nat := 4 * (128 * kb + c)

/-- The address of an accumulator element (R169). -/
def accAt (r c : Nat) : Nat := 4 * (128 * r + c)

/-- B block (kb, c), read in a format (R169). -/
def Engine.blockB (e : Engine) (f : BlkFmt) (kb c : Nat) : Block :=
  let x := Memory.nat e.scales (scaleAt kb c) 4
  let w := pBits f + 2
  ⟨pBits f, x % 1024, x / 1024 % 1024, (upFrom (32 * kb) 32).map fun k => (Memory.byte e.cells (cellAt k c)).toNat % 2 ^ w⟩

/-- Whether a block is a NaN block (R56). -/
def Block.isNan (b : Block) : Bool := (scaleVal b.s0).isNone || (scaleVal b.s1).isNone

/-- The selector, sign and magnitude of an element of p magnitude bits (R55). -/
def elemParts (p x : Nat) : Nat × Bool × Nat := (x / 2 ^ (p + 1) % 2, x / 2 ^ p % 2 == 1, x % 2 ^ p)

/-- The selector-pair partial of two blocks (R61). -/
def partialOf (a b : Block) (x y : Nat) : Int :=
  (a.elems.zip b.elems).foldl (fun n e =>
    let u := elemParts a.p e.1
    let v := elemParts b.p e.2
    if u.1 = x ∧ v.1 = y then (if u.2.1 != v.2.1 then n - (u.2.2 * v.2.2 : Nat) else n + (u.2.2 * v.2.2 : Nat)) else n) 0

/-- The sum of two fractions. -/
def fracAdd (a b : Int × Nat) : Int × Nat := (a.1 * b.2 + b.1 * a.2, a.2 * b.2)

/-- The contribution C of a pair of blocks, exactly, as a fraction (R61). -/
def contribution (a b : Block) : Int × Nat :=
  let scale (s : Nat) : Nat × Nat := (scaleVal s).getD (0, 1)
  let term (x y : Nat) : Int × Nat :=
    let u := scale (if x = 0 then a.s0 else a.s1)
    let v := scale (if y = 0 then b.s0 else b.s1)
    (partialOf a b x y * (u.1 * v.1 : Nat), u.2 * v.2)
  let c := fracAdd (fracAdd (term 0 0) (term 0 1)) (fracAdd (term 1 0) (term 1 1))
  (c.1, c.2 * 2 ^ (a.p + b.p - 2))

/-- What a step leaves: the element, and whether it sets MSTAT.NAN or MSTAT.OVF. -/
structure AccStep where
  acc : Nat
  nan : Bool
  ovf : Bool
deriving DecidableEq, Repr, Inhabited

/-- One step of R62. -/
def AccStep.step (s : AccStep) (a b : Block) : AccStep :=
  if a.isNan || b.isNan then { s with acc := fp32.nanBits, nan := true }
  else
    match fp32.decode s.acc with
    | .nan _ | .inf _ => s
    | .fin n x d =>
      let c := contribution a b
      if c.1 = 0 then s
      else
        let v := (fp32.add .rne (.fin n x d) (.fin (decide (c.1 < 0)) c.1.natAbs c.2)).bits
        match fp32.decode v with
        | .inf _ => { s with acc := v, ovf := true }
        | .nan _ | .fin _ _ _ => { s with acc := v }

/-- The steps of one accumulator element, ascending K, at most n of them (R172). -/
def Engine.steps (e : Engine) (g : Geom) (row : List Byte) (c n : Nat) (acc : Nat) : AccStep :=
  (List.range (min n g.kb)).foldl (fun s j => s.step (rowBlock g.afmt row j) (e.blockB g.bfmt (g.kbase + j) (g.c0 + c))) ⟨acc, false, false⟩

/-- Sets MSTAT.NAN and MSTAT.OVF (R62). -/
def Tile.mstatSet (t : Tile) (nan ovf : Bool) : Tile :=
  { t with regs := { t.regs with nanSeen := t.regs.nanSeen || nan, ovfSeen := t.regs.ovfSeen || ovf } }

/-- Writes an accumulator element. -/
def Tile.setAcc (t : Tile) (r c x : Nat) : Tile :=
  { t with eng := { t.eng with acc := Memory.setNat t.eng.acc (accAt r c) 4 x } }

/-- An accumulator element. -/
def Tile.accEl (t : Tile) (r c : Nat) : Nat := Memory.nat t.eng.acc (accAt r c) 4

/-- The pairs of numbers below two bounds, row by row. -/
def pairsBelow (m n : Nat) : List (Nat × Nat) := (List.range m).flatMap fun r => (List.range n).map fun c => (r, c)

/-- The loop of R172 over delivered rows, with at most lim r c steps at each element; rows beyond the accumulator are discarded
(R176). -/
def Tile.multiply (t : Tile) (g : Geom) (rows : List (List Byte)) (lim : Nat → Nat → Nat) : Tile :=
  (pairsBelow (min rows.length (128 - g.row0)) g.n).foldl (fun t p =>
    let n := lim p.1 p.2
    let s := t.eng.steps g (rows.getD p.1 []) p.2 n (t.accEl (g.row0 + p.1) (g.col0 + p.2))
    ((t.setAcc (g.row0 + p.1) (g.col0 + p.2) s.acc).mstatSet s.nan s.ovf).event 37 (min n g.kb)) t

/-! ## The operations -/

/-- Row r of the rectangle that an operation reads from its shingle: the bytes, n long, rs apart. -/
def Tile.rowBytes (t : Tile) (o : MxOp) (rs n r : Nat) : List Byte :=
  match o.sh with
  | some sh => (match t.sh sh with
    | some x => Memory.bytes t.pad.bytes (x.base + o.off + r * rs) n
    | none => [])
  | none => []

/-- The rows that an operation reads from its shingle: how many, how far apart, how long. -/
def MxOp.shape (o : MxOp) : Nat × Nat × Nat :=
  let g := o.geom
  match o.kind with
  | .mloadb => (g.n, g.rs (g.kb * blkBytes g.bfmt), g.kb * blkBytes g.bfmt)
  | .mma | .mmat _ true _ => (g.m, g.rs (g.kb * blkBytes g.afmt), g.kb * blkBytes g.afmt)
  | .ms2acc f => (g.m, g.rs (g.n * accSize f), g.n * accSize f)
  | .macc2s _ f _ => (g.m, g.rs (g.n * accSize f), g.n * accSize f)
  | .mzero | .mmat _ false _ | .mswap _ _ | .mjoin _ => (0, 0, 0)

/-- The stores that an operation may not have seen (R167): those since its issue. -/
def Tile.unseen (t : Tile) (stamp : Nat) : List (Nat × Nat × List Byte) := t.pad.shadow.filter fun e => decide (stamp < e.1)

/-- The tile as an operation reads it (R167): each scratchpad word that stores have changed since its issue shows its present bytes, or
those before one of these stores. -/
def Tile.seen (t : Tile) (draw stamp : Nat) : Tile :=
  let l := t.unseen stamp
  let show_ (m : Memory) (w : Nat) : Memory :=
    let past := (l.filter fun e => decide (e.2.1 = w)).map fun e => e.2.2
    let k := Config.mxSees draw w % (past.length + 1)
    if k = 0 then m else Memory.write m (8 * w) (past.getD (k - 1) [])
  { t with pad := { t.pad with bytes := (l.map fun e => e.2.1).eraseDups.foldl show_ t.pad.bytes } }

/-- Whether an operation reads its shingle. -/
def MxKind.readsShingle : MxKind → Bool
  | .mloadb | .mma | .mmat _ true _ | .ms2acc _ => true
  | .mzero | .mmat _ false _ | .macc2s _ _ _ | .mswap _ _ | .mjoin _ => false

/-- Whether an operation multiplies. -/
def MxKind.multiplies : MxKind → Bool
  | .mma | .mmat _ _ _ => true
  | .mloadb | .mzero | .macc2s _ _ _ | .ms2acc _ | .mswap _ _ | .mjoin _ => false

/-- Whether an operation reads the accumulator. -/
def MxKind.readsAcc : MxKind → Bool
  | .mma | .mmat _ _ _ | .macc2s _ _ _ => true
  | .mloadb | .mzero | .ms2acc _ | .mswap _ _ | .mjoin _ => false

/-- The rows that an operation takes from its shingle. -/
def Tile.sourceRows (t : Tile) (o : MxOp) : List (List Byte) :=
  (List.range o.shape.1).map fun r => t.rowBytes o o.shape.2.1 o.shape.2.2 r

/-- The lowest byte of an uncorrectable scratchpad word that an operation reads (R386). -/
def Tile.badSource (t : Tile) (o : MxOp) : Option Nat :=
  match o.sh with
  | some sh => (match t.sh sh with
    | some x => ((List.range o.shape.1).flatMap fun r => upFrom (x.base + o.off + r * o.shape.2.1) o.shape.2.2).find? fun a =>
        t.pad.bad.contains (a / 8)
    | none => none)
  | none => none

/-- The floating-point format of an accumulator format. -/
def accFmt : AccFmt → FFmt
  | .f32 => fp32
  | .bf16 => bf16
  | .fp16 => fp16

/-- Row and column of the first uncorrectable accumulator element of a rectangle of m rows (R35, R386). -/
def Tile.badAcc (t : Tile) (g : Geom) (m : Nat) : Option (Nat × Nat) :=
  ((pairsBelow (min m (128 - g.row0)) g.n).map fun p => (g.row0 + p.1, g.col0 + p.2)).find? fun e =>
    t.eng.accBad.contains (accAt e.1 e.2 / 8)

/-- Element c of a row that MS2ACC reads, in FP32 (R180). -/
def accIn (f : AccFmt) (row : List Byte) (c : Nat) : Nat :=
  (fp32.convert .rne ((accFmt f).decode (ofBytes ((row.drop (c * accSize f)).take (accSize f))))).bits

/-- MLOADB writes one block of a column (R171): its cells and its scale entry. -/
def Engine.putBlock (e : Engine) (g : Geom) (cols : List (List Byte)) (p : Nat × Nat) : Engine :=
  let w := pBits g.bfmt
  let c := g.c0 + p.1
  let kb := g.kbase + p.2
  let blk := ofBytes (((cols.getD p.1 []).drop (p.2 * blkBytes g.bfmt)).take (blkBytes g.bfmt))
  { e with
    scales := Memory.setNat e.scales (scaleAt kb c) 4 (blk % 2 ^ 20)
    cells := (List.range 32).foldl (fun m i => Memory.setByte m (cellAt (32 * kb + i) c) (BitVec.ofNat 8 (elemBits w (blk / 2 ^ 32) i))) e.cells }

/-- The first K-row of an operation whose parity does not match (R181), which a checksum since its issue may have marked. -/
def Tile.badParity (t : Tile) (o : MxOp) : Option Nat :=
  if o.kind.multiplies then o.geom.krows.find? fun k => t.eng.upsets.contains k || t.eng.badRows.contains k else none

/-- The busy cycles of an operation with m rows (R173, R241). -/
def MxOp.busy (o : MxOp) (m : Nat) : Nat :=
  let g := o.geom
  match o.kind with
  | .mloadb => 4 + g.n * g.kb
  | .mzero => 2 + g.m
  | .mma | .mmat _ _ _ => 12 + m * pBits g.afmt * ((g.kb + 15) / 16)
  | .macc2s _ f _ | .ms2acc f => 4 + g.m * ((g.n * accSize f + 127) / 128)
  | .mswap _ _ | .mjoin _ => 0

/-- Whether an operation stands in the engine's queue (R165). -/
def MxKind.queued : MxKind → Bool
  | .mswap _ _ | .mjoin _ => false
  | .mloadb | .mzero | .mma | .mmat _ _ _ | .macc2s _ _ _ | .ms2acc _ => true

/-- Discards every operation of the engine's queue (R181). -/
def Tile.discardQueue (t : Tile) : Tile :=
  { t with ops := { t.ops with mx := t.ops.mx.filter fun o => !o.kind.queued } }

/-- How many leading bytes of row r of an operation's source hold no uncorrectable word (R386). -/
def Tile.goodBytes (t : Tile) (o : MxOp) (r : Nat) : Nat :=
  match o.sh with
  | some sh => (match t.sh sh with
    | some x => ((upFrom (x.base + o.off + r * o.shape.2.1) o.shape.2.2).findIdx? fun a => t.pad.bad.contains (a / 8)).getD o.shape.2.2
    | none => 0)
  | none => 0

/-- What an abandoned operation has done (R181, R386): a free number of the steps of each accumulator element that it could reach, of
the elements of an MS2ACC, of the blocks of an MLOADB (log 10, DESIGN CHOICE). -/
def Tile.partEffect (t : Tile) (o : MxOp) (rows : List (List Byte)) (draw : Nat) : Tile :=
  let g := o.geom
  let free (r c n : Nat) : Nat := Config.abandonSteps draw (128 * r + c) % (n + 1)
  let bad (r c : Nat) : Bool := t.eng.accBad.contains (accAt (g.row0 + r) (g.col0 + c) / 8)
  match o.kind with
  | .mma | .mmat _ true _ | .mmat _ false _ =>
    t.multiply g rows fun r c =>
      if bad r c then 0
      else free (g.row0 + r) (g.col0 + c) (if o.kind.readsShingle then t.goodBytes o r / blkBytes g.afmt else g.kb)
  | .ms2acc f =>
    (pairsBelow g.m g.n).foldl (fun t p =>
      if (p.2 + 1) * accSize f ≤ t.goodBytes o p.1 ∧ free (g.row0 + p.1) (g.col0 + p.2) 1 = 1 then
        t.setAcc (g.row0 + p.1) (g.col0 + p.2) (accIn f (rows.getD p.1 []) p.2)
      else t) t
  | .mloadb =>
    { t with eng := (pairsBelow g.n g.kb).foldl (fun e p =>
        if (p.2 + 1) * blkBytes g.bfmt ≤ t.goodBytes o p.1 ∧ free p.1 p.2 1 = 1 then e.putBlock g rows p else e) t.eng }
  | .mzero | .macc2s _ _ _ | .mswap _ _ | .mjoin _ => t

/-- An operation is abandoned for an uncorrectable word (R181, R386): what it has done stays, the queue is discarded, and ECC becomes
due. -/
def State.abandonEcc (s : State) (o : MxOp) (rows : List (List Byte)) (tval : Word) : State :=
  let (d, s) := s.draw
  (s.upd fun t => (t.partEffect o rows d).discardQueue.trapDue ⟨0x0B, tval, 9, none, false⟩).tileUnc

/-- A parity mismatch in K-row k (R181): the row is marked bad, elements keep the steps that they have made, the queue is
discarded, and MXERR becomes due. -/
def State.abandonParity (s : State) (o : MxOp) (rows : List (List Byte)) (k : Nat) : State :=
  let (d, s) := s.draw
  let j := k / 32 - o.geom.kbase
  let s := s.upd fun t =>
    let t := (t.multiply o.geom rows fun r c => Config.abandonSteps d (128 * (o.geom.row0 + r) + (o.geom.col0 + c)) % (j + 1)).event 39 1
    let t := { t with
      eng := { t.eng with badRows := (t.eng.badRows.filter (· ≠ k)) ++ [k], upsets := t.eng.upsets.filter (· ≠ k) }
      regs := { t.regs with mxe := true } }
    t.discardQueue.trapDue ⟨0x0C, w64 (k % 128 * 256 + k / 128), 9, none, false⟩
  s.tileUnc

/-! ## Trusses -/

/-- The plan under which the current tile is joined. -/
def Tile.planOf (t : Tile) : Option Plan := if t.eng.joined then t.gang.prog.plans[t.eng.plan.toNat]? else none

/-- The other virtual tiles of the current tile's truss row (R174). -/
def Tile.rowMates (t : Tile) : List Nat :=
  match t.planOf with
  | some p => (p.members.filter fun m => decide (m.2 / 3 = t.eng.pos.val / 3 ∧ m.1 ≠ t.id.vt)).map Prod.fst
  | none => []

/-- How many flits of 64 bytes a batch of rows takes (R296). -/
def rowFlits (rows : List (List Byte)) : Nat := max 1 ((rows.foldl (fun n r => n + r.length) 0 + 63) / 64)

/-- The flits of a batch of rows leave one site for another (R296). -/
def State.injectRows (s : State) (r : RowPacket) (src dst : Nat) : State :=
  (List.range (rowFlits r.rows)).foldl (fun s k => s.inject (.part r.serial k) false src dst) s

/-- Whether flits of a batch of rows are still on their way through the routers. -/
def State.rowsTravel (s : State) (serial : Nat) : Bool :=
  s.fab.flits.any fun f => match f.ref with
    | .part n _ => decide (n = serial)
    | .msg _ | .req _ _ | .resp _ _ | .data _ _ _ _ | .deny _ _ _ _ | .pkt _ => false

/-- The rows of a source's MMAT leave for every other member of its truss row that is still in the truss (R176). -/
def State.sendRows (s : State) (index : Nat) (rows : List (List Byte)) : State :=
  let t := s.tile
  let plan := t.eng.plan.toNat
  let mates := (t.rowMates.map fun v => { t.id with vt := v }).filter fun d => s.inRound d plan
  mates.foldl (fun s d =>
    let r : RowPacket := ⟨s.fab.serial, d, s.seen d t.pl.phys, plan, index, rows⟩
    let s := { s with fab := { s.fab with serial := r.serial + 1, rowPackets := s.fab.rowPackets ++ [r] } }
    match r.phys with
    | some x => s.injectRows r t.pl.phys x
    | none => s) s

/-- Whether a row batch belongs to the membership that a virtual tile is in (R176): it was sent since the tile's MJOIN. -/
def Tile.ownRows (t : Tile) (r : RowPacket) : Bool := decide (r.dst = t.id ∧ r.plan = t.eng.plan.toNat ∧ t.eng.joinSerial ≤ r.serial)

/-- Whether a row batch of an index is on its way to a virtual tile in its membership. -/
def State.rowsComing (s : State) (t : Tile) (index : Nat) : Bool :=
  s.fab.rowPackets.any fun r => t.ownRows r && decide (r.index = index)

/-- Whether the source of the current tile's truss row has left the plan after every member had joined (R177). -/
def State.sourceGone (s : State) : Bool :=
  let t := s.tile
  match t.planOf with
  | some p => t.joinDone && (p.members.filter fun m => decide (m.2 = t.eng.pos.val / 3 * 3)).all fun m =>
      !s.inRound { t.id with vt := m.1 } t.eng.plan.toNat
  | none => false

/-- Whether an MMAT of the current tile is unpaired: no rows have come, and none are on their way (R176). -/
def State.unpaired (s : State) (o : MxOp) : Bool :=
  match o.kind with
  | .mmat true false k => o.rows.isNone && !s.rowsComing s.tile k
  | .mmat _ _ _ | .mloadb | .mzero | .mma | .macc2s _ _ _ | .ms2acc _ | .mswap _ _ | .mjoin _ => false

/-- The unpaired MMATs of a member whose source has left complete without effect (R177). -/
def State.completeUnpaired (s : State) : State :=
  if s.sourceGone then s.upd fun t => { t with ops := { t.ops with mx := t.ops.mx.filter fun o => !s.unpaired o } } else s

/-! ## Start and completion -/

/-- The rows that the head operation has to work with, none while it must wait (R176). -/
def Tile.rowsFor (t : Tile) (o : MxOp) : Option (List (List Byte)) :=
  match o.kind with
  | .mmat true false _ => o.rows
  | .mmat true true _ => if t.joinDone then some (t.sourceRows o) else none
  | .mmat false _ _ | .mloadb | .mma | .ms2acc _ => some (t.sourceRows o)
  | .mzero | .macc2s _ _ _ | .mswap _ _ | .mjoin _ => some []

/-- MX_OPERATION_START (R165, R167, R176, R181, R241, R386): the head of the queue starts; it reads its source at this moment, where a
store since its issue may be seen or not be seen (log 27, DESIGN CHOICE), and is abandoned if it meets an integrity error. -/
def execMxOperationStart (s : State) : Out :=
  let s := s.completeUnpaired
  match s.tile.mxHead with
  | none => .next s
  | some o =>
    match (s.tile.seen s.drawn o.stamp).rowsFor o with
    | none => .next s
    | some rows =>
      if o.doneAt.isSome || !s.tile.counts then .next s
      else
        let m := if o.kind.multiplies then rows.length else o.geom.m
        let s := if (s.tile.unseen o.stamp).isEmpty then s else s.draw.2
        match (if o.kind.readsShingle then s.tile.badSource o else none), s.tile.badParity o,
            (if o.kind.readsAcc then s.tile.badAcc o.geom m else none) with
        | some a, _, _ => .next (s.abandonEcc o rows (w64 a))
        | none, some k, _ => .next (s.abandonParity o rows k)
        | none, none, some (r, c) => .next (s.abandonEcc o rows (w64 (2 * 2 ^ 60 + 256 * r + c)))
        | none, none, none =>
          let s := match o.kind with
            | .mmat true true k => s.sendRows k rows
            | .mmat _ _ _ | .mloadb | .mzero | .mma | .macc2s _ _ _ | .ms2acc _ | .mswap _ _ | .mjoin _ => s
          .next (s.upd fun t => { t with ops := { t.ops with mx := t.ops.mx.map fun q =>
            if q.stamp = o.stamp then { q with rows := some rows, doneAt := some (t.iss.cycle + o.busy m - 1) } else q } })

/-- MLOADB writes its columns (R171): cells, scale entries, and the rows written are good again. -/
def Tile.loadB (t : Tile) (g : Geom) (cols : List (List Byte)) : Tile :=
  let e := (pairsBelow g.n g.kb).foldl (fun e p => e.putBlock g cols p) t.eng
  { t with eng := { e with badRows := e.badRows.filter fun k => !g.krows.contains k, upsets := e.upsets.filter fun k => !g.krows.contains k } }

/-- Whether the rectangle of an operation covers both elements of an accumulator word. -/
def Geom.coversAcc (g : Geom) (w : Nat) : Bool :=
  let inside (e : Nat) : Bool := decide (g.row0 ≤ e / 128 ∧ e / 128 < g.row0 + g.m ∧ g.col0 ≤ e % 128 ∧ e % 128 < g.col0 + g.n)
  inside (2 * w) && inside (2 * w + 1)

/-- Writes an element for each place of the rectangle; words written whole are correct again. -/
def Tile.fillAcc (t : Tile) (g : Geom) (f : Nat → Nat → Nat) : Tile :=
  let t := (pairsBelow g.m g.n).foldl (fun t p => t.setAcc (g.row0 + p.1) (g.col0 + p.2) (f p.1 p.2)) t
  { t with eng := { t.eng with accBad := t.eng.accBad.filter fun w => !g.coversAcc w } }

/-- An accumulator element as MACC2S writes it (R179): FP32 unchanged, the others rounded. -/
def accOut (f : AccFmt) (rm x : Nat) : List Byte :=
  match f with
  | .f32 => toBytes x 4
  | .bf16 | .fp16 => toBytes ((accFmt f).convert (RMode.arith (Fin.ofNat 5 rm)) (fp32.decode x)).bits 2

/-- Where the rows of an operation begin in the scratchpad. -/
def Tile.mxBase (t : Tile) (o : MxOp) : Nat := match o.sh with
  | some sh => ((t.sh sh).map (·.base)).getD 0 + o.off
  | none => 0

/-- The rows of an MACC2S, written into the shingle (R179). -/
def Tile.putRows (t : Tile) (o : MxOp) (f : AccFmt) (rm : Nat) : Tile :=
  let g := o.geom
  let row (r : Nat) : List Byte := (List.range g.n).flatMap fun c => accOut f rm (t.accEl (g.row0 + r) (g.col0 + c))
  (List.range g.m).foldl (fun t r => t.landWrite (t.mxBase o) (r * o.shape.2.1) ((row r).map some)) t

/-- The aligned 8-byte words that an MACC2S has still to write. -/
def Tile.wordsLeft (t : Tile) (o : MxOp) : List Nat :=
  (((List.range o.geom.m).flatMap fun r => (upFrom (t.mxBase o + r * o.shape.2.1) o.shape.2.2).map (· / 8)).eraseDups).filter fun w =>
    !t.pad.early.contains (o.stamp, w)

/-- An MACC2S writes some of the words that it has still to write (R167). -/
def Tile.putWords (t : Tile) (o : MxOp) (f : AccFmt) (rm : Nat) (ws : List Nat) : Tile :=
  let u := t.putRows o f rm
  { t with pad := { t.pad with
      bytes := ws.foldl (fun m w => Memory.write m (8 * w) (Memory.bytes u.pad.bytes (8 * w) 8)) t.pad.bytes
      bad := t.pad.bad.filter fun w => !ws.contains w || u.pad.bad.contains w
      shadow := t.pad.shadow.filter fun e => !ws.contains e.2.1
      early := ws.map (fun w => (o.stamp, w)) ++ t.pad.early } }

/-- MACC2S ends (R179): the words that it has still to write are written, and with CLR the rectangle is cleared. -/
def Tile.storeAcc (t : Tile) (o : MxOp) (clr : Bool) (f : AccFmt) (rm : Nat) : Tile :=
  let t := t.putWords o f rm (t.wordsLeft o)
  let t := { t with pad := { t.pad with early := t.pad.early.filter fun e => decide (e.1 ≠ o.stamp) } }
  if clr then t.fillAcc o.geom fun _ _ => 0 else t

/-- In each cycle an MACC2S in progress writes a free choice of its words (R167). -/
def State.writeEarly (s : State) : State :=
  match s.tile.mxHead with
  | some o =>
    (match o.kind, o.doneAt with
     | .macc2s _ f rm, some _ =>
       let (d, s) := s.draw
       s.upd fun t => t.putWords o f rm ((t.wordsLeft o).filter fun w => Config.mxWrites d w)
     | .macc2s _ _ _, none | .mmat _ _ _, _ | .mloadb, _ | .mzero, _ | .mma, _ | .ms2acc _, _ | .mswap _ _, _ | .mjoin _, _ => s)
  | none => s

/-- The effect of a queued operation (R171, R172, R178 to R180). -/
def Tile.mxEffect (t : Tile) (o : MxOp) : Tile :=
  let rows := o.rows.getD []
  let g := o.geom
  match o.kind with
  | .mloadb => t.loadB g rows
  | .mzero => t.fillAcc g fun _ _ => 0
  | .mma | .mmat _ _ _ => t.multiply g rows fun _ _ => g.kb
  | .macc2s clr f rm => t.storeAcc o clr f rm
  | .ms2acc f =>
    t.fillAcc g fun r c => accIn f (rows.getD r []) c
  | .mswap _ _ | .mjoin _ => t

/-- MX_OPERATION_COMPLETE (R165, R241): at the end of its last busy cycle the head operation has its effect and leaves MX. -/
def execMxOperationComplete (s : State) : Out :=
  match s.tile.mxHead with
  | none => .next s
  | some o =>
    match o.doneAt with
    | none => .next s
    | some d =>
      if d < s.tile.iss.cycle ∨ (d = s.tile.iss.cycle ∧ s.tile.iss.ending) then
        .next (s.upd fun t =>
          let t := t.mxEffect o
          { t with ops := { t.ops with mx := t.ops.mx.filter fun q => decide (q.stamp ≠ o.stamp) } })
      else .next s

/-- Removes a notice. -/
def State.dropNotice (s : State) (n : Nat) : State := { s with fab := { s.fab with notices := dropNth s.fab.notices n } }

/-- JOIN_NOTICE (R175, R322, R326): a join notice reaches a member; for an absent one, or misdelivered, it is parked and raises a tile
fault. -/
def execJoinNotice (n : Nat) (s : State) : Out :=
  match s.fab.notices[n]? with
  | none => .next s
  | some x =>
    if x.leave || s.travelling (.pkt x.serial) then .next s
    else
      let there : Bool := match x.phys with
        | none => false
        | some p => decide (s.seen x.dst p = some p)
      let s := s.dropNotice n
      match s.findTile x.dst with
      | none => .next s
      | some t => if there ∨ t.pl.finished then .next s else .next (s.parkArrival x.dst (.join x.source))

/-- Whether a virtual tile is the source of the truss row of the current tile under a plan (R174). -/
def Tile.rowSource (t : Tile) (plan vt : Nat) : Bool :=
  t.eng.joined && decide (t.eng.plan.toNat = plan) && (match t.planOf with
    | some p => p.members.contains (vt, t.eng.pos.val / 3 * 3)
    | none => false)

/-- What a leave notice does to a member (R177): where it comes from the source of the member's row, of the membership that the member is
in, the MMATs complete to which no rows have come and none had been sent before it. -/
def State.noteLeave (s : State) (x : Notice) : State :=
  let coming (k : Nat) : Bool := s.fab.rowPackets.any fun r => s.tile.ownRows r && decide (r.index = k ∧ r.serial < x.serial)
  let ends (o : MxOp) : Bool := match o.kind with
    | .mmat true false k => o.rows.isNone && !coming k
    | .mmat _ _ _ | .mloadb | .mzero | .mma | .macc2s _ _ _ | .ms2acc _ | .mswap _ _ | .mjoin _ => false
  if s.tile.rowSource x.plan x.source && decide (s.tile.eng.joinSerial ≤ x.serial) then
    s.upd fun t => { t with ops := { t.ops with mx := t.ops.mx.filter fun o => !ends o } }
  else s

/-- LEAVE_NOTICE (R177, R269): a leave notice reaches a member, wherever its context is; with the source of its row gone, unpaired MMATs
complete, and firmware releases the pins of a plan that every member has left. -/
def execLeaveNotice (n : Nat) (s : State) : Out :=
  match s.fab.notices[n]? with
  | none => .next s
  | some x =>
    if x.leave && !s.travelling (.pkt x.serial) then
      .next (((s.dropNotice n).withTile x.dst fun s => (s.noteLeave x).completeUnpaired).releasePins x.dst.part x.dst.gid)
    else .next s

/-- Changes a row packet. -/
def State.setRow (s : State) (n : Nat) (r : RowPacket) : State :=
  { s with fab := { s.fab with rowPackets := mapNth (fun _ => r) s.fab.rowPackets n } }

/-- Whether a leave notice that the source of a row packet sent to the member before it has still to arrive (R177). -/
def State.leaveBefore (s : State) (r : RowPacket) : Bool :=
  s.fab.notices.any fun x => x.leave && decide (x.dst = r.dst ∧ x.plan = r.plan ∧ x.serial < r.serial) &&
    (match s.findTile r.dst with
     | some t => t.rowSource x.plan x.source
     | none => false)

/-- MMAT_ROW_DELIVERY (R176, R177, R322): the rows reach the member's paired MMAT, once their flits have come; a member that has left takes
nothing, nor does one that has joined again since (log 81, DEDUCED), and a packet that was misdelivered is sent on to where the member's
context is. -/
def execMmatRowDelivery (n : Nat) (s : State) : Out :=
  match s.fab.rowPackets[n]? with
  | none => .next s
  | some r =>
    let gone := { s with fab := { s.fab with rowPackets := dropNth s.fab.rowPackets n } }
    let site := (s.findTile r.dst).bind Tile.based
    let owned : Bool := match s.findTile r.dst with
      | some t => t.ownRows r
      | none => false
    if s.rowsTravel r.serial || s.leaveBefore r then .next s
    else if !s.inRound r.dst r.plan || !owned then .next gone
    else if r.phys ≠ site then
      let s := match site with
        | some p => s.injectRows r (r.phys.getD p) p
        | none => s
      .next (s.setRow n { r with phys := site })
    else
      let mine (o : MxOp) : Bool := decide (o.kind = .mmat true false r.index) && o.rows.isNone
      match s.findTile r.dst with
      | some t =>
        if t.ops.mx.any mine then
          let give (o : MxOp) : MxOp := if mine o then { o with rows := some r.rows } else o
          .next (gone.updTile r.dst fun t => { t with ops := { t.ops with mx := t.ops.mx.map give } })
        else .next s
      | none => .next s

/-- MJOIN_COMPLETE (R175, R332): once an MJOIN of every member of a plan stands in MX, firmware brings the absent ones back, as for a tile
fault (log 8, DEDUCED), and then pins all of them in one version change, at whose commit MJOIN leaves MX; a plan larger than the pool, with
a member that has joined, removes the gang (R275). A member that has joined again thus waits until every other one has (log 81, DEDUCED). -/
def execMjoinComplete (plan : Nat) (s : State) : Out :=
  let id := s.tile.id
  match s.gang id.part id.gid with
  | none => .next s
  | some g =>
    match g.image.prog.plans[plan]? with
    | none => .next s
    | some p =>
      let ids := p.tiles id.part id.gid
      let all (f : Tile → Bool) : Bool := ids.all fun i => match s.findTile i with
        | some t => f t
        | none => false
      if (ids.any fun i => s.joinedAt i plan) && decide ((s.pool id.part).length < ids.length) then .next (s.killGang id.part id.gid)
      else if !ids.all (fun i => s.joiningAt i plan) then .next s
      else if all fun t => decide (t.pl.res = .resident) then
        if g.mayChange then .next (s.beginChange id.part id.gid [] (ids.map fun i => (i.vt, true))) else .next s
      else .next (s.updAll fun t =>
        if ids.contains t.id ∧ t.pl.res = .absent ∧ !t.pl.finished then { t with pl := { t.pl with faulted := true } } else t)

/-! ## Checksum and scrub -/

/-- BACKGROUND_CHECKSUM (R181, R389): the rows of a macro whose parity does not match are marked bad and set MSTAT.MXE; event 57. Event 39
does not count them (log 65, DESIGN CHOICE). -/
def execBackgroundChecksum (mac : Fin 16) (s : State) : Out :=
  let hit := s.tile.eng.upsets.filter fun k => decide (k / 128 = mac.val)
  match hit with
  | [] => .next s
  | _ =>
    let s := s.upd fun t => { t with
      eng := { t.eng with badRows := t.eng.badRows ++ hit, upsets := t.eng.upsets.filter fun k => !hit.contains k }
      regs := { t.regs with mxe := true } }
    .next s.tileUnc

end Sys2Proof.Machine
end

