-- ==== Sys2Proof/Machine/Cycle.lean ====
section
/-! DEFINITION. What a cycle of the current tile does, as the step calls it: at an instruction boundary it says which step comes
(R35, R39, R237, R253), and it names the results and arrivals that fall due at the end of the cycle (R238, R34). -/

namespace Sys2Proof.Machine

/-- What a tile does in a cycle before the cycle ends: nothing but a stall event, the TAIL cycle of a pair, an asynchronous trap,
gang-stop, or what stands at issue. -/
inductive CyclePlan where
  | off
  | stall (ev : Nat)
  | tail (d : GReg) (x : Word)
  | pending
  | stop
  | issue (f : Fetched)
deriving DecidableEq, Repr, Inhabited

/-- What the current tile does in its next cycle (R237, R253): a pending trap comes first at a boundary at U, then gang-stop
(R39). -/
def Tile.plan (t : Tile) (draw : Nat) : CyclePlan :=
  if !t.counts || t.iss.ending then .off
  else
    match t.iss.tail with
    | some (d, x) => if t.slotAllowed then .tail d x else .stall 2
    | none =>
      if t.mayRun && t.trapFirst then .pending
      else if t.pl.stopDue then .stop
      else if !t.mayRun || !t.ex.inh || t.ex.idle then .stall 15
      else if !t.slotAllowed then .stall 2
      else if t.iss.cycle < t.iss.bubble then .stall 3
      else if !t.fetchReady then .stall 9
      else .issue (t.fetch draw)

/-- The start of a counted cycle: the head of the engine's queue starts where its predecessor's last busy cycle has passed (R241), and
the scratchpad serves instruction fetch and the local memory instruction in progress (R246). -/
def startCycle (s : State) : Out :=
  if s.tile.counts && !s.tile.iss.ending then
    match execMxOperationStart s with
    | .next s => .next (s.upd Tile.scratchCycle)
    | .fault r => .fault r
    | .refused r => .refused r
  else .next s

/-- In a cycle that is no allowed fetch slot, a fence that stands next to issue comes to its acquire point where its wait is met (R234,
R235). -/
def State.noteAcquire (s : State) : State :=
  let t := s.tile
  if t.iss.tail.isNone && t.ex.acqWait.isNone && decide (t.iss.bubble ≤ t.iss.cycle) && t.fetchReady then
    let s := s.fetched
    match s.tile.fetch s.drawn with
    | .ok i =>
      if s.tile.acquires i then s.upd fun t => { t with ex := { t.ex with acqWait := some (s.hostQueue t.gang.asid) } } else s
    | .unassigned _ _ | .fault _ _ => s
  else s

/-- The second cycle of a pair (R242): its result is written. -/
def Tile.pairTail (t : Tile) (d : GReg) (x : Word) : Tile :=
  { t.setG d x with iss := { (t.setG d x).iss with tail := none, stall := none } }

/-- The place of the first result that is due at the end of the cycle (R238). -/
def Tile.writeAt (t : Tile) : Option Nat := t.iss.writes.findIdx? fun w => decide (w.due ≤ t.iss.cycle)

/-- What the end of the cycle still owes (R238): results first, then local loads in issue order (R34). -/
def owedStep (s : State) : Option Out :=
  match s.tile.writeAt with
  | some n => some (execRegisterToRegisterWrite n s)
  | none => s.tile.firstDue.map fun n => execLoadArrival n s

end Sys2Proof.Machine
end

