-- ==== Sys2Proof/Machine/GlobalMem.lean ====
section
/-! DEFINITION. Scalar global memory: GLD, GLDN and GST (R109 to R114). The checks are made before issue, with the translation
held by the NI; the access is then outstanding until its home performs it and its data arrives. -/

namespace Sys2Proof.Machine

/-- Adds an operation of class LD under the next stamp. -/
def Tile.pushLoad (t : Tile) (o : OutLoad) : Tile :=
  let t := match o.kind with
    | .global _ | .atomic _ _ _ _ _ => o.elems.foldl (fun (t : Tile) (e : LoadElem) => t.usePages e.va e.bytes) t
    | .timed _ _ | .crd _ _ => t
  { t with ops := { t.ops with stamp := t.ops.stamp + 1, loads := t.ops.loads ++ [o] } }

/-- Adds an operation of class ST under the next stamp. -/
def Tile.pushStore (t : Tile) (o : OutStore) : Tile :=
  let t := o.elems.foldl (fun (t : Tile) (e : StoreElem) => t.usePages e.va e.data.length) t
  { t with ops := { t.ops with stamp := t.ops.stamp + 1, stores := t.ops.stores ++ [o] } }

/-- The checks of a scalar global access of n bytes (R109, R110): its physical address. -/
def State.scalarGlobal (s : State) (k : AccessKind) (aclass : Nat) (ea : Word) (n : Nat) : Except Stop Nat := do
  failIf (decide (ea.toNat % n ≠ 0)) (.cause 0x04 ea aclass)
  s.checkGlobal k aclass none ea.toNat n

/-- A scalar global load (R111). -/
def globalLoad (d a : GReg) (z : Fin 8) (off : BitVec 13) (ext : LoadExt) (s : State) : Out :=
  let n := 2 ^ z.val
  let ea := memEa s.tile a z off
  let hs := s.tile.handlesOf [(ea.toNat, n)]
  issue { regs := [.g d, .g a], reads := [.g a], cls := some .ld, hs := hs } (fun s => do
    let pa ← s.scalarGlobal .load 4 ea n
    .ok ((s.upd fun t =>
      ((t.event 31 1).issued [.g a]).pushLoad
        { stamp := t.ops.stamp, kind := .global ext
          elems := [{ reg := .g d, lane := 0, va := ea.toNat, pa := pa, bytes := n, val := none }]
          regs := [.g d], hs := hs, issued := t.iss.cycle, aclass := 4, ecc := none }).injectReqs s.tile.ops.stamp [stackOf pa])) s

/-- GLD (R111): sign-extended. -/
def execGld (d a : GReg) (z : Fin 8) (off : BitVec 13) (s : State) : Out := globalLoad d a z off .signed s

/-- GLDN (R111): zero-extended. -/
def execGldn (d a : GReg) (z : Fin 8) (off : BitVec 13) (s : State) : Out := globalLoad d a z off .zero s

/-- GST (R112): gs is read at issue; the store counts until it is visible at DEVICE scope. -/
def execGst (v a : GReg) (z : Fin 8) (off : BitVec 13) (s : State) : Out :=
  let n := 2 ^ z.val
  let ea := memEa s.tile a z off
  let hs := s.tile.handlesOf [(ea.toNat, n)]
  issue { regs := [.g v, .g a], reads := [.g v, .g a], cls := some .st, hs := hs } (fun s => do
    let pa ← s.scalarGlobal .store 5 ea n
    .ok ((s.upd fun t =>
      ((t.event 32 1).issued [.g v, .g a]).pushStore
        { stamp := t.ops.stamp, vec := false, ecc := none, hs := hs
          elems := [{ lane := 0, va := ea.toNat, pa := pa, data := toBytes (t.g v).toNat n, done := false }] }).injectReqs
            s.tile.ops.stamp [stackOf pa])) s

end Sys2Proof.Machine
end

