-- ==== Sys2Proof/Machine/Atomic.lean ====
section
/-! DEFINITION. The atomics and reductions as they issue (R219 to R226): AXCHG, ACAS, AADD, AMIN, AMAX, RADD, RMIN, RMAX and
RSEAL. The engines perform them in the events of EventSync. -/

namespace Sys2Proof.Machine

/-- The physical address of a line that the THROTTLE check asks for (R219): from the translation held, else from the page tables
(log 23, DEDUCED). -/
def State.linePa (s : State) (va : Nat) : Option Nat :=
  (match s.tile.held va with
   | some e => some e
   | none => s.walk s.tile.gang.asid va).map fun (e : TlbEntry) => e.pa + (va - e.va)

/-- The THROTTLE check of a line for a table (R219). -/
def State.throttleLine (s : State) (table : Nat) (va aclass : Nat) : Except Stop Unit :=
  match s.linePa va with
  | some pa =>
    failIf (s.tile.denied table ((s.part s.tile.id.part).lineHome pa)) (.cause 0x0A (w64 (table * 2 ^ 32)) aclass)
  | none => .ok ()

/-- The checks of an atomic or a reduction of n bytes (R219, R220, R223): its physical address. -/
def State.checkLine (s : State) (k : AccessKind) (aclass : Nat) (ea : Word) (n : Nat) : Except Stop Nat := do
  s.throttleLine 2 ea.toNat aclass
  failIf (decide (k = .red) && s.tile.gang.det && (s.throttleLine 3 ea.toNat aclass).toOption.isNone)
    (.cause 0x0A (w64 (3 * 2 ^ 32)) aclass)
  failIf (decide (ea.toNat % n ≠ 0)) (.cause 0x04 ea aclass)
  s.checkGlobal k aclass none ea.toNat n

/-- The site of the engine of a line of the current tile's partition. -/
def State.lineSite (s : State) (pa : Nat) : Nat := Config.engineSite (s.lineEngine s.tile.gang.asid pa)

/-- An atomic issues (R220, R221): gb holds the operand and receives the old value. -/
def atomicOp (op : AtomicOp) (a b : GReg) (c : Option GReg) (dw nat : Bool) (s : State) : Out :=
  let n := if dw then 8 else 4
  let ea := s.tile.g a
  let hs := s.tile.handlesOf [(ea.toNat, n)]
  let rs : List RegName := [.g a, .g b] ++ (match c with
    | some c => [.g c]
    | none => [])
  issue { regs := rs, reads := rs, cls := some .ld, hs := hs } (fun s => do
    let pa ← s.checkLine .atomic 6 ea n
    let st := s.tile.ops.stamp
    let y := match c with
      | some c => s.tile.g c
      | none => 0
    let s := s.upd fun t =>
      ((t.event 45 1).issued rs).pushLoad
        { stamp := st, kind := .atomic op (t.g b) y nat (if nat then .zero else .signed)
          elems := [{ reg := .g b, lane := 0, va := ea.toNat, pa := pa, bytes := n, val := none }]
          regs := [.g b], hs := hs, issued := t.iss.cycle, aclass := 6, ecc := none }
    .ok (s.injectReqs st [s.lineSite pa])) s

/-- AXCHG (R221). -/
def execAxchg (a b : GReg) (dw : Bool) (s : State) : Out := atomicOp .axchg a b none dw false s

/-- ACAS (R221). -/
def execAcas (a b c : GReg) (dw : Bool) (s : State) : Out := atomicOp .acas a b (some c) dw false s

/-- AADD (R221). -/
def execAadd (a b : GReg) (dw : Bool) (s : State) : Out := atomicOp .aadd a b none dw false s

/-- AMIN (R221). -/
def execAmin (a b : GReg) (dw nat : Bool) (s : State) : Out := atomicOp .amin a b none dw nat s

/-- AMAX (R221). -/
def execAmax (a b : GReg) (dw nat : Bool) (s : State) : Out := atomicOp .amax a b none dw nat s

/-- A reduction issues (R223): it enters MS with its epoch and issue sequence (R225). -/
def reductionOp (op : RedOp) (a b : GReg) (ty : RedTy) (s : State) : Out :=
  let n := redSize ty
  let ea := s.tile.g a
  let hs := s.tile.handlesOf [(ea.toNat, n)]
  issue { regs := [.g a, .g b], reads := [.g a, .g b], cls := some .ms, hs := hs } (fun s => do
    let pa ← s.checkLine .red 7 ea n
    let st := s.tile.ops.stamp
    let s := s.upd fun t =>
      let k : MsKind := .red op ty ea.toNat pa (t.g b) t.ex.prv t.ops.epoch t.ops.redSeq
      let t := (((t.event 46 1).issued [.g a, .g b]).usePages ea.toNat n).pushMs k false hs
      { t with ops := { t.ops with redSeq := t.ops.redSeq + 1 } }
    .ok (s.injectReqs st [s.lineSite pa])) s

/-- RADD (R223). -/
def execRadd (a b : GReg) (t : RedTy) (s : State) : Out := reductionOp .radd a b t s

/-- RMIN (R223). -/
def execRmin (a b : GReg) (t : RedTy) (s : State) : Out := reductionOp .rmin a b t s

/-- RMAX (R223). -/
def execRmax (a b : GReg) (t : RedTy) (s : State) : Out := reductionOp .rmax a b t s

/-- RSEAL (R226): it closes the tile's epoch; ILLEGAL for counter 0 or no participants. -/
def execRseal (a b : GReg) (s : State) : Out :=
  issue { regs := [.g a, .g b], reads := [.g a, .g b], cls := some .ms } (fun s => do
    let id := ctrId (s.tile.g a)
    let p := bitsOf (s.tile.g b).toNat 31 0
    failIf (decide (id = 0 ∨ p = 0)) (.cause 0x01 (instrWord (.rseal a b)))
    s.checkCtr id 10
    let st := s.tile.ops.stamp
    let s := s.upd fun t =>
      let t := ((t.event 44 1).issued [.g a, .g b]).pushMs (.seal id p t.ops.epoch) false 0
      { t with ops := { t.ops with epoch := t.ops.epoch + 1 } }
    .ok (s.injectReqs st [Config.engineSite (s.ctrEngine s.tile.gang.asid id)])) s

end Sys2Proof.Machine
end

