-- ==== Sys2Proof/Machine/Control.lean ====
section
/-! DEFINITION. Control flow (R101 to R104), and NOP, TRAP, SYSC, BREAK and ERET (R116 to R118). A branch reads its registers
at issue; a taken one costs two bubble cycles (R242). A target that cannot be fetched traps at its own fetch (R36). -/

namespace Sys2Proof.Machine

/-- A branch that reads some registers: it is taken where the condition holds. link says that g31 gets PC + 4 (R102), after
the target has been computed (R103). -/
def branchOp (reads : List RegName) (link : Bool) (taken : Tile → Bool) (target : Tile → Word) : State → Out :=
  issue { regs := if link then .g 31 :: reads else reads, reads := reads } fun s =>
    .ok (s.upd fun t =>
      let pc := t.ex.pc
      let go := taken t
      let dest := target t
      let t := t.issued reads
      let t := if link then t.result 1 (.g 31 (pc + 4)) else t
      if go then t.branchTo pc dest else t)

/-- A PC-relative target of format J or B (R102). -/
def pcRel {n : Nat} (disp : BitVec n) (t : Tile) : Word := t.ex.pc + disp.signExtend 64 <<< 2

/-- A conditional branch on two registers. -/
def branch2 (a b : GReg) (disp : BitVec 16) (c : Word → Word → Bool) : State → Out :=
  branchOp [.g a, .g b] false (fun t => c (t.g a) (t.g b)) (pcRel disp)

/-- The target of JR and JLR (R102). -/
def jumpTo (v : GReg) (disp : BitVec 16) (t : Tile) : Word := t.g v + disp.signExtend 64 <<< 2

/-- Whether some active lane of a mask is set (R102, R103). -/
def anyLane (v : MReg) (t : Tile) : Bool := t.enabled v != 0

/-- B (R102). -/
def execB (disp : BitVec 26) (s : State) : Out := branchOp [] false (fun _ => true) (pcRel disp) s

/-- BL (R102). -/
def execBl (disp : BitVec 26) (s : State) : Out := branchOp [] true (fun _ => true) (pcRel disp) s

/-- BEQ (R102). -/
def execBeq (a b : GReg) (disp : BitVec 16) (s : State) : Out := branch2 a b disp (fun a b => a == b) s

/-- BNE (R102). -/
def execBne (a b : GReg) (disp : BitVec 16) (s : State) : Out := branch2 a b disp (fun a b => a != b) s

/-- BLT (R102). -/
def execBlt (a b : GReg) (disp : BitVec 16) (s : State) : Out := branch2 a b disp (fun a b => BitVec.slt a b) s

/-- BGE (R102). -/
def execBge (a b : GReg) (disp : BitVec 16) (s : State) : Out := branch2 a b disp (fun a b => BitVec.sle b a) s

/-- BLTN (R102). -/
def execBltn (a b : GReg) (disp : BitVec 16) (s : State) : Out := branch2 a b disp (fun a b => BitVec.ult a b) s

/-- BGEN (R102). -/
def execBgen (a b : GReg) (disp : BitVec 16) (s : State) : Out := branch2 a b disp (fun a b => BitVec.ule b a) s

/-- JR (R102). -/
def execJr (v : GReg) (disp : BitVec 16) (s : State) : Out := branchOp [.g v] false (fun _ => true) (jumpTo v disp) s

/-- JLR (R102, R103). -/
def execJlr (v : GReg) (disp : BitVec 16) (s : State) : Out := branchOp [.g v] true (fun _ => true) (jumpTo v disp) s

/-- BMANY (R102, R103). -/
def execBmany (v : MReg) (disp : BitVec 16) (s : State) : Out := branchOp [.m v] false (anyLane v) (pcRel disp) s

/-- BMNONE (R102, R103). -/
def execBmnone (v : MReg) (disp : BitVec 16) (s : State) : Out :=
  branchOp [.m v] false (fun t => !anyLane v t) (pcRel disp) s

/-- NOP (R116): it occupies an issue slot. -/
def execNop (s : State) : Out := issue {} (fun s => .ok (s.upd fun t => t.issued [])) s

/-- An instruction that issues and then traps of itself (R117): the trap is entered in the cycle after it issues (R242), with
TPC at the PC or at the next word, and TVAL the instruction word. -/
def raiseOp (i : Instr) (cause : Nat) (next : Bool) : State → Out :=
  issue {} fun s =>
    .ok (s.upd fun t =>
      let pc := t.ex.pc
      let u := (t.issued []).takeTrap { cause := cause, tval := instrWord i } (if next then pc + 4 else pc) (t.iss.cycle + 1)
      { u with iss := { u.iss with stall := none } })

/-- TRAP (R117): TRAPI, resuming at the next word. -/
def execTrap (x : BitVec 12) (s : State) : Out := raiseOp (.trap x) 0x0F true s

/-- SYSC (R117): SYSC, resuming at the next word. -/
def execSysc (x : BitVec 12) (s : State) : Out := raiseOp (.sysc x) 0x0E true s

/-- BREAK (R117): TPC is the BREAK. -/
def execBrk (x : BitVec 12) (s : State) : Out := raiseOp (.brk x) 0x0D false s

/-- ERET (R40, R118): PRIV at U. -/
def execEret (s : State) : Out :=
  issue {} (fun s => do
    failIf (!s.tile.ex.prv) (.cause 0x03 (instrWord .eret))
    .ok (s.upd fun t =>
      let u := t.issued []
      { u with ex := { u.ex with pc := t.ex.pc } }.eretTo)) s

end Sys2Proof.Machine
end

