-- ==== Sys2Proof/Machine/Pages.lean ====
section
/-! DEFINITION. Page tables as firmware changes them (R230, R283, R337, R338, R342): the entry of a leaf, a new mode and owner, and
the invalidation of translations (R340). -/

namespace Sys2Proof.Machine

/-- The physical address of the leaf entry that maps an address, from a table through the levels that remain (R337, R338). -/
def leafFrom (m : GlobalMem) (va : Nat) : Nat → List (Nat × Nat × Nat) → Option Nat
  | _, [] => none
  | table, (lo, w, lv) :: rest =>
    let a := table + 8 * (va / 2 ^ lo % 2 ^ w)
    let e := m.word a
    if e % 2 = 0 then none
    else if e / 2 % 2 = 1 then (leafOf e va lo lv).map fun _ => a
    else if rest.isEmpty ∨ bitsOf e 63 42 ≠ 0 ∨ bitsOf e 11 2 ≠ 0 then none
    else leafFrom m va (bitsOf e 41 12 * 4096) rest

/-- The physical address of the leaf entry that maps a virtual address of an ASID. -/
def State.leafAddr (s : State) (a va : Nat) : Option Nat :=
  if va < 2 ^ 56 then
    match s.asid a with
    | some e => leafFrom s.mem va e.root levels
    | none => none
  else none

/-- A leaf entry with a new mode and owner (R338). -/
def leafWith (e mode owner : Nat) : Nat := e % 2 ^ 38 + (owner % 2 ^ 24) * 2 ^ 38 + mode % 4 * 2 ^ 62

/-- Writes 8 bytes of a page table, a whole word, which is correct from then on (R385). -/
def State.setEntry (s : State) (a x : Nat) : State :=
  { s with mem := { s.mem with hbm := Memory.setNat s.mem.hbm a 8 x, bad := s.mem.bad.filter (· ≠ a / 8) } }

/-- A page gets a new mode and owner. -/
def State.setPage (s : State) (asid : Nat) (mode owner : Nat) (e : TlbEntry) : State :=
  match s.leafAddr asid e.va with
  | some a => (s.walkMeets asid [e.va]).setEntry a (leafWith (s.mem.word a) mode (if mode = 0 then owner else 0))
  | none => s

/-- The translations of a range are invalidated in every NI and every field translation unit (R230, R283, R340), those fetched for an access
at issue among them. -/
def State.invalidate (s : State) (asid va n : Nat) : State :=
  let keep (e : TlbEntry) : Bool := !(decide (e.asid = asid) && meets e.va e.size va n)
  let s := s.updAll fun t => { t with ni := { t.ni with tlb := t.ni.tlb.filter keep, got := t.ni.got.filter keep } }
  { s with mem := { s.mem with unitTlb := s.mem.unitTlb.filter fun x => keep x.2 } }

/-- Every page of a range gets a mode and owner, and its stale translations go. -/
def State.setPages (s : State) (asid va n mode owner : Nat) : State :=
  (((s.pagesOf asid va n).1).foldl (fun s e => s.setPage asid mode owner e) s).invalidate asid va n

end Sys2Proof.Machine
end

