-- ==== Sys2Proof/Machine/Reduction.lean ====
section
/-! DEFINITION. The application of reductions at their home engines (R223 to R228): re-translation, faults and the fault ring
(R343), rounds (R226) and their order (R225), retry and abandonment. -/

namespace Sys2Proof.Machine

/-- The record of a reduction fault (R343). -/
def RedFault.record (f : RedFault) : List Byte :=
  faultRecord 1 f.hold.tile.gid f.cause (redCode f.hold.ty) f.hold.va (f.hold.x.toNat % 2 ^ (8 * redSize f.hold.ty)) f.hold.tile.vt
    f.index

/-- Writes the records of faults whose slots are free (R343). -/
def State.writeFaults (s : State) : State :=
  (s.sync.faults.filter fun f => !f.written).foldl (fun s f =>
    if s.slotTaken f.asid f.index then s
    else
      let s := { s with sync := { s.sync with faults := s.sync.faults.map fun (g : RedFault) =>
        if g.asid = f.asid ∧ g.index = f.index then { g with written := true, time := s.fab.time } else g } }
      s.postFault f.asid f.index f.record) s

/-- A reduction fails at its application (R228): it goes to the fault log, with what waits behind it. -/
def State.redFault (s : State) (h : Hold) (cause : Nat) (behind : List Hold) : State :=
  let (n, s) := s.faultIndex h.asid
  { s with sync := { s.sync with faults := s.sync.faults ++ [RedFault.mk h.asid n cause h behind false s.fab.time] } }.writeFaults

/-- Applies reductions to one address in order; the first that fails keeps the rest behind it (R228). -/
def State.applyChain (s : State) : List Hold → State
  | [] => s
  | h :: rest =>
    match s.retranslate h with
    | .ok pa => State.applyChain ((s.redMeet h).applyAt h pa) rest
    | .error c => (s.redMeet h).redFault h c rest

/-- A reduction of a DET round is applied, or waits behind an open fault at its address (R228). -/
def State.applyHeld (s : State) (h : Hold) : State :=
  if s.sync.faults.any fun f => decide (f.asid = h.asid ∧ f.hold.va = h.va ∧ f.hold.tile.part = h.tile.part ∧
      f.hold.tile.gid = h.tile.gid) && f.hold.round.isSome then
    { s with sync := { s.sync with faults := s.sync.faults.map fun f =>
      if f.asid = h.asid ∧ f.hold.va = h.va ∧ f.hold.tile.part = h.tile.part ∧ f.hold.tile.gid = h.tile.gid then
        { f with behind := f.behind ++ [h] } else f } }
  else s.applyChain [h]

/-- A reduction that its home engine accepts (R223): its line comes into the buffer, though it may be held (R280). -/
def State.bringFor (s : State) (h : Hold) : State :=
  match s.retranslate h with
  | .ok pa => (s.redMeet h).bringLine h.asid h.va pa
  | .error _ => s.redMeet h

/-- Applies the held reductions of a gang that a predicate names, in the order of R225, for a round of a seal counter. -/
def State.applyRound (s : State) (part gid : Nat) (ctr : W32) (p : Hold → Bool) : State :=
  let mine (h : Hold) : Bool := decide (h.tile.part = part ∧ h.tile.gid = gid) && p h
  let l := (sortList Hold.before (s.sync.holds.filter mine)).map fun h => { h with round := some ctr }
  let s := { s with sync := { s.sync with holds := s.sync.holds.filter fun h => !mine h } }
  let s := l.foldl State.applyHeld s
  (l.map fun h => s.lineEngine h.asid h.pa).eraseDups.foldl (fun s e => s.denySteps part e) s

/-- Whether a reduction of a gang's round stands in a fault log, or waits behind one that does. -/
def State.roundFaults (s : State) (r : Round) : Bool :=
  s.sync.faults.any fun f => (f.hold :: f.behind).any fun h =>
    decide (h.tile.part = r.part ∧ h.tile.gid = r.gid ∧ h.round = some r.ctr)

/-- Rounds whose every reduction has been applied or discarded add 1 to their counters and begin anew (R226, R228). -/
def State.finishRounds (s : State) : State :=
  let due := s.sync.rounds.filter fun r => r.applied && !s.roundFaults r
  let s := { s with sync := { s.sync with rounds := s.sync.rounds.filter fun r => !due.contains r } }
  due.foldl (fun s r => s.ctrBy r.asid r.ctr r.gid fun c => c.addValue 1) s

/-- The fault of an index of an ASID. -/
def State.faultOf (s : State) (asid n : Nat) : Option RedFault :=
  s.sync.faults.find? fun f => decide (f.asid = asid ∧ f.index = n)

/-- Removes a fault; records that waited for its slot are written (R343). -/
def State.dropFault (s : State) (asid n : Nat) : State :=
  { s with sync := { s.sync with faults := s.sync.faults.filter fun f => !decide (f.asid = asid ∧ f.index = n) } }.flushRecords

/-- The supervisor reports the page of a fault resolved (R228): the reduction is tried again, then those behind it. -/
def State.retryFault (s : State) (f : RedFault) : State :=
  (((s.dropFault f.asid f.index).applyChain (f.hold :: f.behind)).writeFaults).finishRounds

/-- A fault is unresolvable (R228): its reduction is discarded, the rest proceeds, and the gang completes with REDLOST. -/
def State.abandonFault (s : State) (f : RedFault) : State :=
  let s := (s.dropFault f.asid f.index).updGang f.hold.tile.part f.hold.tile.gid fun g => { g with redLost := true }
  ((s.applyChain f.behind).writeFaults).finishRounds

end Sys2Proof.Machine
end

