-- ==== Sys2Proof/Machine/EventSync.lean ====
section
/-! DEFINITION. Messages on their way and at their destination (R200, R302, R308, R374), and the sync engines at work: counters,
waiters, deny bits, atomics, reductions, seals, faults and hand-over (R211 to R230, R343). An event that is not due leaves the
state as it is. -/

namespace Sys2Proof.Machine

/-! ## Messages -/

/-- Whether the clock of the physical tile at which a message arrives is paused, so that the message is written after the pause (R250). -/
def State.arrivalPaused (s : State) (m : Msg) : Bool :=
  match m.phys, s.findTile ⟨m.part, m.gid, m.dst⟩ with
  | some p, some t => t.ni.paused && decide (t.based = some p)
  | _, _ => false

/-- MESSAGE_ARRIVAL (R308, R326): a message that has left the fabric is accepted, held, diverted or parked; not while the tile's clock is
paused (R250). -/
def execMessageArrival (n : Nat) (s : State) : Out :=
  match s.fab.flight[n]? with
  | none => .next s
  | some m =>
    if m.sent && !s.travelling (.msg m.serial) && !s.arrivalPaused m then
      let s := { s with fab := { s.fab with flight := dropNth s.fab.flight n } }
      .next (((s.arriveMsg m).sendReady fun x => x.samePair m).retryMail m.part)
    else .next s

/-- MS_ACKNOWLEDGEMENT (R32, R200): the acknowledgement of an operation that its destination has taken comes back, and the operation
leaves MS and its handle counts. -/
def execMsAcknowledgement (n : Nat) (s : State) : Out :=
  match s.tile.ops.ms[n]? with
  | some o =>
    if o.done && !s.answering o.stamp then .next (s.upd fun t => { t with ops := { t.ops with ms := dropNth t.ops.ms n } })
    else .next s
  | none => .next s

/-- The oldest queued message of a channel moves into the inbox if it is admitted (R302); a parked one passes R308 first
(R327). -/
def State.moveOne (s : State) (c : Fin 64) : State :=
  match s.tile.inb.overflow.find? fun m => decide (m.chan = c) with
  | none => s
  | some m =>
    if s.tile.admits c then
      let s := s.upd fun t => { t with inb := { t.inb with overflow := t.inb.overflow.filter fun x => decide (x.serial ≠ m.serial) } }
      if m.parked then s.sequence { m with parked := false } fun s m => s.acceptInbox m else s.acceptInbox m
    else s

/-- A number of rounds over the channels in ascending order (R302). -/
def State.moveRounds : Nat → State → State
  | 0, s => s
  | n + 1, s => State.moveRounds n ((List.finRange 64).foldl State.moveOne s)

/-- OVERFLOW_MOVE (R302, R327): one round over the channels; messages that a parked one lets out of the reorder window may be diverted, and
need room (R347). -/
def execOverflowMove (s : State) : Out :=
  if s.tile.pl.res = .resident ∧ !s.tile.ni.paused then
    .next (((s.moveRounds 1).retryMail s.tile.id.part).overflowCheck s.tile.id.part s.tile.id.gid)
  else .next s

/-! ## Counters -/

/-- WAITER_REQUEST (R216, R305): the request of a CWAIT reaches the counter's home, which evaluates the condition. -/
def execWaiterRequest (s : State) : Out :=
  match s.tile.ex.cw with
  | none => .next s
  | some c =>
    let asid := s.tile.gang.asid
    if !c.sent || c.queued || c.released || c.acquired.isSome || s.reqComing c.stamp ||
        s.numberedBefore c.stamp (s.ctrEngine asid c.ctr) (some c.ctr) then .next s
    else
      let w : Waiter := ⟨s.tile.id, c.thr, c.nopend, false⟩
      let s := s.upd fun t => { t with ex := { t.ex with cw := some { c with queued := true } } }
      .next ((s.ctrApply asid c.ctr fun k => { k with waiters := k.waiters ++ [w] }).engineCheck w.tile.part w.tile.gid)

/-- What an MS operation does to a counter. -/
def MsKind.onCounter : MsKind → Option (W32 × (Counter → Counter))
  | .cadd c x => some (c, fun k => k.addValue x.toNat)
  | .cexp c x => some (c, fun k => k.addPend x.toInt)
  | .cset c x => some (c, fun k => k.setTo x)
  | .msg | .red _ _ _ _ _ _ _ _ | .seal _ _ _ | .handover _ _ _ _ _ _ => none

/-- Marks an MS operation done. -/
def Tile.msDone (t : Tile) (n : Nat) : Tile :=
  { t with ops := { t.ops with ms := mapNth (fun o => { o with done := true }) t.ops.ms n } }

/-- An engine has taken an MS operation of the current tile, and its acknowledgement leaves (R32, R296). -/
def State.taken (s : State) (n stamp engine : Nat) : State :=
  (s.upd fun t => t.msDone n).respond s.tile.id stamp (Config.engineSite engine)

/-- COUNTER_OPERATION (R211 to R214, R188): an engine applies an operation of the tile, in the tile's order (R305), or a copy
credit. -/
def execCounterOperation (src : CtrSource) (s : State) : Out :=
  match src with
  | .msOp n =>
    (match s.tile.ops.ms[n]? with
     | none => .next s
     | some o =>
       match o.kind.onCounter with
       | none => .next s
       | some (c, f) =>
         let asid := s.tile.gang.asid
         if o.done || s.reqComing o.stamp || (o.rel && !s.tile.releasedBefore o.stamp) ||
             s.numberedBefore o.stamp (s.ctrEngine asid c) (some c) then .next s
         else .next (((s.taken n o.stamp (s.ctrEngine asid c)).ctrApply asid c f).engineCheck s.tile.id.part s.tile.id.gid))
  | .credit n =>
    (match s.sync.credits[n]? with
     | none => .next s
     | some k =>
       if s.travelling (.pkt k.serial) then .next s
       else
       let s := { s with sync := { s.sync with credits := dropNth s.sync.credits n } }
       .next ((s.ctrBy k.asid k.ctr k.gid fun c => (c.addValue k.value).addPend k.pend).engineCheck (s.asidPart k.asid) k.gid))

/-- DENY_BIT_UPDATE (R218): a NI of the partition learns a deny bit, as the last packet that tells it of a change comes. -/
def execDenyBitUpdate (table engine : Nat) (s : State) : Out :=
  if s.travelling (.deny s.tile.id.part table engine s.tile.pl.phys) then .next s
  else
  let on := (s.part s.tile.id.part).denyBits.contains (table, engine)
  .next (s.upd fun t =>
    let l := t.ni.deny.filter fun x => decide (x ≠ (table, engine))
    { t with ni := { t.ni with deny := if on then l ++ [(table, engine)] else l } })

/-- Whether the nanosecond of a CWAIT's deadline has ended (R217). -/
def CwState.late (c : CwState) (now : Nat) : Bool := match c.deadline with
  | some d => decide (d < now)
  | none => false

/-- CWAIT_RELEASE (R216, R217): the release reaches the NI, which is the acquire point; the CWAIT issues at its next attempt. One that
comes after the deadline completes nothing. -/
def execCwaitRelease (s : State) : Out :=
  match s.tile.ex.cw with
  | some c =>
    if c.released ∧ c.acquired = none ∧ !s.answering c.stamp ∧ !c.late s.tileTime then
      let l := s.hostQueue s.tile.gang.asid
      .next (s.upd fun t => { t with ex := { t.ex with cw := some { c with acquired := some l } } })
    else .next s
  | none => .next s

/-- CWTIMEOUT (R217): the deadline has passed without a release at the NI; the CWAIT traps, and its waiter is withdrawn. -/
def execCwtimeout (s : State) : Out :=
  match s.tile.ex.cw with
  | some c =>
    (match c.deadline with
     | some d =>
       if d < s.tileTime ∧ c.acquired = none ∧ !s.tile.ni.paused ∧ !s.tile.iss.ending ∧
           (s.tile.ex.prv ∨ s.tile.ex.pends = []) then
         .next ((s.trapHere { cause := 0x11, tval := c.ctr.zeroExtend 64, aclass := 10 }).upd Tile.fetchPassed)
       else .next s
     | none => .next s)
  | none => .next s

/-! ## Atomics and reductions -/

/-- Whether the line of an address is in its engine's buffer (R280). -/
def State.hasLine (s : State) (pa : Nat) : Bool := s.sync.lines.any fun x => decide (x.pa = pa / 64 * 64)

/-- ATOMIC_APPLY (R221, R222, R305, R387, R388): the home engine performs an atomic in the tile's order and returns the old value. One whose
word comes in from HBM uncorrectable is a register load that meets it (R38, R387): the word stays as it is in the buffer (log 22, DEDUCED).
-/
def execAtomicApply (n : Nat) (s : State) : Out :=
  match s.tile.ops.loads[n]? with
  | none => .next s
  | some o =>
    match o.kind, o.elems with
    | .atomic op x y nat ext, [e] =>
      let asid := s.tile.gang.asid
      if e.val.isSome || s.reqComing o.stamp || s.numberedBefore o.stamp (s.lineEngine asid e.pa) none then
        .next s
      else
        let m := 2 ^ (8 * e.bytes)
        let site := Config.engineSite (s.lineEngine asid e.pa)
        if !s.hasLine e.pa && s.mem.bad.contains (e.pa / 8) then
          let s := ((s.bringLine asid e.va e.pa).respond s.tile.id o.stamp site).upd fun t => t.updLoad n fun o =>
            { o with elems := o.elems.map fun e => { e with val := some 0 }, ecc := lowerEcc o.ecc e.va none }
          .next (s.engineCheck s.tile.id.part s.tile.id.gid)
        else
        let s := (s.bringLine asid e.va e.pa).lineMeet asid s.tile.id.gid e.va e.pa
        let old := Memory.nat s.sync.lineMem e.pa e.bytes
        let s := s.setLine e.pa e.bytes (atomicNew op nat e.bytes old (x.toNat % m) (y.toNat % m))
        let v := ext.value e.bytes old
        let s := s.respond s.tile.id o.stamp site
        let s := s.upd fun t => t.updLoad n fun o => { o with elems := o.elems.map fun e => { e with val := some v } }
        .next (s.engineCheck s.tile.id.part s.tile.id.gid)
    | _, _ => .next s

/-- REDUCTION_ACCEPT (R222 to R225, R280): the home engine accepts a reduction in the tile's order, and applies it, or holds it under
DET. One that stands in the fault log holds no later operation of the tile back but under DET (log 57, DESIGN CHOICE). -/
def execReductionAccept (n : Nat) (s : State) : Out :=
  match s.tile.ops.ms[n]? with
  | none => .next s
  | some o =>
    match o.kind with
    | .red op ty va pa x atS epoch seq =>
      let asid := s.tile.gang.asid
      let eng := s.lineEngine asid pa
      if o.done || s.reqComing o.stamp || s.numberedBefore o.stamp eng none then .next s
      else
        let h : Hold := ⟨s.tile.id, asid, epoch, seq, op, ty, va, pa, x, atS, none⟩
        let s := (s.taken n o.stamp eng).bringFor h
        if s.tile.gang.det then
          let s := { s with sync := { s.sync with holds := s.sync.holds ++ [h] } }
          .next (((s.upd fun t => t.event 59 1).denySteps s.tile.id.part eng).engineCheck h.tile.part h.tile.gid)
        else .next ((s.applyChain [h]).engineCheck h.tile.part h.tile.gid)
    | _ => .next s

/-- Whether an earlier reduction of the tile has not been accepted, or, without DET, waits in a fault log (R226). -/
def State.sealWaits (s : State) (stamp : Nat) : Bool :=
  (s.tile.ops.ms.any fun o => decide (o.stamp < stamp) && !o.done && (match o.kind with
    | .red _ _ _ _ _ _ _ _ => true
    | .msg | .cadd _ _ | .cexp _ _ | .cset _ _ | .seal _ _ _ | .handover _ _ _ _ _ _ => false)) ||
  (!s.tile.gang.det && s.sync.faults.any fun f => decide (f.hold.tile = s.tile.id))

/-- A seal is counted in the round of its counter and gang (R226), and the counter comes into being with it (R210); with its last seal the
round is applied. -/
def State.takeSeal (s : State) (c : W32) (p epoch : Nat) : State :=
  let id := s.tile.id
  let asid := s.tile.gang.asid
  let mine (r : Round) : Bool := decide (r.part = id.part ∧ r.gid = id.gid ∧ r.asid = asid ∧ r.ctr = c)
  let r := (s.sync.rounds.find? mine).getD ⟨id.part, id.gid, asid, c, p, [], false⟩
  let r := { r with seals := r.seals ++ [(id.vt, epoch)] }
  let full := decide (r.p ≤ r.seals.length)
  let s := s.ctrApply asid c fun k => k
  let rest := s.sync.rounds.filter fun x => !mine x
  let s := { s with sync := { s.sync with rounds := rest ++ [{ r with applied := full }] } }
  if full then
    (s.applyRound id.part id.gid c fun h => r.seals.contains (h.tile.vt, h.epoch)).finishRounds
  else s

/-- SEAL_ACCEPT (R226): a seal reaches its counter's home after the reductions that it seals. A seal of the next round waits until
the present one is complete. -/
def execSealAccept (n : Nat) (s : State) : Out :=
  match s.tile.ops.ms[n]? with
  | none => .next s
  | some o =>
    match o.kind with
    | .seal c p epoch =>
      let asid := s.tile.gang.asid
      let busy := s.sync.rounds.any fun r =>
        decide (r.part = s.tile.id.part ∧ r.gid = s.tile.id.gid ∧ r.asid = asid ∧ r.ctr = c) && r.applied
      if o.done || s.reqComing o.stamp || s.sealWaits o.stamp || busy ||
          s.numberedBefore o.stamp (s.ctrEngine asid c) (some c) then .next s
      else
        let s := s.taken n o.stamp (s.ctrEngine asid c)
        let s := if s.tile.gang.det then s.takeSeal c p epoch else s.ctrApply asid c fun k => k.addValue 1
        .next (s.engineCheck s.tile.id.part s.tile.id.gid)
    | _ => .next s

/-- FAULTWAIT_EXPIRY (R343): an open fault is abandoned FAULTWAIT milliseconds after its record was written; 0 reads as 1,000
(R347). -/
def execFaultwaitExpiry (asid idx : Nat) (s : State) : Out :=
  match s.faultOf asid idx with
  | some f =>
    let w := (s.part f.hold.tile.part).gov.faultwait
    let ms := if w = 0 then 1000 else w
    if f.written ∧ f.time + ms * 10 ^ 6 ≤ s.fab.time then .next (s.abandonFault f) else .next s
  | none => .next s

/-! ## Hand-over -/

/-- Whether an operation counted in a handle before a stamp has not left that count (R230). -/
def Tile.handleBusy (t : Tile) (k stamp : Nat) : Bool :=
  (t.ops.loads.any fun o => o.hs.getLsbD k && decide (o.stamp < stamp)) ||
  (t.ops.stores.any fun o => o.hs.getLsbD k && decide (o.stamp < stamp)) ||
  (t.ops.copies.any fun o => o.hs.getLsbD k && decide (o.stamp < stamp)) ||
  (t.ops.ms.any fun o => o.hs.getLsbD k && decide (o.stamp < stamp))

/-- Whether an access of the tile to a range, issued before a stamp, has not left its count (R284): it is waited for, though the handle may
have been set to the range after it (R233; log 83, DEDUCED). -/
def Tile.rangeBusy (t : Tile) (va n stamp : Nat) : Bool :=
  (t.ops.loads.any fun o => decide (o.stamp < stamp) && (match o.kind with
    | .global _ | .atomic _ _ _ _ _ => o.elems.any fun e => meets e.va e.bytes va n
    | .timed _ _ | .crd _ _ => false)) ||
  (t.ops.stores.any fun o => decide (o.stamp < stamp) && o.elems.any fun e => meets e.va e.data.length va n) ||
  (t.ops.copies.any fun c => decide (c.stamp < stamp ∧ c.kind ≠ .cpt) && meets c.va c.len va n) ||
  (t.ops.ms.any fun o => decide (o.stamp < stamp) && (match o.kind with
    | .red _ ty a _ _ _ _ _ => meets a (redSize ty) va n
    | .handover _ a m _ _ _ => meets a m va n
    | .msg | .cadd _ _ | .cexp _ _ | .cset _ _ | .seal _ _ _ => false))

/-- HANDOVER_PERFORM (R230): the pages get their new owner or READ, stale translations go, the counter gains 1, and HANDOVER leaves
MS; messages that it held may leave (R232). -/
def execHandoverPerform (n : Nat) (s : State) : Out :=
  match s.tile.ops.ms[n]? with
  | none => .next s
  | some o =>
    match o.kind with
    | .handover h va len owner read c =>
      if o.done || s.tile.handleBusy h.val o.stamp || s.tile.rangeBusy va len o.stamp then .next s
      else
        let asid := s.tile.gang.asid
        let s := s.setPages asid va len (if read then 1 else 0) owner
        let s := s.ctrSignal asid c s.tile.id.gid
        let s := s.upd fun t => { t with ops := { t.ops with ms := dropNth t.ops.ms n } }
        .next ((s.sendReady s.tile.isSource).engineCheck s.tile.id.part s.tile.id.gid)
    | _ => .next s

end Sys2Proof.Machine
end

