-- ==== Sys2Proof/Machine/EventSwap.lean ====
section
/-! DEFINITION. Placement and gang swap (R321 to R335): version changes, demand swap and its victims, quiescing, swap-in with its
replay, gang-stop's end and whole-gang swap. An event that is not due leaves the state as it is. -/

namespace Sys2Proof.Machine

/-! ## Lost contexts -/

/-- A gang with a lost context is removed, and its ASID gets a fault-ring record of KIND 3 (R386, R391). -/
def State.loseGang (s : State) (part gid site cause : Nat) : State :=
  match s.gang part gid with
  | none => s
  | some g =>
    let (n, s) := s.faultIndex g.image.asid
    (s.ringRecord g.image.asid n (faultRecord 3 gid cause 0 site 0 0 n)).killGang part gid

/-- How many words of a context a save cannot read (R386, R391). -/
def Tile.unreadable (t : Tile) : Nat := t.pad.bad.length + t.inb.bad.length + t.eng.accBad.length + t.eng.upsets.length

/-- Whether a save loses the context: it has one to save, and meets a word that it cannot read (R332, R386). -/
def Tile.lost (t : Tile) : Bool := decide (t.unreadable ≠ 0) && (!t.pl.finished || t.eng.joined) && (t.pl.touched || !t.inb.window.isEmpty)

/-- The cause for which a site of a repair in progress has failed. -/
def State.failCause (s : State) (site : Nat) : Option Nat := (s.svc.repair.sites.find? fun p => decide (p.1 = site)).map Prod.snd

/-- A save counts the words of a context that it cannot read (R386, R389). -/
def State.saveErrors (s : State) (id : TileId) : State :=
  s.withTile id fun s => (List.range s.tile.unreadable).foldl (fun s _ => s.tileUnc) s

/-- Salvage of a context fails, which step 5 of the repair then answers for (R391); its bad words are counted once. -/
def State.salvageFails (s : State) (t : Tile) : State :=
  if s.svc.repair.lost.contains t.id then s
  else
    let s := s.saveErrors t.id
    { s with svc := { s.svc with repair := { s.svc.repair with lost := s.svc.repair.lost ++ [t.id] } } }

/-! ## Quiescing -/

/-- Whether the head of the current tile's engine queue waits for a truss (R330). -/
def State.headWaits (s : State) (o : MxOp) : Bool :=
  o.doneAt.isNone && (match o.kind with
    | .mmat true false _ => s.unpaired o && !s.sourceGone
    | .mmat true true _ => !s.tile.joinDone
    | .mmat false _ _ | .mloadb | .mzero | .mma | .macc2s _ _ _ | .ms2acc _ | .mswap _ _ | .mjoin _ => false)

/-- Whether the current tile is quiesced (R330): only paired operations are outstanding, nothing waits to be written or sent. -/
def State.quiesced (s : State) : Bool :=
  let t := s.tile
  let head := match t.mxHead with
    | some o => s.headWaits o
    | none => true
  t.ops.loads.isEmpty && t.ops.stores.isEmpty && t.ops.copies.isEmpty && t.ops.ms.isEmpty && t.ops.fills.isEmpty &&
  t.iss.writes.isEmpty && t.iss.tail.isNone && !t.iss.ending && head &&
  t.ops.mx.all (fun o => match o.kind with
    | .mswap _ _ => o.recv.isNone
    | .mjoin _ | .mloadb | .mzero | .mma | .mmat _ _ _ | .macc2s _ _ _ | .ms2acc _ => true) &&
  !s.fab.flight.any fun m => t.isSource m && !m.sent

/-- Whether a virtual tile of a name is quiesced. -/
def State.quiescedAt (s : State) (id : TileId) : Bool := (s.focus id).quiesced

/-! ## Placement -/

/-- The physical tiles of a partition's pool that hold no context (R321). -/
def State.freeTiles (s : State) (part : Nat) : List Nat :=
  (s.pool part).filter fun x => !s.tiles.any fun t => decide (t.pl.res ≠ .absent ∧ t.pl.phys = x ∧ t.id.gid ≠ 0)

/-- The efficiency of a physical tile's field, by which fields are ranked (R364). -/
def efficiency (x : Nat) : List Nat := [Config.power (fieldOf x) 1, fieldOf x]

/-- The four tiles of a list that a key puts first, the lower identifier on a tie (log 48, DESIGN CHOICE). -/
def firstFour (key : Nat → List Nat) (l : List Nat) : List Nat :=
  l.foldl (fun best x => (insertInto (fun a b => decide (key a ++ [a] < key b ++ [b])) x best).take 4) []

/-- The list that places a virtual tile, of at most four tiles of the pool (R321, R364): ranked by route length and then by efficiency;
while the partition draws less than half its cap, the light-load list, ranked by efficiency and then by route length. -/
def State.placeList (s : State) (g : Gang) (vt : Nat) : List Nat :=
  let p := s.part g.part
  let route (x : Nat) : Nat := Config.routeLen s.svc.gen g.part g.rows g.cols g.root vt x
  firstFour (fun x => if 2 * p.draw < p.pcap then efficiency x ++ [route x] else route x :: efficiency x) (s.pool g.part)

/-- Where firmware places a virtual tile (R321): the first free tile of its list, else the free tile nearest to the list's first,
the lower identifier on a tie. -/
def State.placeFor (s : State) (g : Gang) (vt : Nat) : Option Nat :=
  let free := s.freeTiles g.part
  let l := s.placeList g vt
  match l.find? fun x => free.contains x with
  | some x => some x
  | none =>
    let d (x : Nat) : Nat := s.distance (l.headD 0) x
    free.foldl (fun best x => match best with
      | none => some x
      | some b => if d x < d b ∨ (d x = d b ∧ x < b) then some x else some b) none

/-- Swap-in of an absent virtual tile begins (R324, R332), if a tile of the pool is free. -/
def State.beginSwapIn (s : State) (g : Gang) (vt : Nat) : State :=
  match s.placeFor g vt with
  | none => s
  | some x => s.withTile ⟨g.part, g.gid, vt⟩ fun s => s.upd fun t =>
      if t.pl.res = .absent ∧ s.keeps t then
        { t with pl := { t.pl with res := .swappingIn, phys := x, faulted := false, wanted := false } }
      else t

/-- RESIDENT-IDLE (R324), as a resident finished virtual tile always is (R270). -/
def Tile.residentIdle (t : Tile) : Bool :=
  decide (t.pl.res = .resident) && !t.pl.pinned &&
  (t.pl.finished || (!t.ex.inh && !(List.finRange 64).any t.ready) || (t.ex.inh && (t.ex.idle || t.holdsCw)))

/-- Which of two victims comes first (R325). -/
def Tile.victimBefore (a b : Tile) : Bool :=
  let key (t : Tile) : List Nat := [if t.pl.finished then 0 else 1, t.gang.cls.val, t.pl.idleSince, t.id.gid, t.id.vt]
  decide (key a < key b)

/-- Whether a change in progress pins a virtual tile (R332): it stays resident for the truss. -/
def State.beingPinned (s : State) (id : TileId) : Bool :=
  match (s.gang id.part id.gid).bind fun g => g.change with
  | some c => c.pins.contains (id.vt, true)
  | none => false

/-- The victim of a demand swap of a partition (R325); one whose clock is paused is considered after the pause (R250; log 84, DEDUCED). -/
def State.victim (s : State) (part : Nat) : Option Tile :=
  let cand := s.tiles.filter fun t => decide (t.id.part = part ∧ t.id.gid ≠ 0) && t.residentIdle && !t.ni.paused && !t.pl.stopped && !s.beingPinned t.id
  cand.foldl (fun best t => match best with
    | none => some t
    | some b => if t.victimBefore b then some t else some b) none

/-- The running gang of the lowest class below a class in a partition (R328); the lowest GID on a tie. -/
def State.lesserGang (s : State) (part cls : Nat) : Option Gang :=
  let cand := s.gangs.filter fun g => decide (g.part = part ∧ g.cls.val < cls) && !g.stopping &&
    (s.tilesOf g.part g.gid).any fun t => decide (t.pl.res = .resident)
  cand.foldl (fun best g => match best with
    | none => some g
    | some b => if g.cls < b.cls ∨ (g.cls = b.cls ∧ g.gid < b.gid) then some g else some b) none

/-- The tile faults and the resumptions of a partition that firmware may serve (R325, R328, R335): those of a stopped gang wait. -/
def State.openFaults (s : State) (part : Nat) : List Tile :=
  s.tiles.filter fun t => decide (t.id.part = part ∧ t.pl.res = .absent) && (t.pl.faulted || t.pl.wanted) && s.keeps t &&
    (match s.gang t.id.part t.id.gid with
     | some g => !g.stopping
     | none => false)

/-- DEMAND_SWAP (R325, R328, R335): firmware serves a tile fault: a free tile takes the context, else a victim goes out, and under SUMMON
2, which 3 reads as (R347), the running gang of the lowest class below. A tile that comes back on resumption takes a free tile only. -/
def execDemandSwap (part : Nat) (s : State) : Out :=
  let l := s.openFaults part
  match l[Config.faultChoice s.drawn % l.length]? with
  | none => .next s
  | some t =>
    let s := s.draw.2
    match s.gang t.id.part t.id.gid with
    | none => .next s
    | some g =>
      let summons := !(s.tilesOf g.part g.gid).any fun t => decide (t.pl.res = .resident)
      let policy := if summons then (s.part part).gov.summon else 1
      if !(s.freeTiles part).isEmpty then .next (s.beginSwapIn g t.id.vt)
      else if policy = 0 ∨ !t.pl.faulted then .next s
      else
        match s.victim part with
        | some v => .next (s.swapOut v.id)
        | none =>
          if policy ≥ 2 ∧ !s.gangs.any (fun g => g.part = part ∧ g.byFirmware) then
            match s.lesserGang part g.cls.val with
            | some h => .next (s.gangStop h.part h.gid fun x => { x with byFirmware := true })
            | none => .next s
          else .next s

/-! ## Swap-out and swap-in -/

/-- Installs the proxy waiter of a virtual tile that was held at a CWAIT (R329); it takes room in the engine's tables (R346, R347). -/
def State.installProxy (s : State) : State :=
  let t := s.tile
  match t.ex.withdrawn with
  | some (c, thr, nopend) =>
    if t.pl.proxy then s
    else
      let w : Waiter := ⟨t.id, thr, nopend, true⟩
      ((s.upd fun t => { t with pl := { t.pl with proxy := true } }).ctrApply t.gang.asid c fun k =>
        { k with waiters := k.waiters ++ [w] }).engineCheck t.id.part t.id.gid
  | none => s

/-- Removes the proxy waiter of a virtual tile; the engines look at their deny bits (R218). -/
def State.dropProxy (s : State) (id : TileId) : State :=
  let s := s.updTile id fun t => { t with pl := { t.pl with proxy := false } }
  ({ s with sync := { s.sync with ctrs := s.sync.ctrs.map fun (c : Counter) =>
    { c with waiters := c.waiters.filter fun w => decide (w.tile ≠ id) || !w.proxy } } }).denyAll id.part

/-- QUIESCE_COMPLETE (R329, R330): a quiesced virtual tile that is being swapped out is saved, and a version change marks it absent; a
context that cannot be read is lost. One at a site that has failed goes by salvage (R391). -/
def execQuiesceComplete (s : State) : Out :=
  let t := s.tile
  match s.gang t.id.part t.id.gid with
  | none => .next s
  | some g =>
    if t.pl.res = .swappingOut ∧ s.quiesced ∧ g.mayChange ∧ (s.failCause t.pl.phys).isNone then
      if t.lost then .next ((s.saveErrors t.id).loseGang t.id.part t.id.gid t.pl.phys Config.saveCause)
      else .next (s.installProxy.beginChange t.id.part t.id.gid [(t.id.vt, none)] [(t.id.vt, false)])
    else .next s

/-- The virtual tiles that come back together with the current one (R269, R335): itself, and the members of its trusses that are not
resident, those that have left or finished among them. -/
def State.comeBack (s : State) : List TileId :=
  let t := s.tile
  t.id :: ((s.trussesOf t).flatMap fun p => p.tiles t.id.part t.id.gid).filter fun id => match s.findTile id with
    | some x => !x.present
    | none => false

/-- The virtual tiles of a gang that are loaded, with all those that come back with them (R332, R335): the root first, and the others in
placement order. -/
def State.loaded (s : State) (g : Gang) : List Tile :=
  let coming (id : TileId) : Bool := match s.findTile id with
    | some x => decide (x.pl.res = .swappingIn)
    | none => false
  let l := (s.tilesOf g.part g.gid).filter fun t => decide (t.pl.res = .swappingIn) && (s.focus t.id).comeBack.all coming
  sortList (fun a b => decide (a.id.vt = g.root ∨ (b.id.vt ≠ g.root ∧ a.id.vt ≤ b.id.vt))) l

/-- SWAP_IN (R323, R324, R332, R335): the restored contexts of a gang are committed resident by one version change, trusses with their
pins; the root, while it is on its way in, is among them. -/
def execSwapIn (s : State) : Out :=
  let t := s.tile
  match s.gang t.id.part t.id.gid with
  | none => .next s
  | some g =>
    let l := s.loaded g
    let rootWaits := (s.tilesOf g.part g.gid).any fun t => decide (t.id.vt = g.root ∧ t.pl.res = .swappingIn)
    if g.mayChange ∧ (l.any fun x => decide (x.id = t.id)) ∧ (!rootWaits ∨ l.any fun x => decide (x.id.vt = g.root)) then
      .next (s.beginChange g.part g.gid (l.map fun x => (x.id.vt, some x.pl.phys))
        ((l.filter fun x => !(s.trussesOf x).isEmpty).map fun x => (x.id.vt, true)))
    else .next s

/-- One packet of the arrival queue of the current tile is replayed at a physical tile (R327): a remote fill starts, or waits at step 1 of
R192, where those of one shingle keep their order; a join notice is delivered. -/
def State.replayOne (phys : Nat) (s : State) (a : Arrival) : State :=
  let drop (s : State) : State := s.upd fun t => { t with inb := { t.inb with arrivals := t.inb.arrivals.filter fun b => decide (b ≠ a) } }
  match a with
  | .join _ => drop s
  | .fill n =>
    match s.fab.remotes.find? fun r => decide (r.serial = n) with
    | none => drop s
    | some r =>
      let r := { r with parked := false, phys := some phys }
      let s : State := { s with fab := { s.fab with remotes := s.fab.remotes.map fun q => if q.serial = n then r else q } }
      s.startRemote r

/-- The context of a virtual tile on a physical tile that has just taken it (R332): an empty micro-TLB, the deny bits of the NI, the
physical tile's step, duty and counts of the interval (R349, R350), row parity recomputed, every word of the arrays written and so correct
(R385), and nothing fetched yet (R247). Event 60. -/
def Tile.restored (t : Tile) (phys now : Nat) (deny : List (Nat × Nat)) (use : SiteUse) : Tile :=
  { t with
    ni := { Phys.fresh with deny := deny, step := use.step, duty := use.duty, runCycles := use.run, allCycles := use.all, topStep := use.top }
    eng := { t.eng with upsets := [], accBad := [] }
    inb := { t.inb with bad := [] }
    pad := { t.pad with bad := [] }
    iss := { t.iss with units := ⟨0, 0, 0, 0⟩, stall := none, fetch := ⟨[], t.iss.cycle, 2, 0⟩, port := ⟨none, [], false⟩ }
    pl := { t.pl with res := .resident, phys := phys, last := phys, stopped := true, stopDue := false, faulted := false
                      wanted := false, idleSince := now } }.event 60 1

/-- A virtual tile becomes resident (R332, log 28, DEDUCED). Then its parked traffic is replayed (R327): the arrival queue in its order,
and the overflow queues in rounds; a tile at rest then selects. -/
def State.settleIn (s : State) (id : TileId) (phys : Nat) (stopped : Bool) : State :=
  let use := s.siteUse phys
  let s : State := { s with
    power := { s.power with sites := s.power.sites.filter fun e => decide (e.1 ≠ phys) }
    svc := { s.svc with arrays := s.svc.arrays.filter fun e => decide (e.1 ≠ phys) } }
  let s := s.withTile id fun s => s.upd fun t => t.restored phys s.fab.time (s.part id.part).denyBits use
  let s := (s.dropProxy id).withTile id fun s =>
    let s := s.tile.inb.arrivals.foldl (State.replayOne phys) s
    let s := State.moveRounds (s.tile.inb.overflow.length + s.tile.inb.window.length) s
    (s.upd fun t => { t with pl := { t.pl with stopped := stopped } }).select false
  s.retryMail id.part

/-- A virtual tile becomes absent (R329, R332): an untouched one is discarded, but for the packets parked for it (R326); of a finished one
only its report and its late messages stay, unless it goes with its truss (R269), and the messages that it held in its reorder window are
late ones too (R270, log 74, DESIGN CHOICE). One that a message reached before the change, and that would run, is to come back (R326, log
11, DEDUCED). A context that the save cannot read is lost (R386), in step 5 of a repair where its site has failed (R391). -/
def State.settleOut (s : State) (id : TileId) : State :=
  match s.gang id.part id.gid, s.findTile id with
  | some g, some t =>
    if t.lost && (s.failCause t.pl.phys).isNone then (s.saveErrors id).loseGang id.part id.gid t.pl.phys Config.saveCause
    else
    let s := if t.lost then s.salvageFails t else s
    let s := s.leaveSite t
    let pl := { t.pl with res := Residency.absent, pinned := false, stopped := false, stopDue := false }
    let fresh := g.freshTile id.vt
    if t.pl.finished && !(g.stopDone && s.trussed t) then
      let parked := t.inb.overflow.filter fun m => m.parked
      let held := t.inb.window.map fun m => { m with parked := true }
      let s := s.updGang id.part id.gid fun g => { g with lateKept := g.lateKept + t.late - parked.length }
      let s := s.updTile id fun _ => { fresh with pl := pl, inb := { fresh.inb with overflow := parked ++ held } }
      held.foldl State.acked s
    else if !t.pl.touched && t.inb.window.isEmpty then s.updTile id fun _ => { fresh with pl := pl, inb := { fresh.inb with arrivals := t.inb.arrivals } }
    else s.updTile id fun t =>
      { t with ni := Phys.fresh, pl := { pl with faulted := t.pl.faulted || (!t.pl.finished && t.wouldRun && !g.stopping && !g.stopWork) } }
  | _, _ => s

/-- Whether a version change with some pins pins every member of the plan for which a virtual tile issued MJOIN, each of which has (R332). -/
def State.pinsWhole (s : State) (t : Tile) (pins : List (Nat × Bool)) : Bool :=
  match t.planOf with
  | some p => p.members.all fun m => pins.contains (m.1, true) && s.joiningAt { t.id with vt := m.1 } t.eng.plan.toNat
  | none => false

/-- The pins that a version change writes; at the commit that pins every member of a plan, MJOIN leaves MX (R332). -/
def State.settlePins (s : State) (part gid : Nat) (pins : List (Nat × Bool)) : State :=
  s.updAll fun t =>
    match (if t.id.part = part ∧ t.id.gid = gid then pins.find? fun p => decide (p.1 = t.id.vt) else none) with
    | some p =>
      let t' := { t with pl := { t.pl with pinned := p.2 && decide (t.pl.res = .resident) } }
      if s.pinsWhole t pins then { t' with ops := { t'.ops with mx := t'.ops.mx.filter fun o => !o.kind.joining } } else t'
    | none => t

/-! ## Version changes -/

/-- Whether every translator of a gang stands in a list. -/
def State.allIn (s : State) (part gid : Nat) (l : List Nat) : Bool := (s.translators part gid).all fun x => l.contains x

/-- Whether a change must be rolled back (R334): a gang-stop began before any COMMIT. -/
def Gang.rollsBack (g : Gang) (c : Change) : Bool := g.stopWork && c.committed.isEmpty

/-- PREPARE (R323): a translator records version v + 1 and acknowledges. -/
def execPrepare (part gid tr : Nat) (s : State) : Out :=
  match s.gang part gid with
  | none => .next s
  | some g =>
    match g.change with
    | none => .next s
    | some c =>
      if (s.translators part gid).contains tr ∧ !c.prepared.contains tr ∧ !g.rollsBack c then
        .next (s.updGang part gid fun g => { g with change := some { c with prepared := c.prepared ++ [tr] } })
      else .next s

/-- COMMIT (R323): after every PREPARE acknowledgement, a translator translates under v + 1. -/
def execCommit (part gid tr : Nat) (s : State) : Out :=
  match s.gang part gid with
  | none => .next s
  | some g =>
    match g.change with
    | none => .next s
    | some c =>
      if s.allIn part gid c.prepared ∧ c.prepared.contains tr ∧ !c.committed.contains tr ∧ !g.rollsBack c then
        .next (s.updGang part gid fun g => { g with change := some { c with committed := c.committed ++ [tr] } })
      else .next s

/-- A change is rolled back (R323, R324, R334): a virtual tile on its way in is absent again, and its fault is served later; one on its
way out is resident and stopped. -/
def State.rollBack (s : State) (part gid : Nat) (c : Change) : State :=
  let mine (t : Tile) : Bool := decide (t.id.part = part ∧ t.id.gid = gid) && c.places.any fun p => decide (p.1 = t.id.vt)
  let back (t : Tile) : Tile :=
    if t.pl.res = .swappingIn then { t with pl := { t.pl with res := .absent, faulted := true } }
    else if t.pl.res = .swappingOut then { t with pl := { t.pl with res := .resident, stopped := true } }
    else t
  let out := (s.tiles.filter fun t => mine t && decide (t.pl.res = .swappingOut)).map fun t => t.id
  let s := s.updAll fun t => if mine t then back t else t
  let s := out.foldl State.dropProxy s
  s.updGang part gid fun g => { g with change := none }

/-- ABORT (R323, R334): a translator discards v + 1; with the last one the change is rolled back. -/
def execAbort (part gid tr : Nat) (s : State) : Out :=
  match s.gang part gid with
  | none => .next s
  | some g =>
    match g.change with
    | none => .next s
    | some c =>
      if g.rollsBack c then
        let left := c.prepared.filter (· ≠ tr)
        if left.isEmpty then .next (s.rollBack part gid c)
        else .next (s.updGang part gid fun g => { g with change := some { c with prepared := left } })
      else .next s

/-- Whether a virtual tile is in a residency. -/
def State.isAt (s : State) (id : TileId) (r : Residency) : Bool :=
  match s.findTile id with
  | some t => decide (t.pl.res = r)
  | none => false

/-- The payload of the launch message (R258). -/
def launchPayload (r : List Byte) (gid : Nat) : List Byte := r.take 0x38 ++ toBytes gid 2 ++ toBytes 0 6

/-- The launch unit sends the launch message of a gang that it has not sent yet (R258); mailbox writes that waited behind it follow. -/
def State.sendLaunch (s : State) (part gid : Nat) : State :=
  match s.gang part gid with
  | some g =>
    if g.launchSent then s
    else ((s.updGang part gid fun g => { g with launchSent := true }).portSend g.port part gid g.root 0 (launchPayload g.record gid)).retryMail part
  | none => s

/-- VERSION_CHANGE_COMPLETE (R323): after every COMMIT acknowledgement the change is complete; a gang that firmware swapped out whole
is free again (R328). Replay may divert messages, which need room (R347). A launch message follows the commit that made its root resident
(R258, R332, log 75, DEDUCED). -/
def execVersionChangeComplete (part gid : Nat) (s : State) : Out :=
  match s.gang part gid with
  | none => .next s
  | some g =>
    match g.change with
    | none => .next s
    | some c =>
      if s.allIn part gid c.committed then
        let s := s.updGang part gid fun g => { g with change := none, version := g.version + 1 }
        let s := c.places.foldl (fun s p => match p.2 with
          | some x => s.settleIn ⟨part, gid, p.1⟩ x (g.stopping || g.stopWork)
          | none => s.settleOut ⟨part, gid, p.1⟩) s
        let s := s.settlePins part gid c.pins
        let out := !(s.tilesOf part gid).any fun t => decide (t.pl.res ≠ .absent)
        let s := if g.byFirmware && out then s.gangFree part gid fun g => { g with byFirmware := false } else s
        let s := if (s.isAt ⟨part, gid, g.root⟩ .resident) then s.sendLaunch part gid else s
        .next ((s.releasePins part gid).overflowCheck part gid)
      else .next s

/-! ## Gang-stop and whole-gang swap -/

/-- Whether a row packet is still on its way (R334, step 4): its flit is in the fabric, or its member can take it; a batch that has come and
whose MMAT has not been issued waits at the member's NI. -/
def State.rowsMove (s : State) (r : RowPacket) : Bool :=
  s.rowsTravel r.serial || (match s.findTile r.dst with
    | some t => decide (r.phys ≠ t.based) || t.ops.mx.any fun o => decide (o.kind = .mmat true false r.index) && o.rows.isNone
    | none => false)

/-- Whether nothing of a gang is on its way any more (R334, step 4): messages, remote fills that nothing parks, notices, row batches,
requests, answers and data, and credits. -/
def State.drained (s : State) (g : Gang) : Bool :=
  let mine (id : TileId) : Bool := decide (id.part = g.part ∧ id.gid = g.gid)
  !s.fab.flight.any (fun m => decide (m.part = g.part ∧ m.gid = g.gid)) &&
  !s.fab.remotes.any (fun r => mine r.dst && !r.parked) &&
  !s.fab.notices.any (fun r => mine r.dst) && !s.fab.reports.any (fun r => mine r.dst) &&
  !s.fab.rowPackets.any (fun r => mine r.dst && s.rowsMove r) &&
  !s.fab.flits.any (fun f => match f.ref with
    | .req t _ | .resp t _ | .data t _ _ _ => mine t
    | .msg _ | .pkt _ | .part _ _ | .deny _ _ _ _ => false) &&
  !s.sync.credits.any fun c => decide (c.asid = g.image.asid)

/-- The state of a gang whose gang-stop is complete: one of a marked class is shed, whatever stopped it (R361). -/
def Gang.nowStopped (g : Gang) : Gang :=
  { g with stopWork := false, stopDone := true, stopCtrs := [], byShed := g.byShed || g.shedWait, shedWait := false, shedLate := false }

/-- GANG_STOP_COMPLETE (R334, R236): every tile has stopped and is quiesced, the fabric has drained and one version stands; the counters
of GSTOP gain 1, those of a gang that was stopped before too. A gang that nothing stops any more then resumes. -/
def execGangStopComplete (part gid : Nat) (s : State) : Out :=
  match s.gang part gid with
  | none => .next s
  | some g =>
    let calm (t : Tile) : Bool := !t.pl.stopDue && (!t.present || s.quiescedAt t.id)
    if (g.stopWork ∨ g.stopCtrs ≠ []) ∧ g.change.isNone ∧ (s.tilesOf part gid).all calm ∧ s.drained g then
      let s := s.updGang part gid Gang.nowStopped
      let s := g.stopCtrs.foldl (State.gangSignal part) s
      .next (s.tryResume part gid)
    else .next s

/-- Whether firmware swaps a stopped gang out whole (R328, R361). -/
def State.goesOut (s : State) (g : Gang) : Bool := g.stopDone && (g.byFirmware || (g.byShed && (s.part g.part).pshed))

/-- WHOLE_GANG_SWAP (R334): after a complete gang-stop every resident virtual tile is saved under one version change; a context that
cannot be read is lost. Contexts at a site that has failed are salvaged first (R391). -/
def execWholeGangSwap (part gid : Nat) (s : State) : Out :=
  match s.gang part gid with
  | none => .next s
  | some g =>
    let ts := (s.tilesOf part gid).filter fun t => decide (t.pl.res = .resident)
    if s.goesOut g ∧ g.mayChange ∧ !ts.isEmpty ∧ ts.all (fun t => (s.failCause t.pl.phys).isNone) then
      match ts.find? Tile.lost with
      | some t => .next ((s.saveErrors t.id).loseGang part gid t.pl.phys Config.saveCause)
      | none =>
        let ids := ts.map fun t => t.id
        let s := s.updAll fun t => if ids.contains t.id then { t with pl := { t.pl with res := .swappingOut } } else t
        let s := ids.foldl (fun s id => s.withTile id State.installProxy) s
        .next (s.beginChange part gid (ids.map fun id => (id.vt, none)) (ids.map fun id => (id.vt, false)))
    else .next s

/-- PROXY_WAITER_RELEASE (R329): a proxy waiter that no engine holds any more has been released, which raises a tile fault. -/
def execProxyWaiterRelease (s : State) : Out :=
  let t := s.tile
  let held := s.sync.ctrs.any fun (c : Counter) => c.waiters.any fun w => w.proxy && decide (w.tile = t.id)
  if t.pl.proxy && !held then
    .next ((s.upd fun t => { t with pl := { t.pl with proxy := false } }).tileFault t.id)
  else .next s

end Sys2Proof.Machine
end

