-- ==== Sys2Proof/Machine/EventHost.lean ====
section
/-! DEFINITION. The host side of gangs: launches and seeds (R256 to R259), mailboxes (R261, R374), completion records (R276, R375),
the spanning tree, close and retirement (R271 to R274), and CXL.mem accesses (R292, R370). An event that is not due leaves the
state as it is. -/

namespace Sys2Proof.Machine

/-! ## Requests at a port -/

/-- A port. -/
def State.port (s : State) (p : Nat) : Port := s.host.ports.get (Fin.ofNat 2 p)

/-- A request of a master completes with an error response and alters nothing else. -/
def State.refuseHost (s : State) (m : Nat) : State := s.updPort m fun p => { p with errors := p.errors + 1 }

/-- Does something for a request of a master (R378, R382): nothing where its link is down, an error response while the part is not
READY or the master is frozen. -/
def State.request (s : State) (m : Nat) (f : State → Out) : Out :=
  if !(s.port m).up then .next s
  else if s.host.ctrl.boot ≠ .ready ∨ (s.port m).frozen then .next (s.refuseHost m)
  else f s

/-! ## Completion records -/

/-- Whether the completion ring has room (R375). -/
def Part.room (p : Part) : Bool := decide ((p.comphead - p.compack).toNat < 256)

/-- A record is written to the ring, COMPHEAD advances, and MSI-X is raised (R369, R375). -/
def Part.postRecord (p : Part) (bytes : List Byte) : Part :=
  { p with ring := Memory.write p.ring (16 * (p.comphead.toNat % 256)) bytes, comphead := p.comphead + 1, msixRaised := p.msixRaised + 1 }

/-- COMPLETION_RECORD_POST (R274, R375): the oldest record that waits is posted while there is room, and then its DONECTR gains 1. -/
def execCompletionRecordPost (func : Nat) (s : State) : Out :=
  let p := s.part func
  match p.compq with
  | [] => .next s
  | r :: rest =>
    if p.room then .next ((s.updPart func fun p => { p.postRecord r.bytes with compq := rest }).ctrSignal r.asid r.donectr)
    else .next s

/-- A write of COMPACK takes effect only from the current COMPACK to COMPHEAD (R375). -/
def Part.writeCompack (p : Part) (v : Word) : Part :=
  if (v - p.compack).toNat ≤ (p.comphead - p.compack).toNat then { p with compack := v } else p

/-- COMPACK (R375, R378). -/
def execCompack (func : FuncAt) (v : Word) (s : State) : Out :=
  s.request func.port fun s => .next (s.updPart func.func fun p => p.writeCompack v)

/-! ## Launches -/

/-- Bytes [off + n − 1 : off] of a record as a number. -/
def fieldAt (rec_ : List Byte) (off n : Nat) : Nat := ofBytes ((rec_.drop off).take n)

/-- The version of profile k that a partition offers (R88, R124): 1 unless it is masked. -/
def PartRec.offers (g : PartRec) (k : Nat) : Nat := if g.profmask.getLsbD k then 0 else 1

/-- Whether a grid agrees with an image and holds its trusses and deals (R257, check 4). -/
def Image.gridOk (i : Image) (rows cols : Nat) : Bool :=
  decide (1 ≤ cols ∧ cols ≤ 4096 ∧ 1 ≤ rows ∧ rows ≤ 4096 ∧ (i.gridCols = 0 ∨ i.gridCols = cols) ∧ (i.gridRows = 0 ∨ i.gridRows = rows)) &&
  i.prog.plans.all (fun p => decide (p.row0 + p.rows ≤ rows ∧ p.col0 + p.cols ≤ cols)) &&
  i.prog.deals.all fun d => decide (d.row0 + d.rows ≤ rows ∧ d.col0 + d.cols ≤ cols)

/-- The refusal reason of a launch record, none where it passes (R257). -/
def Part.refusal (p : Part) (r : List Byte) : Option Nat :=
  let f := fieldAt r
  let image := p.images.find? fun i => decide (i.handle = f 4 2)
  if f 0 1 ≠ 1 ∨ f 1 1 ≠ 1 ∨ f 2 2 / 16 ≠ 0 ∨ f 0x0C 4 / 2 ^ 24 ≠ 0 ∨ f 0x38 8 ≠ 0 then some 1
  else
    match image with
    | none => some 2
    | some i =>
      if ((List.range 4).any fun k => decide (i.profiles.getD k 0 > p.gov.offers k)) ∨ (i.detReq ∧ f 2 2 / 8 % 2 = 0) then some 3
      else if !i.gridOk (f 0x0A 2) (f 0x08 2) then some 4
      else if !inGrid (f 0x0A 2) (f 0x08 2) (f 0x0C 4) then some 5
      else if f 0x10 4 ≠ 0 ∧ i.barrier ≠ 0 ∧ f 0x10 4 ≠ i.barrier.toNat then some 6
      else if f 2 2 % 8 > p.gov.hiclass then some 7
      else if p.queue.length ≥ p.gov.qdepth then some 8
      else none

/-- A refusal record is posted, or dropped where there is no room (R276, R375). -/
def Part.refuse (p : Part) (r : List Byte) (why : Nat) : Part :=
  if p.room then p.postRecord (compRecord (fieldAt r 6 2) 0 0 (why * 256 + 1) 0) else { p with compdrop := p.compdrop + 1 }

/-- LAUNCH (R256 to R258, R374): a record is discarded, refused or accepted with the SEED of the moment. -/
def execLaunch (func port : Nat) (data : Option (BitVec 512)) (s : State) : Out :=
  s.request port fun s =>
    let p := s.part func
    if !p.gov.enable then .next (s.mailError port func true)
    else
      match data with
      | none => .next (s.mailError port func false)
      | some d =>
        let r := toBytes d.toNat 64
        match p.refusal r with
        | some why => .next (s.updPart func fun p => p.refuse r why)
        | none => .next (s.updPart func fun p => { p with queue := p.queue ++ [⟨port, r, p.seed⟩] })

/-- SEED (R259, R378): a write commits at the port that receives it. -/
def execSeed (func : FuncAt) (v : Word) (s : State) : Out :=
  s.request func.port fun s => .next (s.updPart func.func fun p => { p with seed := v })

/-- The live gangs of a partition. -/
def State.liveGangs (s : State) (part : Nat) : List Gang := s.gangs.filter fun g => decide (g.part = part)

/-- The first free GID at or after a cursor, counting upward from 65,535 to 1 (R394); the first argument bounds the search. -/
def nextGid (used : List Nat) : Nat → Nat → Nat
  | 0, c => c
  | n + 1, c => if used.contains c then nextGid used n (if c = 65535 then 1 else c + 1) else c

/-- The gang of a launch (R258). A gang whose class is marked by shedding starts stopped (R361). -/
def State.newGang (s : State) (part gid : Nat) (l : Launch) (i : Image) : Gang :=
  let f := fieldAt l.record
  let cls : Fin 8 := Fin.ofNat 8 (f 2 2)
  { part := part, gid := gid, image := i, tag := BitVec.ofNat 16 (f 6 2), cls := cls, det := decide (f 2 2 / 8 % 2 = 1), seed := l.seed
    rows := f 0x0A 2, cols := f 0x08 2, root := f 0x0C 4
    barrier := if f 0x10 4 ≠ 0 then BitVec.ofNat 32 (f 0x10 4) else i.barrier
    donectr := BitVec.ofNat 32 (f 0x14 4), port := l.port, record := l.record, startTime := s.fab.time
    byGstop := false, byShed := (s.power.marks.get cls).marked, byFirmware := false, byRepair := false
    stopWork := false, stopDone := (s.power.marks.get cls).marked, shedWait := false, shedLate := false, stopCtrs := [], resumeCtrs := []
    closed := false, status := none, redLost := false, version := 0, change := none, lateKept := 0, launchSent := false }

/-- The virtual tile of a place in the placement order (R332). -/
def Gang.nthTile (g : Gang) (n : Nat) : Nat := n / g.cols * 4096 + n % g.cols

/-- Firmware places the root, and then the others in the placement order while tiles are free (R332). -/
def State.placeGang (s : State) (g : Gang) : State :=
  let s := s.beginSwapIn g g.root
  let n := min (g.rows * g.cols) ((s.freeTiles g.part).length + 1)
  ((List.range n).map g.nthTile).foldl (fun s vt => s.beginSwapIn g vt) s

/-- LAUNCH_START (R258, R332, R394): the launch at the head of the queue starts: GID, gang, placement, launch message. The message is sent
once the root's placement has committed, at once where no tile is free for the root (R332, log 75, DEDUCED). -/
def execLaunchStart (part : Nat) (s : State) : Out :=
  let p := s.part part
  match p.queue with
  | [] => .next s
  | l :: rest =>
    if (s.liveGangs part).length ≥ p.gov.livelim then .next s
    else
      match p.images.find? fun i => decide (i.handle = fieldAt l.record 4 2) with
      | none => .next s
      | some i =>
        let gid := nextGid ((s.liveGangs part).map fun g => g.gid) 65535 p.gidCursor
        let g := s.newGang part gid l i
        let s := s.updPart part fun p => { p with queue := rest, gidCursor := if gid = 65535 then 1 else gid + 1 }
        let s := { s with gangs := s.gangs ++ [g] }
        let s := s.placeGang g
        if s.isAt ⟨part, gid, g.root⟩ .swappingIn then .next s else .next (s.sendLaunch part gid)

/-- MBDATA (R261, R374): a mailbox write is sent to the target that MBTGT holds, held under flow control, or discarded. -/
def execMbdata (func port entry : Nat) (data : Option (BitVec 512)) (s : State) : Out :=
  s.request port fun s =>
    let p := s.part func
    if entry ≥ 16 then .next s
    else if !p.gov.enable then .next (s.mailError port func true)
    else
      match data with
      | none => .next (s.mailError port func false)
      | some d =>
        if entry / 8 ≠ port % 2 then .next (s.mailError port func false)
        else
          let t := (p.mbtgt.get (Fin.ofNat 16 entry)).toNat
          .next (s.mailWrite ⟨port, bitsOf t 47 32, bitsOf t 23 0, Fin.ofNat 64 (bitsOf t 29 24), toBytes d.toNat 64⟩ func)

/-! ## Finishing a gang -/

/-- Two status words combined (R272). -/
def combineStatus (a b : W32) : W32 := (a.extractLsb' 16 16 ||| b.extractLsb' 16 16) ++
  (if a.extractLsb' 0 16 < b.extractLsb' 0 16 then b.extractLsb' 0 16 else a.extractLsb' 0 16)

/-- A virtual tile takes a child's report (R271). -/
def Tile.takeReport (t : Tile) (x : W32) : Tile :=
  { t with pl := { t.pl with kidsLeft := t.pl.kidsLeft - 1, accStatus := combineStatus t.pl.accStatus x } }

/-- A report leaves the current tile for its parent (R271, R296), translated by the sync engine of the tile's field (R322; log 72, DEDUCED);
firmware applies one from or to a tile that is absent. -/
def State.sendReport (s : State) (parent : TileId) (x : W32) : State :=
  match (if s.tile.present then s.seen parent (engineTr (fieldOf s.tile.pl.phys)) else none) with
  | some p =>
    let n := s.fab.serial
    let s := s.packet true s.tile.pl.phys (some p)
    { s with fab := { s.fab with reports := s.fab.reports ++ [⟨n, parent, x⟩] } }
  | none => s.withTile parent fun s => s.upd fun t => t.takeReport x

/-- The report that a packet carries is applied (R271, R301). One that is misdelivered is applied as one to an absent tile is (R322, R327).
-/
def State.takeReportOf (s : State) (n : Nat) : State :=
  match s.fab.reports.find? fun r => decide (r.serial = n) with
  | none => s
  | some r =>
    let s : State := { s with fab := { s.fab with reports := s.fab.reports.filter fun q => decide (q.serial ≠ n) } }
    s.withTile r.dst fun s => s.upd fun t => t.takeReport r.status

/-- TREE_REPORT (R271 to R273): the current tile reports once it is finished, or untouched at the close, its children have reported and
its MS is zero; the root's report is the gang's status. -/
def execTreeReport (s : State) : Out :=
  let t := s.tile
  match s.gang t.id.part t.id.gid with
  | none => .next s
  | some g =>
    let ends := t.pl.finished || (s.hasClosed g && !t.pl.touched)
    if ends && decide (t.pl.kidsLeft = 0 ∧ t.count .ms = 0) && !t.pl.reported then
      let x := combineStatus (if t.pl.finished then t.pl.status else 0) t.pl.accStatus
      let s := s.upd fun t => { t with pl := { t.pl with reported := true } }
      if t.id.vt = g.root then .next (s.updGang t.id.part t.id.gid fun g => { g with status := some x })
      else
        let parent : TileId := { t.id with vt := Config.treeParent g.rows g.cols g.root t.id.vt }
        .next (s.sendReport parent x)
    else .next s

/-- GANG_CLOSE (R273): the launch unit takes note that the gang has closed. -/
def execGangClose (part gid : Nat) (s : State) : Out :=
  match s.gang part gid with
  | none => .next s
  | some g =>
    if s.hasClosed g then .next (s.updGang part gid fun g => { g with closed := true }) else .next s

/-- Whether every class count of every virtual tile of a gang is zero (R274). -/
def State.countsZero (s : State) (g : Gang) : Bool :=
  (s.tilesOf g.part g.gid).all fun t =>
    decide (t.count .ld = 0 ∧ t.count .st = 0 ∧ t.count .cp = 0 ∧ t.count .mx = 0 ∧ t.count .ms = 0)

/-- The final DET round (R227): what is still held is applied, and open rounds are discarded. -/
def State.finalRound (s : State) (g : Gang) : State :=
  let s := s.applyRound g.part g.gid 0 fun _ => true
  let rest := s.sync.rounds.filter fun (r : Round) => !decide (r.part = g.part ∧ r.gid = g.gid) || r.applied
  { s with sync := { s.sync with rounds := rest } }

/-- RETIREMENT (R227, R274): once the status is known and the counts are zero, the final round is applied; with no reduction left the
gang goes, and its record waits to be posted. -/
def execRetirement (part gid : Nat) (s : State) : Out :=
  match s.gang part gid with
  | none => .next s
  | some g =>
    match g.status with
    | none => .next s
    | some st =>
      let mine (id : TileId) : Bool := decide (id.part = part ∧ id.gid = gid)
      if !s.hasClosed g || !s.countsZero g then .next s
      else if s.sync.holds.any fun h => mine h.tile then .next (s.finalRound g)
      else if s.sync.faults.any (fun f => mine f.hold.tile) ∨
          s.sync.rounds.any (fun r => decide (r.part = part ∧ r.gid = gid) && r.applied) then .next s
      else
        let late := s.lateOf g
        let r : CompRec :=
          { bytes := compRecord g.tag.toNat gid st.toNat ((if late = 0 then 0 else 4) + (if g.redLost then 2 else 0)) late
            asid := g.image.asid, donectr := g.donectr }
        .next ((s.dropGang part gid).updPart part fun p => { p with compq := p.compq ++ [r] })

/-! ## CXL.mem -/

/-- The ASID and the virtual address of an HDM offset (R370). -/
def State.hdmAddr (s : State) (hdm : Nat) : Nat × Nat :=
  let g := (s.part (hdm / 2 ^ 40)).gov
  (g.hostasid, g.hostva + hdm % 2 ^ 40)

/-- The physical address of a host access, none where it is refused (R279, R339, R370), or its stack has left the device (R390). -/
def State.hostPa (s : State) (k : AccessKind) (hdm : Nat) : Option Nat :=
  let (a, va) := s.hdmAddr hdm
  if hdm ≥ 64 * 2 ^ 40 ∨ !(s.part (hdm / 2 ^ 40)).gov.enable then none
  else
    match s.walk a va with
    | some e =>
      if permits e.perms false k && admits e.mode false k && !s.stackGone (e.pa + (va - e.va)) then some (e.pa + (va - e.va)) else none
    | none => none

/-- Whether a CXL.mem request lies in one 64-byte line. -/
def inLine (hdm len : Nat) : Bool := decide (1 ≤ len ∧ hdm % 64 + len ≤ 64)

/-- A read of a port is answered with an error (R370, R387). -/
def State.failRead (s : State) (port : Nat) : State :=
  (s.refuseHost port).updPort port fun p => { p with readData := [], readError := true }

/-- The read that a port has accepted goes on (R292, R296): as its request comes to the HBM stack it is performed, and as the response comes
back it is answered. -/
def State.goOnRead (s : State) (port : Nat) (r : HostRead) : State :=
  if s.travelling (.pkt r.pkt) then s
  else
    match r.got with
    | none =>
      let bad := s.badHbm r.pa r.len || s.stackGone r.pa
      let r := { r with got := some (if bad then none else some (Memory.bytes s.mem.hbm r.pa r.len)), pkt := s.fab.serial }
      let s := (s.packet false (stackOf r.pa) (some (Config.portSite port))).updPort port fun p => { p with reading := some r }
      if s.badHbm r.pa r.len then s.attUnc (stackOf r.pa) else s
    | some none => (s.failRead port).updPort port fun p => { p with aer := p.aer + 1, reading := none }
    | some (some l) => s.updPort port fun p => { p with readData := l, readError := false, reading := none }

/-- HOST_CXL_MEM_READ (R292, R296, R370, R387): a read is refused with an error response, or accepted after the port's earlier writes; its
request leaves, and the same event then sees it through. -/
def execHostCxlMemRead (port hdm len : Nat) (s : State) : Out :=
  match (s.port port).reading with
  | some r => if r.hdm = hdm ∧ r.len = len then .next (s.goOnRead port r) else .next s
  | none =>
    s.request port fun s =>
      let (a, va) := s.hdmAddr hdm
      if !inLine hdm len ∨ !(s.port port).writes.isEmpty ∨ s.modePending a va len then .next s
      else
        let s := s.walkMeets a [va]
        match s.hostPa .hostRead hdm with
        | none => .next (s.failRead port)
        | some pa =>
          let r : HostRead := ⟨hdm, len, a, va, pa, s.fab.serial, none⟩
          .next ((s.packet false (Config.portSite port) (some (stackOf pa))).updPort port fun p => { p with reading := some r })

/-- HOST_CXL_MEM_WRITE (R292, R294, R370): a write of the enabled bytes of a line is refused with an error response, or enters the
port's queue and is completed. -/
def execHostCxlMemWrite (port hdm : Nat) (bytes : List (Option Byte)) (s : State) : Out :=
  s.request port fun s =>
    let (a, va) := s.hdmAddr hdm
    if !inLine hdm bytes.length ∨ s.modePending a va bytes.length then .next s
    else
      let s := s.walkMeets a [va]
      match s.hostPa .hostWrite hdm with
      | none => .next ((s.refuseHost port).updPort port fun p => { p with writeError := true })
      | some pa =>
        let w : HostWrite := ⟨s.host.serial, s.fab.serial, a, va, pa, bytes⟩
        let s := (s.packet false (Config.portSite port) (some (stackOf pa))).updPort port fun p => { p with writes := p.writes ++ [w], writeError := false }
        .next { s with host := { s.host with serial := s.host.serial + 1 } }

/-- HOST_WRITE_PERFORM (R292, R296, R387): the oldest write of a port's queue, once its packet has come, is performed at its home, but for
uncorrectable words that it covers in part. -/
def execHostWritePerform (port : Nat) (s : State) : Out :=
  match (s.port port).writes with
  | [] => .next s
  | w :: rest =>
    if s.travelling (.pkt w.pkt) then .next s
    else
    if s.stackGone w.pa then .next (s.updPort port fun p => { p with writes := rest, writeError := true })
    else
    let skip := s.badPartial w.pa w.data
    let s := (s.writeHbm w.pa w.data skip).updPort port fun p => { p with writes := rest }
    if skip.isEmpty then .next s
    else .next ((s.updPort port fun p => { p with writeError := true }).attUnc (stackOf w.pa))

end Sys2Proof.Machine
end

