-- ==== Sys2Proof/Machine/Tables.lean ====
section
/-! DEFINITION. Frames and page tables as firmware makes them (R336 to R338, R342, R347): allocation of zeroed frames, mapping and
unmapping of pages, the service area of an ASID (R341), and the write-back of line buffers (R283). -/

namespace Sys2Proof.Machine

/-- The owner number under which firmware's own frames stand in GlobalMem.frames. -/
def firmwareOwner : Nat := 64

/-- Whether a frame of 64 KiB is handed out. -/
def State.frameUsed (s : State) (f : Nat) : Bool := s.mem.frames.any fun x => decide (x.1 = f)

/-- Whether n frames from a number upward are all free. -/
def State.framesFree (s : State) (f n : Nat) : Bool := !s.mem.frames.any fun x => decide (f ≤ x.1 ∧ x.1 < f + n)

/-- The first free group of n aligned frames at or after a group, wrapping at the end of HBM; the first argument bounds the search
(R337: 48 stacks of 2^20 frames). A stack that has left the device has none (R390). -/
def State.findFrames (s : State) (n : Nat) : Nat → Nat → Option Nat
  | 0, _ => none
  | k + 1, c =>
    if s.stackGone (c * n * 65536) then State.findFrames s n k ((c * n / 2 ^ 20 + 1) * 2 ^ 20 / n % (48 * 2 ^ 20 / n))
    else if s.framesFree (c * n) n then some (c * n)
    else State.findFrames s n k ((c + 1) % (48 * 2 ^ 20 / n))

/-- Zeroes n bytes of HBM. -/
def State.zeroHbm (s : State) (pa n : Nat) : State :=
  { s with mem := { s.mem with
    hbm := s.mem.hbm.filter fun c => !decide (pa ≤ c.1 ∧ c.1 < pa + n)
    bad := s.mem.bad.filter fun w => !decide (pa ≤ 8 * w ∧ 8 * w + 8 ≤ pa + n) } }

/-- Firmware hands out n zeroed frames, where it chooses; none where HBM is exhausted. -/
def State.takeFrames (s : State) (owner n : Nat) : Option Nat × State :=
  match s.findFrames n (s.mem.frames.length + 51) (Config.frameChoice s.drawn % (48 * 2 ^ 20 / n)) with
  | none => (none, s)
  | some f =>
    let s := (s.draw.2).zeroHbm (f * 65536) (n * 65536)
    (some f, { s with mem := { s.mem with frames := s.mem.frames ++ (upFrom f n).map fun x => (x, owner) } })

/-- Writes a leaf at a level for an address, from a table through the levels that remain; a table that is missing takes a frame of its
own. -/
def State.mapIn (s : State) (va level entry : Nat) : Nat → List (Nat × Nat × Nat) → State
  | _, [] => s
  | table, (lo, w, lv) :: rest =>
    let a := table + 8 * (va / 2 ^ lo % 2 ^ w)
    if lv = level then s.setEntry a entry
    else
      let e := s.mem.word a
      let s := s.meetHbm [a / 8]
      if e % 2 = 1 ∧ e / 2 % 2 = 0 then State.mapIn s va level entry (bitsOf e 41 12 * 4096) rest
      else
        match s.takeFrames firmwareOwner 1 with
        | (some f, s) => State.mapIn (s.setEntry a (f * 65536 + 1)) va level entry (f * 65536) rest
        | (none, s) => s

/-- A leaf entry (R338). -/
def leafEntry (frame mode owner perms : Nat) : Nat :=
  mode % 4 * 2 ^ 62 + (if mode % 4 = 0 then owner % 2 ^ 24 else 0) * 2 ^ 38 + frame * 2 ^ 12 + perms % 16 * 4 + 3

/-- Maps a page of an ASID on frames. -/
def State.mapPage (s : State) (asid va frame : Nat) (big : Bool) (mode owner perms : Nat) : State :=
  match s.asid asid with
  | some e => s.mapIn va (if big then 3 else 4) (leafEntry frame mode owner perms) e.root levels
  | none => s

/-- Maps a page on zeroed frames of a partition. Where HBM has no free group of frames left, the page stays unmapped (log 86, DESIGN
CHOICE). -/
def State.mapFresh (s : State) (asid part va : Nat) (big : Bool) (mode owner perms : Nat) : State :=
  match s.takeFrames part (if big then 512 else 1) with
  | (some f, s) => s.mapPage asid va f big mode owner perms
  | (none, s) => s

/-- The bytes of HBM that MAP has given a partition. -/
def State.allocated (s : State) (part : Nat) : Nat := 65536 * s.mem.frames.countP fun x => decide (x.2 = part)

/-- Unmaps a page, and frees its frames. -/
def State.unmapPage (s : State) (asid : Nat) (e : TlbEntry) : State :=
  let s := match s.leafAddr asid e.va with
    | some a => (s.walkMeets asid [e.va]).setEntry a 0
    | none => s
  { s with mem := { s.mem with frames := s.mem.frames.filter fun x => !decide (e.pa ≤ x.1 * 65536 ∧ x.1 * 65536 < e.pa + e.size) } }

/-- Maps the service area of an ASID (R341): SR and SW only; REDUCE, OPEN and READ. -/
def State.mapService (s : State) (e : AsidEntry) : State :=
  let put (s : State) (k mode : Nat) : State := s.mapFresh e.asid firmwareOwner (e.svc + 0x10000 * k) false mode 0 12
  put (put (put s 0 2) 1 3) 2 1

/-- Writes buffered lines that a predicate names back to HBM, and frees their buffers (R283, R336). The engine reads every word, and an
uncorrectable one becomes zero (R385, R388); each HBM word is written whole, so it is correct again. -/
def State.writeBack (s : State) (p : Line → Bool) : State :=
  let ls := s.sync.lines.filter p
  let put (s : State) (l : Line) : State :=
    let s := (upFrom 0 8).foldl (fun s k => s.lineMeet l.asid 0 (l.va + 8 * k) (l.pa + 8 * k)) s
    { s with
      mem := { s.mem with hbm := Memory.write s.mem.hbm l.pa (Memory.bytes s.sync.lineMem l.pa 64)
                          bad := s.mem.bad.filter fun w => !decide (l.pa / 8 ≤ w ∧ w < l.pa / 8 + 8) }
      sync := { s.sync with lineMem := Memory.write s.sync.lineMem l.pa (List.replicate 64 0) } }
  let s := ls.foldl put s
  let s := { s with sync := { s.sync with lines := s.sync.lines.filter fun l => !p l } }
  ls.foldl (fun s l => s.denySteps (s.asidPart l.asid) (s.lineEngine l.asid l.pa)) s

/-- The frames of the tables below a table, and of the pages that these map (R336 to R338). -/
def framesBelow (m : GlobalMem) : Nat → List (Nat × Nat × Nat) → List Nat
  | _, [] => []
  | table, (_, w, lv) :: rest =>
    (List.range (2 ^ w)).flatMap fun k =>
      let e := m.word (table + 8 * k)
      if e % 2 = 0 then []
      else if e / 2 % 2 = 1 then upFrom (bitsOf e 37 12) (if lv = 3 then 512 else 1)
      else bitsOf e 41 12 / 16 :: framesBelow m (bitsOf e 41 12 * 4096) rest

/-- Removes the page tables of an ASID (R336): their frames, and those of its pages, are free. -/
def State.dropTables (s : State) (e : AsidEntry) : State :=
  let gone := e.root / 65536 :: framesBelow s.mem e.root levels
  let shared := (s.mem.asids.filter fun x => decide (x.asid ≠ e.asid)).map fun x => x.root / 65536
  let s := s.zeroHbm e.root 128
  { s with mem := { s.mem with frames := s.mem.frames.filter fun x => !gone.contains x.1 || shared.contains x.1 } }

/-- A byte of HBM as firmware reads it (R385). -/
def GlobalMem.byteAt (m : GlobalMem) (a : Nat) : Byte :=
  if m.bad.contains (a / 8) then BitVec.ofNat 8 (Config.lostWord (a / 8) / 2 ^ (8 * (a % 8))) else Memory.byte m.hbm a

/-- The bytes of a range of an ASID as firmware reads them, none where a byte is not mapped or its stack has left the device (R390). It
takes the bytes in HBM whatever the mode of the page (log 71, DESIGN CHOICE). -/
def State.fwRead (s : State) (asid va n : Nat) : Option (List Byte) :=
  (upFrom va n).mapM fun a => (s.walk asid a).bind fun e =>
    if s.stackGone (e.pa + (a - e.va)) then none else some (s.mem.byteAt (e.pa + (a - e.va)))

/-- What firmware's read of a range meets (R385): the uncorrectable words of it, and of the tables that map it, count at their stacks. -/
def State.fwMeet (s : State) (asid va n : Nat) : State :=
  (s.walkMeets asid (upFrom va n)).meetHbm (((upFrom va n).filterMap fun a => (s.walk asid a).map fun e => (e.pa + (a - e.va)) / 8).eraseDups)

end Sys2Proof.Machine
end

