-- ==== Sys2Proof/Machine/EventService.lean ====
section
/-! DEFINITION. Requests to firmware (R341 to R345), from the request ring of an ASID or from the command buffer (R381): mode changes
(R282, R283), mapping, faults and counters. A request that is not due leaves the state as it is. -/

namespace Sys2Proof.Machine

/-! ## Requests and their results -/

/-- A request (R342). -/
structure Req where
  kind : Nat
  asid : Nat
  donectr : W32
  va : Nat
  len : Nat
  arg : Nat
deriving DecidableEq, Repr, Inhabited

/-- The virtual address of request slot i of an ASID (R341). -/
def AsidEntry.slotVa (e : AsidEntry) (i : Nat) : Nat := e.svc + 0x10000 + 64 * (i % 1024)

/-- The bytes of CMDBUF from an offset. -/
def State.cmdField (s : State) (off n : Nat) : Nat := fieldAt s.host.ctrl.cmdbuf.toList off n

/-- Whether firmware has work in progress for a source. -/
def State.srcBusy (s : State) (src : ReqSource) : Bool := s.mem.modeReqs.any fun r => decide (r.src = src)

/-- The request that firmware may serve next from a source (R341, R381). -/
def State.reqOf (s : State) (src : ReqSource) : Option Req :=
  if s.srcBusy src then none
  else
    match src with
    | .ring a =>
      (match s.asid a with
       | none => none
       | some e =>
         match s.fwRead a (e.slotVa e.served) 64 with
         | none => none
         | some r =>
           let f := fieldAt r
           if (s.counterView a e.reqctr).value.toNat > e.served ∧ f 0x3C 4 = e.served % 2 ^ 32 then
             some ⟨f 0 4, a, BitVec.ofNat 32 (f 4 4), f 8 8, f 0x10 8, f 0x18 8⟩
           else none)
    | .command =>
      let f := s.cmdField
      if s.host.ctrl.cmdRun ∧ 5 ≤ f 0 1 ∧ f 0 1 ≤ 10 then
        some ⟨f 0 1 - 4, f 2 2, BitVec.ofNat 32 (f 4 4), f 8 8, f 0x10 8, f 0x18 8⟩
      else none

/-- Firmware looks at a request ring (R341): the engine of REQCTR and the HBM that holds the slot are read, and what errors they hold are met
(R385, R388). -/
def State.meetRing (s : State) (src : ReqSource) : State :=
  match src with
  | .ring a =>
    (match s.asid a with
     | some e => s.ctrMeet a e.reqctr 0
     | none => s)
  | .command => s

/-- The slot that firmware has read of a request ring, if any, has met what errors it holds (R385). -/
def State.meetSlot (s : State) (src : ReqSource) : State :=
  match src with
  | .ring a =>
    (match s.asid a with
     | some e => s.fwMeet a (e.slotVa e.served) 64
     | none => s)
  | .command => s

/-- A command ends (R381). -/
def State.cmdEnd (s : State) (status result : Nat) : State :=
  { s with host := { s.host with ctrl := { s.host.ctrl with cmdRun := false, cmdStatus := status, cmdResult := result } } }

/-- A request is finished (R341, R342, R381): RESULT, DONECTR, and REQHEAD or CMDSTAT. -/
def State.finish (s : State) (src : ReqSource) (asid : Nat) (donectr : W32) (result : Nat) : State :=
  match src with
  | .ring a =>
    (match s.asid a with
     | none => s
     | some e =>
       let s := (s.fwWrite a (e.slotVa e.served + 0x38) (toBytes result 4)).updAsid a fun e => { e with served := e.served + 1 }
       (s.ctrSignal a donectr).ctrBy a e.reqhead 0 fun c => c.addValue 1)
  | .command => (s.ctrSignal asid donectr).cmdEnd (if result = 0 then 0 else 4) result

/-- Serves the next request of a source if it is of a kind. A command with a reserved byte that is not zero, or with an ASID that is not
assigned, ends with STATUS 3 (R381). -/
def State.serve (s : State) (src : ReqSource) (kind : Nat) (f : State → Req → State) : Out :=
  let s := if s.srcBusy src then s else s.meetRing src
  match s.reqOf src with
  | none => .next s
  | some r =>
    if r.kind ≠ kind then .next s
    else if src = .command ∧ (s.cmdField 1 1 ≠ 0 ∨ s.cmdField 0x20 32 ≠ 0 ∨ (s.asid r.asid).isNone) then .next (s.cmdEnd 3 0)
    else .next (f (s.meetSlot src) r)

/-! ## Modes and mappings -/

/-- The pages of a range of whole pages (R342), none where a page is missing or cut. -/
def State.wholePages (s : State) (asid va len : Nat) : Option (List TlbEntry) :=
  match s.pagesOf asid va len with
  | (_, some _) => none
  | (l, none) => if decide (va + len ≤ 2 ^ 56) && l.all fun e => decide (va ≤ e.va ∧ e.va + e.size ≤ va + len) then some l else none

/-- What the walks meet that look for the pages of a range (R385). -/
def State.rangeMeets (s : State) (asid va len : Nat) : State :=
  let (l, gap) := s.pagesOf asid va len
  s.walkMeets asid (l.map (fun e => e.va) ++ gap.toList)

/-- A mode change or an UNMAP becomes pending (R283). -/
def State.beginMode (src : ReqSource) (unmap : Bool) (s : State) (r : Req) : State :=
  let s := s.rangeMeets r.asid r.va r.len
  match s.wholePages r.asid r.va r.len with
  | none => s.finish src r.asid r.donectr 2
  | some _ =>
    let q : ModeReq :=
      { asid := r.asid, va := r.va, len := r.len, mode := r.arg % 4, owner := bitsOf r.arg 25 2, ctr := r.donectr, unmap := unmap
        src := src, slot := ((s.asid r.asid).map (·.served)).getD 0 }
    { s with mem := { s.mem with modeReqs := s.mem.modeReqs ++ [q] } }

/-- MODE (R283, R342): a mode change of a range. -/
def execMode (src : ReqSource) (s : State) : Out := s.serve src 1 (State.beginMode src false)

/-- UNMAP (R342). -/
def execUnmap (src : ReqSource) (s : State) : Out := s.serve src 3 (State.beginMode src true)

/-- Whether a virtual tile has an access to a range outstanding (R283): one that has not left its counts. -/
def Tile.accesses (t : Tile) (va n : Nat) : Bool :=
  t.ops.loads.any (fun o => match o.kind with
    | .global _ | .atomic _ _ _ _ _ => o.elems.any fun e => meets e.va e.bytes va n
    | .timed _ _ | .crd _ _ => false) ||
  t.ops.stores.any (fun o => o.elems.any fun e => meets e.va e.data.length va n) ||
  t.ops.copies.any (fun c => decide (c.kind ≠ .cpt) && meets c.va c.len va n) ||
  t.ops.ms.any (fun o => match o.kind with
    | .red _ ty a _ _ _ _ _ => meets a (redSize ty) va n
    | .handover _ a len _ _ _ => meets a len va n
    | .msg | .cadd _ _ | .cexp _ _ | .cset _ _ | .seal _ _ _ => false)

/-- Whether a pending range has drained (R283): no tile and no port has an access to it under way. -/
def State.rangeDrained (s : State) (q : ModeReq) : Bool :=
  !s.tiles.any (fun t => decide (t.gang.asid = q.asid) && t.accesses q.va q.len) &&
  !s.host.ports.toList.any fun p =>
    (p.writes.any fun w => decide (w.asid = q.asid) && meets w.va w.data.length q.va q.len) ||
    (p.reading.any fun r => decide (r.asid = q.asid) && meets r.va r.len q.va q.len)

/-- MODE_CHANGE_SWITCH (R282, R283, R342): after the drain, lines that leave REDUCE are written back, the pages get their new mode and
owner or are unmapped, stale translations go, and the request is finished. -/
def execModeChangeSwitch (n : Nat) (s : State) : Out :=
  match s.mem.modeReqs[n]? with
  | none => .next s
  | some q =>
    let before := (s.mem.modeReqs.take n).any fun r => decide (r.asid = q.asid) && meets r.va r.len q.va q.len
    if before || !s.rangeDrained q then .next s
    else
      let pages := (s.pagesOf q.asid q.va q.len).1
      let leaving := pages.filter fun e => decide (e.mode = 2) && (q.unmap || decide (q.mode ≠ 2))
      let s := s.writeBack fun l => leaving.any fun e => decide (e.pa ≤ l.pa ∧ l.pa < e.pa + e.size)
      let s := if q.unmap then (pages.foldl (fun s e => s.unmapPage q.asid e) s).invalidate q.asid q.va q.len
        else s.setPages q.asid q.va q.len q.mode q.owner
      let s := { s with mem := { s.mem with modeReqs := dropNth s.mem.modeReqs n } }
      .next (s.finish q.src q.asid q.ctr 0)

/-- The pages that a MAP request names, by their first addresses (R342). -/
def mapPages (va len size : Nat) : List Nat := (List.range (len / size)).map fun k => va + k * size

/-- MAP (R342): unmapped pages of the range get zeroed frames of the partition's allocation. -/
def execMap (src : ReqSource) (s : State) : Out :=
  s.serve src 2 fun s r =>
    let big := decide (r.arg / 2 ^ 30 % 2 = 1)
    let size := if big then 2 ^ 25 else 65536
    let part := s.asidPart r.asid
    let pages := mapPages r.va r.len size
    let mapped := pages.any fun a => (upFrom 0 (size / 65536)).any fun k => (s.walk r.asid (a + 65536 * k)).isSome
    let tooMuch := decide (s.allocated part + r.len > (s.part part).gov.hbmalloc)
    if r.va % size ≠ 0 ∨ r.len % size ≠ 0 ∨ r.va + r.len > 2 ^ 56 ∨ tooMuch ∨ mapped then s.finish src r.asid r.donectr 2
    else
      let put (s : State) (a : Nat) : State := s.mapFresh r.asid part a big (r.arg % 4) (bitsOf r.arg 25 2) (bitsOf r.arg 29 26)
      ((pages.foldl put s).invalidate r.asid r.va r.len).finish src r.asid r.donectr 0

/-! ## Faults and counters -/

/-- The open fault that a request names (R342, R343). -/
def State.openFault (s : State) (r : Req) : Option RedFault :=
  match s.faultOf r.asid r.arg with
  | some f => if f.written then some f else none
  | none => none

/-- RESOLVE (R228, R342). -/
def execResolve (src : ReqSource) (s : State) : Out :=
  s.serve src 4 fun s r =>
    match s.openFault r with
    | some f => (s.retryFault f).finish src r.asid r.donectr 0
    | none => s.finish src r.asid r.donectr 3

/-- ABANDON (R228, R342). -/
def execAbandon (src : ReqSource) (s : State) : Out :=
  s.serve src 5 fun s r =>
    match s.openFault r with
    | some f => (s.abandonFault f).finish src r.asid r.donectr 0
    | none => s.finish src r.asid r.donectr 3

/-- Removes the counters of an ASID that a predicate names, and what their engines know of them. -/
def State.dropCounters (s : State) (p : Counter → Bool) : State :=
  let gone := s.sync.ctrs.filter p
  let s := { s with sync := { s.sync with
    ctrs := s.sync.ctrs.filter fun c => !p c
    bad := s.sync.bad.filter fun k => !gone.any fun c => decide (ctrKey c.asid c.id = k) } }
  gone.foldl (fun s c => s.denySteps (s.asidPart c.asid) (s.ctrEngine c.asid c.id)) s

/-- FREECTR (R342, R345): removes counters, unless one of them has a waiter. -/
def execFreectr (src : ReqSource) (s : State) : Out :=
  s.serve src 6 fun s r =>
    let mine (c : Counter) : Bool := decide (c.asid = r.asid ∧ r.va ≤ c.id.toNat ∧ c.id.toNat < r.va + r.len)
    if r.va + r.len > 2 ^ 32 then s.finish src r.asid r.donectr 2
    else if s.sync.ctrs.any fun c => mine c && !c.waiters.isEmpty then s.finish src r.asid r.donectr 3
    else (s.dropCounters mine).finish src r.asid r.donectr 0

/-- REQUEST_KIND_NOT_LISTED (R342, R381): RESULT 1; for a command that is not listed, STATUS 1. -/
def execRequestKindNotListed (src : ReqSource) (s : State) : Out :=
  match src with
  | .ring _ =>
    let s := if s.srcBusy src then s else s.meetRing src
    (match s.reqOf src with
     | some r => if r.kind = 0 ∨ r.kind > 6 then .next ((s.meetSlot src).finish src r.asid r.donectr 1) else .next s
     | none => .next s)
  | .command =>
    let k := s.cmdField 0 1
    if s.host.ctrl.cmdRun ∧ (k = 0 ∨ k > 12) then .next (s.cmdEnd 1 0) else .next s

end Sys2Proof.Machine
end

