-- ==== Sys2Proof/Machine/Loader.lean ====
section
/-! DEFINITION. The loader (R84, R86 to R88): a code object is checked and becomes an image; and the checks of a partition record
(R346, R347, R380). -/

namespace Sys2Proof.Machine

/-! ## Code objects -/

/-- The sizes and offsets of a code object's header (R86). -/
structure ObjHead where
  text : Nat
  data : Nat
  codeEnd : Nat
  tvec : Nat
  chan : Nat
  call : Nat
  tab : Nat
deriving DecidableEq, Repr, Inhabited

/-- Reads the header. -/
def objHead (o : List Byte) : ObjHead :=
  let f := fieldAt o
  ⟨f 0x10 4, f 0x14 4, f 0x18 4, f 0x1C 4, f 0x28 4, f 0x2C 4, f 0x30 4⟩

/-- The entries of the call table; a count above 256 counts as 256 for condition 1, and is refused under condition 5 (log 63, DESIGN
CHOICE). -/
def ObjHead.calls (h : ObjHead) (o : List Byte) : Nat := min (fieldAt o h.call 4) 256

/-- Whether two extents are apart. -/
def apart (a n b m : Nat) : Bool := decide (a + n ≤ b ∨ b + m ≤ a)

/-- Condition 1 of R88: the header is well-formed, and every table lies after the data image, within the object, apart from the
others. -/
def ObjHead.ok (h : ObjHead) (o : List Byte) : Bool :=
  let f := fieldAt o
  let n := o.length
  let low := 0x40 + h.text + h.data
  let calls := 4 + 4 * h.calls o
  decide (64 ≤ n ∧ f 0 4 = 0x5152414C ∧ f 4 2 = 1 ∧ f 6 2 < 2 ∧ f 0x0C 4 = 0 ∧ f 0x34 12 = 0 ∧ h.text % 4 = 0 ∧
    h.codeEnd = (h.text + 63) / 64 * 64 ∧ h.codeEnd + h.data ≤ 524288 ∧ h.tvec % 4 = 0 ∧ h.tvec < h.text ∧
    h.chan % 8 = 0 ∧ h.call % 8 = 0 ∧ h.tab % 8 = 0 ∧ low ≤ h.chan ∧ low ≤ h.call ∧ low ≤ h.tab ∧
    h.chan + 512 ≤ n ∧ h.call + calls ≤ n ∧ h.tab + 4 ≤ n) &&
  apart h.chan 512 h.call calls && apart h.chan 512 h.tab 4 && apart h.call calls h.tab 4

/-- Entry c of the channel table as a word. -/
def ObjHead.chanWord (h : ObjHead) (o : List Byte) (c : Nat) : Nat := fieldAt o (h.chan + 8 * c) 8

/-- A channel-table entry (R29). -/
def chanOf (w : Nat) : Channel :=
  ⟨decide (bitsOf w 63 63 = 1), decide (bitsOf w 62 62 = 1), decide (bitsOf w 61 61 = 1), Fin.ofNat 8 (bitsOf w 60 58), bitsOf w 57 49, 0,
   bitsOf w 18 2⟩

/-- Whether a channel-table entry is one that R29 and R86 admit (R88, condition 5). -/
def chanOk (codeEnd w : Nat) : Bool :=
  decide (w = 0) ||
  decide (bitsOf w 63 63 = 1 ∧ bitsOf w 57 49 ≤ 256 ∧ bitsOf w 48 19 = 0 ∧ bitsOf w 1 0 = 0 ∧ 4 * bitsOf w 18 2 < codeEnd)

/-- The offsets of the call table. -/
def ObjHead.callList (h : ObjHead) (o : List Byte) : List Nat := (List.range (h.calls o)).map fun k => fieldAt o (h.call + 4 + 4 * k) 4

/-- Whether the numbers of a list rise strictly. -/
def rising : List Nat → Bool
  | a :: b :: t => decide (a < b) && rising (b :: t)
  | _ => true

/-- Condition 5 of R88: the channel table and the call table are well-formed. -/
def ObjHead.tablesOk (h : ObjHead) (o : List Byte) : Bool :=
  (List.range 64).all (fun c => chanOk h.codeEnd (h.chanWord o c)) && decide (fieldAt o h.call 4 ≤ 256) && rising (h.callList o) &&
  (h.callList o).all fun x => decide (x % 4 = 0 ∧ x < h.codeEnd)

/-- Where the table of declaration records ends: at the next table or at the end of the object. -/
def ObjHead.tabEnd (h : ObjHead) (o : List Byte) : Nat :=
  [h.chan, h.call].foldl (fun e x => if h.tab < x ∧ x < e then x else e) o.length

/-- A declaration record (R86): kind and operand words. -/
structure DeclRec where
  kind : Nat
  args : List Nat
deriving DecidableEq, Repr, Inhabited

/-- Reads n records from an offset up to an end; none where they do not fit. -/
def readRecs (o : List Byte) (stop : Nat) : Nat → Nat → Option (List DeclRec)
  | 0, _ => some []
  | n + 1, at_ =>
    let tag := fieldAt o at_ 4
    let k := tag / 2 ^ 16
    if at_ + 4 + 4 * k > stop ∨ bitsOf tag 15 8 ≠ 0 then none
    else
      let r : DeclRec := ⟨tag % 256, (List.range k).map fun j => fieldAt o (at_ + 4 + 4 * j) 4⟩
      (readRecs o stop n (at_ + 4 + 4 * k)).map fun l => r :: l

/-- Whether a record keeps the limits of R84 (R86). -/
def DeclRec.ok (r : DeclRec) : Bool :=
  match r.kind, r.args with
  | 1, [rows, cols, _, _] => decide (1 ≤ rows ∧ rows ≤ 2 ∧ 1 ≤ cols ∧ cols ≤ 3)
  | 2, [b, rows, cols, _, _, ord] => decide (64 ≤ b ∧ b ≤ 65536 ∧ b % 64 = 0 ∧ 1 ≤ rows ∧ 1 ≤ cols ∧ ord ≤ 1)
  | 3, l => decide (1 ≤ l.length ∧ l.length ≤ 64) && l.all fun x => decide (x ≤ 63)
  | 4, [n, base, bytes] => decide (n ≤ 63 ∧ base % 64 = 0 ∧ bytes % 64 = 0 ∧ 64 ≤ bytes ∧ bytes ≤ 524288)
  | _, _ => false

/-- The shingles of a list of records keep R84 and R26: inside the raw window and past .data, apart, each number named once. -/
def shinglesOk (low : Nat) : List (Nat × Nat × Nat) → Bool
  | [] => true
  | (n, base, bytes) :: rest =>
    decide (low ≤ base ∧ base + bytes ≤ 524288) && rest.all (fun x => decide (x.1 ≠ n) && apart base bytes x.2.1 x.2.2) && shinglesOk low rest

/-- The .shingle records of a list: number, base, bytes. -/
def shingleRecs (l : List DeclRec) : List (Nat × Nat × Nat) :=
  l.filterMap fun r => match r.kind, r.args with
    | 4, [n, base, bytes] => some (n, base, bytes)
    | _, _ => none

/-- The records of an object that keep every rule (R88, condition 6); .data lies from CODEEND (R87). -/
def ObjHead.recs (h : ObjHead) (o : List Byte) : Option (List DeclRec) :=
  match readRecs o (h.tabEnd o) (fieldAt o h.tab 4) (h.tab + 4) with
  | some l =>
    let n (k : Nat) : Nat := l.countP fun r => decide (r.kind = k)
    if l.all DeclRec.ok && decide (n 1 ≤ 65536 ∧ n 2 ≤ 256 ∧ n 3 ≤ 32) && shinglesOk (h.codeEnd + h.data) (shingleRecs l) then some l
    else none
  | none => none

/-- The tables that the loader makes of the records (R84, R86). -/
def progOf (calls : List Nat) (l : List DeclRec) : Prog :=
  { calls := calls
    plans := l.filterMap fun r => match r.kind, r.args with
      | 1, [a, b, c, d] => some ⟨a, b, c, d⟩
      | _, _ => none
    deals := l.filterMap fun r => match r.kind, r.args with
      | 2, [b, rows, cols, r0, c0, ord] => some ⟨b, rows, cols, r0, c0, decide (ord = 1)⟩
      | _, _ => none
    perms := l.filterMap fun r => if r.kind = 3 then some r.args else none }

/-- The scratchpad that the loader places (R87): text, NOP words up to CODEEND, data. -/
def ObjHead.pad (h : ObjHead) (o : List Byte) : Memory :=
  let nops := (List.range ((h.codeEnd - h.text) / 4)).flatMap fun _ => toBytes (instrWord .nop).toNat 4
  Memory.write [] 0 ((o.drop 0x40).take h.text ++ nops ++ (o.drop (0x40 + h.text)).take h.data)

/-- Loads a code object for a partition and an ASID: an image, or the refusal reason, the lowest where several hold (R88; log 63, DESIGN
CHOICE). -/
def loadObject (g : PartRec) (asid handle : Nat) (o : List Byte) : Except Nat Image :=
  let h := objHead o
  let f := fieldAt o
  if !h.ok o then .error 1
  else if (List.range 4).any fun k => decide (f (8 + k) 1 > g.offers k) then .error 2
  else if !h.tablesOk o then .error 5
  else
    match h.recs o with
    | none => .error 6
    | some l =>
      .ok { handle := handle, asid := asid, detReq := decide (f 6 2 % 2 = 1), profiles := (List.range 4).map fun k => f (8 + k) 1
            gridCols := f 0x20 2, gridRows := f 0x22 2, barrier := BitVec.ofNat 32 (f 0x24 4), codeEnd := h.codeEnd, tvec := h.tvec
            pad := h.pad o, chans := (List.range 64).map fun c => chanOf (h.chanWord o c), prog := progOf (h.callList o) l }

/-! ## Partition records -/

/-- Whether every byte of an extent of a staging record is zero. -/
def stagingZero (m : Memory) (a n : Nat) : Bool := decide (Memory.nat m a n = 0)

/-- The field numbers of HOMETAB: 4,096 of six bits, low bits first (R380). -/
def hometabOf (m : Memory) : List Nat :=
  let x := Memory.nat m 0x400 3072
  (List.range 4096).map fun k => x / 2 ^ (6 * k) % 64

/-- A staging record as a partition record (R380). -/
def recordOf (m : Memory) : PartRec :=
  let f := Memory.nat m
  { enable := decide (f 0 1 = 1), hiclass := f 1 1, livelim := f 2 2, qdepth := f 4 1, summon := f 5 1, faultwait := f 6 2
    profmask := BitVec.ofNat 4 (f 8 1), leafmask := BitVec.ofNat 8 (f 9 1), caplo := f 0xA 2, caphi := f 0xC 2, boostlo := f 0xE 1
    quota := #v[f 0x10 4, f 0x14 4, f 0x18 4, f 0x1C 4], hbmalloc := f 0x20 8, ovfalloc := f 0x28 8, hostasid := f 0x30 2, hostva := f 0x38 8
    hometab := Memory.write [] 0 ((hometabOf m).map fun x => BitVec.ofNat 8 x) }

/-- Whether every field of a staging record is in range, and every reserved byte zero (R347, R380). -/
def stagingOk (m : Memory) : Bool :=
  let f := Memory.nat m
  decide (f 0 1 ≤ 1 ∧ f 1 1 ≤ 7 ∧ 1 ≤ f 2 2 ∧ f 2 2 ≤ 4096 ∧ 1 ≤ f 4 1 ∧ f 4 1 ≤ 64 ∧ f 5 1 ≤ 3 ∧ f 8 1 ≤ 15 ∧ f 9 1 % 4 = 0 ∧
    f 0xA 2 ≤ f 0xC 2 ∧ f 0xC 2 ≤ 256 ∧ f 0xE 1 ≤ 8 ∧ f 0x30 2 ≤ 4095 ∧ f 0x38 8 % 65536 = 0) &&
  stagingZero m 0xF 1 && stagingZero m 0x32 6 && stagingZero m 0x40 0x3B0 && (hometabOf m).all fun x => decide (x ≤ 55)

/-- The capacities of the engines' tables (R346). -/
def tableCapacity (table : Nat) : Nat := if table = 0 ∨ table = 3 then 262144 else 65536

/-- Whether the quotas and reserves of all partitions, with a new record for one of them, fit every table (R346). -/
def State.quotasOk (s : State) (part : Nat) (r : PartRec) : Bool :=
  (List.range 4).all fun t =>
    let q (g : PartRec) : Nat := g.quota.get (Fin.ofNat 4 t) + g.quota.get (Fin.ofNat 4 t) / 8
    decide ((List.range 64).foldl (fun n p => n + q (if p = part then r else (s.part p).gov)) 0 ≤ tableCapacity t)

end Sys2Proof.Machine
end

