-- ==== Sys2Proof/Machine/EventControl.lean ====
section
/-! DEFINITION. The control window (R376 to R381): the semaphore, freezing, register writes, partition records and commands; and the
writes of the function windows that have no event of their own (R372, R373). An event that is not due leaves the state as it
is. -/

namespace Sys2Proof.Machine

/-- Changes the control window. -/
def State.updCtrl (s : State) (f : Control → Control) : State := { s with host := { s.host with ctrl := f s.host.ctrl } }

/-! ## The semaphore -/

/-- The bits that a read of SEMA returns to a master: the semaphore's owner reads 0 (R377). -/
def semaBits (owner m : Fin 2) : Nat := if owner = m then 0 else 1 + 2 * owner.val

/-- SEMA_READ (R377): a read of a free semaphore makes the reader its owner. -/
def execSemaRead (m : Nat) (s : State) : Out :=
  s.request m fun s =>
    let me : Fin 2 := Fin.ofNat 2 m
    .next (s.updCtrl fun c => match c.owner with
      | none => { c with owner := some me, semaRead := 0 }
      | some o => { c with semaRead := semaBits o me })

/-- The semaphore becomes free if a master owns it. -/
def State.freeSema (s : State) (m : Nat) : State :=
  s.updCtrl fun c => if c.owner = some (Fin.ofNat 2 m) then { c with owner := none } else c

/-- The link of a port is down (R377, R382, R390): its master's semaphore is free, and a read that it waits for is not answered. -/
def State.portDown (s : State) (m : Nat) : State := (s.freeSema m).updPort m fun p => { p with up := false, reading := none }

/-- SEMA_WRITE (R377). -/
def execSemaWrite (m : Nat) (s : State) : Out := s.request m fun s => .next (s.freeSema m)

/-- A master is frozen (R378): posted writes that its port holds are discarded and reported under AER,
and a read that waits for its response is answered with an error. -/
def State.freeze (s : State) (m : Nat) : State :=
  let k := m % 2
  let held := (s.parts.toList.map fun p => p.held.countP fun w => decide (w.port % 2 = k)).foldl (· + ·) 0
  let s := { s with parts := s.parts.map fun (p : Part) => { p with held := p.held.filter fun w => decide (w.port % 2 ≠ k) } }
  s.updPort m fun p =>
    let p := match p.reading with
      | some _ => { p with reading := none, readData := [], readError := true, errors := p.errors + 1 }
      | none => p
    { p with frozen := true, errors := p.errors + 1, aer := p.aer + held }

/-- A write that needs the semaphore (R376, R378): a master that does not own it is frozen. -/
def State.owned (s : State) (m : Nat) (f : State → State) : State :=
  if s.host.ctrl.owner = some (Fin.ofNat 2 m) then f s else s.freeze m

/-- UNFREEZE (R378): the owner unfreezes the other master if its bit is set. -/
def execUnfreeze (m : Nat) (v : Word) (s : State) : Out :=
  s.request m fun s => .next (s.owned m fun s =>
    let k := 1 - m % 2
    if v.getLsbD k then s.updPort k fun p => { p with frozen := false } else s)

/-! ## Register writes -/

/-- Bytes [hi:lo] of a 64-bit value go to an 8-byte place of a record. -/
def putWord (m : Memory) (a : Nat) (v : Word) : Memory := Memory.write m a (toBytes v.toNat 8)

/-- A write above 256 sets 256 (R356). -/
def sat256 (x : Nat) : Nat := min x 256

/-- A write to a register of the telemetry block (R356): DPOINT and DCFG. -/
def Control.writeCurve (c : Control) (off : Nat) (v : Word) : Control :=
  let x := v.toNat
  if 8 ≤ off ∧ off < 0x48 ∧ off % 8 = 0 then
    let k : Fin 8 := Fin.ofNat 8 (off / 8 - 1)
    { c with dpoints := c.dpoints.set k.val ⟨sat256 (bitsOf x 56 48), bitsOf x 47 32, bitsOf x 31 0⟩ k.isLt }
  else if off = 0x48 then { c with loss := sat256 (bitsOf x 40 32), hyst := sat256 (bitsOf x 8 0) }
  else c

/-- A write to CMDBUF (R381). -/
def Control.writeCmd (c : Control) (off : Nat) (v : Word) : Control :=
  if c.cmdRun then c
  else if off < 0x40 then { c with cmdbuf := Vector.ofFn fun k =>
    if off ≤ k.val ∧ k.val < off + 8 then BitVec.ofNat 8 (v.toNat / 2 ^ (8 * (k.val - off))) else c.cmdbuf.get k }
  else if off = 0x40 then { c with cmdRun := true, cmdResult := 0 }
  else c

/-- A write of PCAP.CAP (R355). -/
def Part.writePcap (p : Part) (v : Nat) : Part :=
  let x := min (max v p.gov.caplo) p.gov.caphi
  { p with pcap := x, capCnt := if x ≠ v then min (p.capCnt + 1) 0xFFFF else p.capCnt }

/-- A write of PBOOST.MIN (R355). -/
def Part.writePboost (p : Part) (v : Nat) : Part :=
  let x := min (max v p.gov.boostlo) 8
  { p with pboost := x, boostCnt := if x ≠ v then min (p.boostCnt + 1) 0xFFFF else p.boostCnt }

/-- The bits of an MBTGT that are not reserved (R373). -/
def mbtgtMask : Word := 0x0000FFFF3FFFFFFF

/-- A write of 8 bytes in BAR0 of a function (R354, R372 to R374). -/
def State.writeBar0 (s : State) (m func off : Nat) (v : Word) : State :=
  if off < 0x40 ∨ (0x400 ≤ off ∧ off < 0x800) then s.mailError m func (!(s.part func).gov.enable)
  else if 0x200 ≤ off ∧ off < 0x280 ∧ off % 8 = 0 then
    let n := (off - 0x200) / 8
    if n / 8 ≠ m % 2 then s.mailError m func false
    else s.updPart func fun p => { p with mbtgt := p.mbtgt.set (Fin.ofNat 16 n).val (v &&& mbtgtMask) (Fin.ofNat 16 n).isLt }
  else if 0x2000 ≤ off ∧ off < 0x2010 then s.updPart func fun p => { p with msixTable := putWord p.msixTable (off - 0x2000) v }
  else
    match off with
    | 0x40 => s.updPart func fun p => { p with seed := v }
    | 0x50 => s.updPart func fun p => p.writeCompack v
    | 0x100 => s.updPart func fun p => p.writePcap (v.toNat % 512)
    | 0x108 => s.updPart func fun p => p.writePboost (v.toNat % 16)
    | 0x110 => s.updPart func fun p => { p with pshed := v.getLsbD 0 }
    | 0x118 => s.updPart func fun p => { p with capCnt := bitsOf v.toNat 15 0, boostCnt := bitsOf v.toNat 31 16 }
    | _ => s

/-- PSTATUS of a staging record (R380, R383): whether firmware applies it, and why not; of several reasons the
lowest (log 88, DESIGN CHOICE). -/
def State.recordStatus (s : State) (part : Nat) : Nat :=
  let m := (s.part part).staging
  let r := recordOf m
  if !stagingOk m then 1
  else if !s.quotasOk part r then 2
  else if Config.countersignPolicy ∧ r.enable ∧ s.host.ctrl.map = 1 then 3
  else 0

/-- Firmware applies a staging record, or says why not (R380). With the first record of a partition PCAP takes its reset value, CAPHI
(R354, log 5, DESIGN CHOICE). PCAP and PBOOST are saturated afresh, without counting (R355), and the engines look at their tables under the
new quotas (R218). -/
def State.applyRecord (s : State) (part : Nat) : State :=
  let st := s.recordStatus part
  let s := s.updPart part fun p => { p with pstatus := st }
  if st ≠ 0 then s
  else
    (s.updPart part fun p =>
      let r := recordOf p.staging
      let cap := if p.recorded then p.pcap else r.caphi
      { p with gov := r, recorded := true, pcap := min (max cap r.caplo) r.caphi, pboost := min (max p.pboost r.boostlo) 8 }).denyEvery part

/-- PAPPLY (R380). -/
def execPapply (m part : Nat) (v : Word) (s : State) : Out :=
  s.request m fun s => .next (s.owned m fun s => if v = 1 then s.applyRecord part else s)

/-- A write of 8 bytes in a staging record: PSTATUS ignores it, PAPPLY acts (R380). -/
def State.writeStaging (s : State) (part off : Nat) (v : Word) : State :=
  if off = 0x3F0 then s
  else if off = 0x3F8 then (if v = 1 then s.applyRecord part else s)
  else s.updPart part fun p => { p with staging := putWord p.staging off v }

/-- Whether an offset of the control window lies in the registers of a site (R376). -/
def siteOffset (off : Nat) : Bool := decide (0x1000000 ≤ off) && isSite ((off - 0x1000000) / 64)

/-- A write of 8 bytes in the control window (R376): read-only places ignore it, every other one needs the semaphore. -/
def State.writeControl (s : State) (m off : Nat) (v : Word) : State :=
  if off = 0 ∨ (0x200000 ≤ off ∧ off < 0x240000) ∨ siteOffset off ∨ 0x2000000 ≤ off then s
  else if off = 8 then s.freeSema m
  else s.owned m fun s =>
    if off = 0x10 then (if v.getLsbD (1 - m % 2) then s.updPort (1 - m % 2) fun p => { p with frozen := false } else s)
    else if 0x10000 ≤ off ∧ off < 0x20000 then s.updCtrl fun c => c.writeCmd (off - 0x10000) v
    else if 0x20000 ≤ off ∧ off < 0x100000 then s.updCtrl fun c => c.writeCurve (off - 0x20000) v
    else if 0x100000 ≤ off ∧ off < 0x140000 then s.writeStaging ((off - 0x100000) / 4096) (off % 4096) v
    else s

/-- CONTROL_WINDOW_WRITE (R372, R376, R378). -/
def execControlWindowWrite (m : Nat) (addr : WinAddr) (v : Word) (s : State) : Out :=
  s.request m fun s =>
    match addr with
    | .bar0 func off => .next (s.writeBar0 m func off v)
    | .control off => .next (s.writeControl m off v)

/-! ## Flash -/

/-- The header of an image, which its signatures cover (R382). -/
def header (i : Config.FlashImage) : Nat × Nat × List Byte × Nat := (i.magic, i.kind, i.hash, i.version)

/-- Whether an image of a kind verifies (R382): MAGIC, KIND, the hash of the body, and both signatures over the header. -/
def verifies (kind : Nat) (i : Config.FlashImage) : Bool :=
  decide (i.magic = Config.flashMagic ∧ i.kind = kind ∧ Config.sha384 i.body = i.hash) &&
  Config.rsaVerifies (header i) i.rsa && Config.slhVerifies (header i) i.slh

/-- The copy of an image that boot takes, A before B (R382); none where both fail. -/
def Flash.image (f : Flash) (kind : Fin 3) : Option Config.FlashImage := (f.images.get kind).toList.find? (verifies kind.val)

/-- The image that the part runs with: the one that boot has taken, or, where none verified, copy A; that is the defect map that a self-test
has built and stored (R383). -/
def Flash.used (f : Flash) (kind : Fin 3) : Config.FlashImage := (f.image kind).getD ((f.images.get kind).get 0)

/-- The body of an image that the part runs with. -/
def Flash.body (f : Flash) (kind : Fin 3) : List Byte := (f.used kind).body

/-- Writes copy A of an image. -/
def Flash.writeA (f : Flash) (kind : Fin 3) (i : Config.FlashImage) : Flash :=
  { f with images := f.images.set kind.val ((f.images.get kind).set 0 i) kind.isLt }

/-! ## Commands -/

/-- Runs a command that stands in CMDBUF, if it has the number; used says which bytes it uses, and any other one that is not zero
ends it with STATUS 3 (R381). -/
def State.command (s : State) (n : Nat) (used : List (Nat × Nat)) (f : State → State) : Out :=
  if !s.host.ctrl.cmdRun ∨ s.cmdField 0 1 ≠ n then .next s
  else
    let free := (List.range 64).filter fun k => !((0, 1) :: used).any fun u => decide (u.1 ≤ k ∧ k < u.1 + u.2)
    if free.any fun k => decide (s.cmdField k 1 ≠ 0) then .next (s.cmdEnd 3 0) else .next (f s)

/-- The bytes of an HDM range of a partition, read through its HOSTASID (R381). -/
def State.hdmRead (s : State) (part off n : Nat) : Option (List Byte) :=
  let g := (s.part part).gov
  if off + n ≤ 2 ^ 40 then s.fwRead g.hostasid (g.hostva + off) n else none

/-- What firmware's read of such a range meets (R385). -/
def State.hdmMeet (s : State) (part off n : Nat) : State :=
  let g := (s.part part).gov
  s.fwMeet g.hostasid (g.hostva + off) n

/-- The handle that a prepared image gets: a free one, as firmware chooses. -/
def State.freeHandle (s : State) (part : Nat) : Option Nat :=
  let free := (List.range 4096).filter fun h => !(s.part part).images.any fun i => decide (i.handle = h)
  free[Config.handleChoice s.drawn % free.length]?

/-- PREPARE_IMAGE (R88, R381). Where the partition has no free handle left, it ends with STATUS 5, whatever the object (log 89, DESIGN
CHOICE). -/
def execPrepareImage (s : State) : Out :=
  s.command 1 [(2, 2), (4, 2), (8, 8), (16, 4)] fun s =>
    let part := s.cmdField 2 2
    let asid := s.cmdField 4 2
    let off := s.cmdField 8 8
    let mine : Bool := match s.asid asid with
      | some e => decide (e.part = part)
      | none => false
    match (if part < 64 ∧ off % 64 = 0 ∧ mine then s.hdmRead part off (s.cmdField 16 4) else none) with
    | none => s.cmdEnd 3 0
    | some o =>
      let s := s.hdmMeet part off (s.cmdField 16 4)
      match s.freeHandle part with
      | none => s.cmdEnd 5 0
      | some h =>
        match loadObject (s.part part).gov asid h o with
        | .error why => s.cmdEnd 4 why
        | .ok i => (s.draw.2.updPart part fun p => { p with images := p.images ++ [i] }).cmdEnd 0 h

/-- Whether a queued launch or a live gang uses an image (R381). -/
def State.imageUsed (s : State) (part h : Nat) : Bool :=
  (s.part part).queue.any (fun l => decide (fieldAt l.record 4 2 = h)) || (s.liveGangs part).any fun g => decide (g.image.handle = h)

/-- DROP_IMAGE (R381). -/
def execDropImage (s : State) : Out :=
  s.command 2 [(2, 2), (4, 2)] fun s =>
    let part := s.cmdField 2 2
    let h := s.cmdField 4 2
    if part ≥ 64 ∨ !(s.part part).images.any (fun i => decide (i.handle = h)) then s.cmdEnd 3 0
    else if s.imageUsed part h then s.cmdEnd 5 0
    else (s.updPart part fun p => { p with images := p.images.filter fun i => decide (i.handle ≠ h) }).cmdEnd 0 0

/-- REMOVE_GANG (R275, R381). -/
def execRemoveGang (s : State) : Out :=
  s.command 3 [(2, 2), (4, 2)] fun s =>
    match s.gang (s.cmdField 2 2) (s.cmdField 4 2) with
    | none => s.cmdEnd 3 0
    | some g => (s.killGang g.part g.gid).cmdEnd 0 0

/-- Frees an ASID (R336, R345): its lines are written back, and its counters, page tables and entry go. -/
def State.freeAsid (s : State) (e : AsidEntry) : State :=
  let s := (s.writeBack fun l => decide (l.asid = e.asid)).dropCounters fun c => decide (c.asid = e.asid)
  let s := (s.invalidate e.asid 0 (2 ^ 56)).dropTables e
  { s with mem := { s.mem with asids := s.mem.asids.filter fun x => decide (x.asid ≠ e.asid)
                               modeReqs := s.mem.modeReqs.filter fun r => decide (r.asid ≠ e.asid) } }

/-- Whether a counter identifier may serve an ASID (R347). -/
def serviceCtr (x : Nat) : Bool := decide (1 ≤ x ∧ x ≤ 0xFFFFEFFF)

/-- ASSIGN_ASID (R336, R341, R381): an ASID gets its partition, an empty page table and its service area, or is freed. -/
def execAssignAsid (s : State) : Out :=
  s.command 4 [(2, 2), (4, 1), (8, 8), (16, 8), (24, 4), (28, 4), (32, 4)] fun s =>
    let a := s.cmdField 2 2
    let part := s.cmdField 4 1
    let root := s.cmdField 8 8
    let svc := s.cmdField 16 8
    let c (k : Nat) : Nat := s.cmdField (24 + 4 * k) 4
    if a > 4095 then s.cmdEnd 3 0
    else if part = 0xFF then
      match s.asid a with
      | none => s.cmdEnd 3 0
      | some e => if s.gangs.any fun g => decide (g.image.asid = a) then s.cmdEnd 5 0 else (s.freeAsid e).cmdEnd 0 0
    else if part > 63 ∨ root % 4096 ≠ 0 ∨ root ≥ 48 * 2 ^ 36 ∨ svc % 65536 ≠ 0 ∨ svc + 0x30000 > 2 ^ 56 ∨ !serviceCtr (c 0) ∨
        !serviceCtr (c 1) ∨ !serviceCtr (c 2) then s.cmdEnd 3 0
    else if (s.asid a).isSome then s.cmdEnd 5 0
    else
      let e : AsidEntry :=
        { asid := a, part := part, root := root, svc := svc, reqctr := BitVec.ofNat 32 (c 0), reqhead := BitVec.ofNat 32 (c 1)
          fltctr := BitVec.ofNat 32 (c 2), nextFault := 0, served := 0 }
      let s := s.zeroHbm root 128
      let frames := if s.frameUsed (root / 65536) then s.mem.frames else s.mem.frames ++ [(root / 65536, firmwareOwner)]
      let s := { s with mem := { s.mem with asids := s.mem.asids ++ [e], frames := frames } }
      (s.mapService e).cmdEnd 0 0

/-- SELECT_PLACEMENT_TABLE (R381). -/
def execSelectPlacementTable (s : State) : Out :=
  s.command 11 [(2, 2), (4, 2)] fun s =>
    match s.gang (s.cmdField 2 2) (s.cmdField 4 2) with
    | none => s.cmdEnd 3 0
    | some g => (s.updCtrl fun c => { c with selected := some (g.part, g.gid) }).cmdEnd 0 0

/-- COUNTERSIGN_MAP (R381, R383): the owner's signatures over the defect map are checked against the owner keys of the configuration
image; if they verify they are stored, and make MAP COUNTERSIGNED. -/
def execCountersignMap (s : State) : Out :=
  s.command 12 [(8, 8), (16, 4)] fun s =>
    match (if s.cmdField 16 4 = 30176 then s.hdmRead 0 (s.cmdField 8 8) 30176 else none) with
    | none => s.cmdEnd 3 0
    | some b =>
      let s := s.hdmMeet 0 (s.cmdField 8 8) 30176
      if Config.mapSignature (s.host.flash.body 1) (s.host.flash.body 2) b then
        (({ s with host := { s.host with flash := { s.host.flash with owner := b } } } : State).updCtrl fun c => { c with map := 2 }).cmdEnd 0 0
      else s.cmdEnd 2 0

end Sys2Proof.Machine
end

