-- ==== Sys2Proof/Machine/System.lean ====
section
/-! DEFINITION. The system instructions: IDLE (R119), MFS and MTS (R120, R121), QUERY (R122 to R124), TLBINV (R125). -/

namespace Sys2Proof.Machine

/-- IDLE (R119): the tile is suspended until a wake event. -/
def execIdle (s : State) : Out :=
  issue {} (fun s => .ok (s.upd fun t =>
    let t := t.issued []
    { t with ex := { t.ex with idle := true }, pl := { t.pl with idleSince := s.fab.time } })) s

/-- Whether an earlier instruction that can set an FFLAGS bit has not yet done so (R121). -/
def Tile.flagsPending (t : Tile) : Bool := t.iss.writes.any fun w => w.flags.isSome

/-- The checks of MFS and MTS of an index (R15, R120): ILLEGAL for an index that is not listed, PRIV for a dash, and the wait of
FFLAGS (R121). -/
def Tile.checkReg (t : Tile) (i : Instr) (x : Nat) : Except Stop RegAccess := do
  match t.access x with
  | none => .error (.cause 0x01 (instrWord i))
  | some .hidden => .error (.cause 0x03 (instrWord i))
  | some a =>
    failIf (decide (x = 0x011) && t.flagsPending) (.wait 22)
    .ok a

/-- MFS (R120): reads the register at issue; its result has latency 2 (R239). -/
def execMfs (d : GReg) (x : BitVec 12) (s : State) : Out :=
  issue { regs := [.g d] } (fun s => do
    let _ ← s.tile.checkReg (.mfs d x) x.toNat
    let v := s.readReg x.toNat
    .ok (s.upd fun t => (t.result 2 (.g d v)).issued [])) s

/-- MTS (R120): a register that may only be read keeps its value; the effect is there in the next cycle (R239). -/
def execMts (a : GReg) (x : BitVec 12) (s : State) : Out :=
  issue { regs := [.g a], reads := [.g a] } (fun s => do
    let acc ← s.tile.checkReg (.mts a x) x.toNat
    .ok (s.upd fun t =>
      let v := t.g a
      let t := t.issued [.g a]
      if acc = .readWrite then { t with iss := { t.iss with writes := t.iss.writes ++ [⟨t.iss.cycle, .sr x.toNat v, none⟩] } }
      else t)) s

/-- The words of the leaves before any masking (R123). -/
def leafWord (leaf : Nat) : Nat :=
  match leaf with
  | 0 => 1 * 2 ^ 16 + 7
  | 1 => 1 * 2 ^ 32 + 1 * 2 ^ 24 + 1 * 2 ^ 16 + 1 * 2 ^ 8 + 1
  | 2 => 256 * 2 ^ 48 + 64 * 2 ^ 32 + 256 * 2 ^ 16 + 512
  | 3 => 64 * 2 ^ 56 + 8 * 2 ^ 48 + 16 * 2 ^ 40 + 32 * 2 ^ 32 + 32 * 2 ^ 24 + 8 * 2 ^ 16 + 64 * 2 ^ 8 + 64
  | 4 => 0x3F * 2 ^ 40 + 4096 * 2 ^ 24 + 25 * 2 ^ 16 + 16 * 2 ^ 8 + 56
  | 5 => 2900 * 2 ^ 48 + 2700 * 2 ^ 32 + 2500 * 2 ^ 16 + 800
  | 6 => 64 * 2 ^ 32 + 64 * 2 ^ 24 + 64 * 2 ^ 16 + 2000
  | 7 => (if Config.steppingA1 then 2 else 1) * 2 ^ 16 + 1
  | _ => 0

/-- The leaf word that a function gives (R122, R124): PROFMASK clears the bytes of VEC, MTX, MSG and SYN in leaf 1, LEAFMASK
masks leaves 2 to 7 as a whole. -/
def queryWord (r : PartRec) (leaf : Nat) : Word :=
  if leaf = 1 then
    w64 (1 + (List.range 4).foldl (fun n k => n + (if r.profmask.getLsbD k then 0 else 2 ^ (8 * (k + 1)))) 0)
  else if 2 ≤ leaf ∧ leaf ≤ 7 ∧ r.leafmask.getLsbD leaf then 0
  else w64 (leafWord leaf)

/-- QUERY (R122). -/
def execQuery (d : GReg) (x : BitVec 12) (s : State) : Out :=
  issue { regs := [.g d] } (fun s =>
    let v := queryWord (s.part s.tile.id.part).gov x.toNat
    .ok (s.upd fun t => (t.result 2 (.g d v)).issued [])) s

/-- TLBINV (R125): PRIV at U; the entry of the page that holds ga, of either size, in the tile's ASID. -/
def execTlbinv (a : GReg) (s : State) : Out :=
  issue { regs := [.g a], reads := [.g a] } (fun s => do
    failIf (!s.tile.ex.prv) (.cause 0x03 (instrWord (.tlbinv a)))
    .ok (s.upd fun t =>
      let va := (t.g a).toNat
      let t := t.issued [.g a]
      { t with ni := { t.ni with tlb := t.ni.tlb.filter fun e => !decide (e.asid = t.gang.asid ∧ e.va ≤ va ∧ va < e.va + e.size) } })) s

/-- TLBINV ALL (R125): PRIV at U; every entry of the tile's ASID. -/
def execTlbinvAll (s : State) : Out :=
  issue {} (fun s => do
    failIf (!s.tile.ex.prv) (.cause 0x03 (instrWord .tlbinvAll))
    .ok (s.upd fun t =>
      let t := t.issued []
      { t with ni := { t.ni with tlb := t.ni.tlb.filter fun e => decide (e.asid ≠ t.gang.asid) } })) s

end Sys2Proof.Machine
end

