-- ==== Sys2Proof/Machine/EventBoot.lean ====
section
/-! DEFINITION. Boot, link events, resets and attestation (R377, R378, R382 to R384). -/

namespace Sys2Proof.Machine

/-- Changes a rim controller. -/
def State.updCtl (s : State) (k : Nat) (f : Controller → Controller) : State :=
  { s with host := { s.host with
    ctl := s.host.ctl.set (Fin.ofNat 2 k).val (f (s.host.ctl.get (Fin.ofNat 2 k))) (Fin.ofNat 2 k).isLt } }

/-- A rim controller. -/
def State.ctl (s : State) (k : Nat) : Controller := s.host.ctl.get (Fin.ofNat 2 k)

/-- Stage 5 of boot (R311, R352, R359, R382): the origin of TIME, with which the intervals begin (R349), the ceiling and the permits. -/
def State.initialise (s : State) : State :=
  { s with
    fab := { s.fab with time := 0, routers := s.fab.routers.map fun p => (p.1, { p.2 with adj := 0, lag := 0, holdTicks := 0, pulses := 0 }) }
    power := { s.power with ceil := 256, lastSample := 0, lastLoss := none, graces := [], interval := 0, sites := []
                            fields := s.power.fields.map fun f => { f with permits := 64, fall := .normal } } }

/-- CSTAT takes a controller's boot state, unless the part is READY already (log 34, DEDUCED). -/
def State.showBoot (s : State) (b : BootState) (halt : Nat) : State :=
  s.updCtrl fun c => if c.boot = .ready then c else { c with boot := b, halt := halt }

/-- A controller reaches a boot state. -/
def State.booted (s : State) (k : Nat) (b : BootState) (halt : Nat) : State := (s.updCtl k fun c => { c with boot := b }).showBoot b halt

/-- A controller passes stages 5 and 6; the first one that does initialises the part. -/
def State.becomeReady (s : State) (k : Nat) : State :=
  (if s.host.ctrl.boot = .ready then s else s.initialise).booted k .ready 0

/-- Stages 2 to 4 of boot at one controller (R382): the images are verified, copy A and then B of each. -/
def State.verifyImages (s : State) (ctl : Nat) : State :=
  let has (k : Fin 3) : Bool := (s.host.flash.image k).isSome
  if !has 0 then s.booted ctl .halted 1
  else if !has 1 then s.booted ctl .halted 2
  else if !has 2 then s.booted ctl .selftest 0
  else s.becomeReady ctl

/-- POWER_UP (R382): a controller leaves its ROM with the keys that its PUF gives, and then verifies the images. -/
def execPowerUp (ctl : Nat) (puf : Bool) (s : State) : Out :=
  if (s.ctl ctl).failed then .next s
  else
    match (s.ctl ctl).boot with
    | .rom => .next (if puf then s.booted ctl .verify 0 else s.booted ctl .halted 3)
    | .verify => .next (s.verifyImages ctl)
    | .selftest | .ready | .halted => .next s

/-- BOOT_TIMEOUT (R382): 30 s after power-up a controller that is neither READY nor in self-test has failed, and its port stays down; with
both failed the module halts. -/
def execBootTimeout (ctl : Nat) (s : State) : Out :=
  let c := s.ctl ctl
  if c.boot = .ready ∨ c.boot = .selftest ∨ c.failed then .next s
  else
    let s := (s.updCtl ctl fun c => { c with failed := true }).portDown ctl
    if (s.ctl 0).failed ∧ (s.ctl 1).failed then .next (s.updCtrl fun c => { c with boot := .halted, halt := 4 }) else .next s

/-- The map that the self-test builds (R383), signed with the identity keys; it keeps the security version of copy A (log 61, DESIGN
CHOICE). -/
def Flash.selfBuilt (f : Flash) : Config.FlashImage :=
  let old := (f.images.get 2).get 0
  let hash := Config.sha384 Config.builtMap
  let sig := Config.identitySign (Config.headerBytes (Config.flashMagic, 2, hash, old.version))
  ⟨Config.flashMagic, 2, hash, old.version, Config.builtMap, sig.1, sig.2⟩

/-- SELFTEST (R383): the controllers that wait for it have built, signed and stored a fresh map in copy A, and go on with stage 5. -/
def execSelftest (s : State) : Out :=
  let wait := [0, 1].filter fun k => decide ((s.ctl k).boot = .selftest)
  if wait.isEmpty then .next s
  else
    let flash := s.host.flash.writeA 2 s.host.flash.selfBuilt
    let s : State := { s with host := { s.host with flash := flash } }
    .next ((wait.foldl State.becomeReady s).updCtrl fun c => { c with map := 1 })

/-- LINK_DOWN (R377): the port's link is down, and a semaphore that its master owns is free. -/
def execLinkDown (m : Nat) (s : State) : Out := .next (s.portDown m)

/-- Whether a port is still attached to the device (R390): its router has not failed. -/
def State.attached (s : State) (m : Nat) : Bool := !s.svc.failed.any fun f => decide (f.1 = Config.portSite (m % 2) ∧ f.2 = 4)

/-- HOT_RESET (R377, R378): the semaphore is freed, the master is unfrozen, and the link trains again unless its controller has failed
(R382) or its router has (R390). -/
def execHotReset (m : Nat) (s : State) : Out :=
  let ok := !(s.ctl m).failed && s.attached m
  .next ((s.portDown m).updPort m fun p => { p with frozen := false, up := ok })

/-- A router whose counts are cleared (R312). -/
def Router.cleared (r : Router) : Router := { r with episodes := 0, gutter := 0, xfield := 0, congest := 0, overrun := 0 }

/-- MODULE_RESET (R312, R378, R389): both masters are unfrozen, and the counts of routers and of TERR are cleared. -/
def execModuleReset (s : State) : Out :=
  let s := (s.updPort 0 fun p => { p with frozen := false }).updPort 1 fun p => { p with frozen := false }
  .next { s with
    fab := { s.fab with routers := s.fab.routers.map fun p => (p.1, p.2.cleared) }
    svc := { s.svc with errs := s.svc.errs.map fun p => (p.1, { p.2 with attCorr := 0, attUnc := 0, unc := 0, corr := 0 }) } }

/-- The security version of an image that the part runs with. -/
def Flash.version (f : Flash) (kind : Fin 3) : Nat := (f.used kind).version

/-- Measurement blocks 1 to 6 (R384): the repair list is part of the defect map (R391), and the stepping is the word of QUERY leaf 7
(R123). The rule gives no layout of blocks 4 and 6 (log 67, DESIGN CHOICE). -/
def State.blocks (s : State) : List (List Byte) :=
  let f := s.host.flash
  [Config.romVersion, Config.sha384 (f.body 0), Config.sha384 (f.body 1),
   Config.sha384 (f.body 2 ++ Config.listBytes s.svc.repairs) ++ toBytes s.host.ctrl.map 1,
   Config.versionBlock [f.version 0, f.version 1, f.version 2], toBytes (leafWord 7) 8]

/-- The controller that answers attestation (R384): controller 1 if controller 0 has failed. -/
def State.attester (s : State) : Nat := if (s.ctl 0).failed then 1 else 0

/-- SPDM_REQUEST (R378, R384): the response stands in the DOE mailbox: blocks 1 to 6, block 7 over them and the nonce, and the
signature. -/
def execSpdmRequest (nonce : Challenge) (s : State) : Out :=
  s.request nonce.port fun s =>
    let bs := s.blocks
    let all := bs ++ [Config.identitySignature s.attester bs nonce.nonce]
    .next (s.updCtrl fun c => { c with doe := all.flatten ++ Config.responseSignature s.attester all })

end Sys2Proof.Machine
end

