-- ==== Sys2Proof/Machine/EventFabric.lean ====
section
/-! DEFINITION. Routers (R296 to R303, R310): routing, the timeout detector, the ridge token and the gutter; and wafer time (R311,
R312). An event that is not due leaves the state as it is. -/

namespace Sys2Proof.Machine

/-! ## Lanes -/

/-- Changes the flits. -/
def State.updFlits (s : State) (l : List Flit) : State := { s with fab := { s.fab with flits := l } }

/-- Whether a flit stands in a normal lane of a router. -/
def Flit.inLane (f : Flit) (site port lane : Nat) : Bool := !f.gutter && decide (f.site = site ∧ f.port = port ∧ f.lane = lane)

/-- Whether a flit stands in the gutter lane of an input port. -/
def Flit.inGutter (f : Flit) (site port : Nat) : Bool := f.gutter && decide (f.site = site ∧ f.port = port)

/-- The flit at the head of a lane; lane 4 is the gutter lane. -/
def State.laneHead (s : State) (site port lane : Nat) : Option Flit :=
  s.fab.flits.find? fun f => if lane = 4 then f.inGutter site port else f.inLane site port lane

/-- Router cycles since reset: two per nanosecond (R311). -/
def State.routerCycle (s : State) : Nat := 2 * s.fab.time

/-- The flits of a lane that stand in the FIFO of the crossing before it (R310): those that have not come through, and those for which the
lane itself, with a number of slots, has no room. -/
def State.inFifo (s : State) (slots : Nat) (p : Flit → Bool) : Nat :=
  let here := s.fab.flits.countP fun f => p f && decide (f.came ≤ s.routerCycle)
  (s.fab.flits.countP p - here) + (here - slots)

/-- The free slots of a lane at the far end of a link (R296, R310): of four, or, at a field crossing, of the eight of its FIFO, whose
receiver takes a flit out as it has come through and the lane has room. -/
def State.laneFree (s : State) (src dst port lane : Nat) : Nat :=
  if fieldOf src = fieldOf dst then 4 - s.fab.flits.countP fun f => f.inLane dst port lane
  else 8 - s.inFifo 4 fun f => f.inLane dst port lane

/-- Whether the gutter lane at the far end of a link has a free slot (R296, R310): of one, or, at a field crossing, of the one of its FIFO.
-/
def State.gutterFree (s : State) (src dst port : Nat) : Bool :=
  if fieldOf src = fieldOf dst then decide ((s.fab.flits.countP fun f => f.inGutter dst port) = 0)
  else decide ((s.inFifo 1 fun f => f.inGutter dst port) = 0)

/-- The lanes of a network (R296). -/
def netLanes (message : Bool) : Nat × Nat := if message then (0, 1) else (2, 3)

/-- Whether an output leads a flit on (R298): to a router of the tables at a strictly smaller distance, or, at its destination, out. -/
def State.leadsOn (s : State) (f : Flit) (out : Nat) : Bool :=
  if out = 4 then decide (f.site = f.dst)
  else
    match neighbour f.site out with
    | some n => s.mapped n && decide (s.distance n f.dst < s.distance f.site f.dst)
    | none => false

/-- The entry of the candidate table for a flit (R297, R298): the outputs that it lists. Where the constant lists none that leads on, which
no loader's table does, those that lead on stand in (log 48, DESIGN CHOICE). -/
def State.entry (s : State) (f : Flit) : List Nat :=
  match (s.listed f.site f.dst).filter (s.leadsOn f) with
  | [] => [0, 1, 2, 3, 4].filter (s.leadsOn f)
  | l => l

/-- Whether an output leads to a router that works now (R312, R390), or out. -/
def State.outWorks (s : State) (site out : Nat) : Bool :=
  match neighbour site out with
  | some n => s.routerWorks n
  | none => true

/-- The outputs that a router may offer a flit to (R297): those of the entry. One toward a router that has failed since the tables were made
takes nothing (R390), and no other stands in for it until the rebuild (R391). -/
def State.outputs (s : State) (f : Flit) : List Nat := (s.entry f).filter (s.outWorks f.site)

/-- The free slots that an output offers a flit (R297); the local output, which has no lanes, counts as eight (log 66, DESIGN CHOICE). -/
def State.outFree (s : State) (f : Flit) (out : Nat) : Nat :=
  if out = 4 then 8
  else
    match neighbour f.site out with
    | none => 0
    | some n =>
      let l := netLanes f.message
      s.laneFree f.site n (inPort out) l.1 + s.laneFree f.site n (inPort out) l.2

/-- The output that a router takes for a flit (R297): the most free slots, the earlier one on a tie; none where all are full. -/
def State.outputFor (s : State) (f : Flit) : Option Nat :=
  ((s.outputs f).foldl (fun (best : Option (Nat × Nat)) o =>
    let n := s.outFree f o
    match best with
    | some b => if n > b.2 then some (o, n) else best
    | none => if n > 0 then some (o, n) else none) none).map Prod.fst

/-- The lanes of a router: input port and lane. -/
def laneNames : List (Nat × Nat) := (List.range 5).flatMap fun p => (List.range 4).map fun l => (p, l)

/-- The head flits of a router's normal lanes. -/
def State.heads (s : State) (site : Nat) : List Flit := laneNames.filterMap fun l => s.laneHead site l.1 l.2

/-- Removes the head of a lane; the flit behind it stands at the head from now on, or from when it has come there. -/
def State.popLane (s : State) (site port lane : Nat) : State :=
  let rec pop (fs : List Flit) (gone : Bool) : List Flit := match fs with
    | [] => []
    | f :: rest =>
      if (if lane = 4 then f.inGutter site port else f.inLane site port lane) then
        (if gone then { f with since := max s.routerCycle f.came } :: rest else pop rest true)
      else f :: pop rest gone
  s.updFlits (pop s.fab.flits false)

/-- An event of a router counts at the virtual tile that resides on it (R251, R312). -/
def State.eventAt (s : State) (site ev n : Nat) : State :=
  s.updAll fun t => if t.present && decide (t.id.gid ≠ 0 ∧ t.pl.phys = site) then t.event ev n else t

/-- A flit leaves a router across a field boundary (R312, event 53). -/
def State.countCrossing (s : State) (a b : Nat) : State :=
  if fieldOf a = fieldOf b then s else (s.updRouter a fun r => { r with xfield := r.xfield + 1 }).eventAt a 53 1

/-! ## Links -/

/-- The link of an output. -/
def Router.link (r : Router) (out : Nat) : Link := (r.links.find? fun l => decide (l.out = out)).getD ⟨out, 3, 0⟩

/-- A link sends in a beat (R296): the lane of its last normal flit, and the next beat. -/
def State.useLink (s : State) (site out last : Nat) : State :=
  s.updRouter site fun r =>
    { r with links := r.links.filter (fun l => decide (l.out ≠ out)) ++ [⟨out, last, max (r.link out).next s.routerCycle + 1⟩] }

/-- Whether a link has a beat left (R296): one in each router cycle. -/
def State.beat (s : State) (site out : Nat) : Bool := decide (((s.router site).link out).next ≤ s.routerCycle + 1)

/-- Whether a flit has come through its hop (R296): two router cycles. -/
def State.through (s : State) (f : Flit) : Bool := decide (f.came + 2 ≤ s.routerCycle)

/-- The lane that a flit takes over a link (R296): the one of its network that it has chosen, or the other where that one is full (log 60,
DESIGN CHOICE); none where both are full. -/
def State.laneFor (s : State) (f : Flit) (out n : Nat) : Option Nat :=
  let l := netLanes f.message
  let order := if f.upper then [l.2, l.1] else [l.1, l.2]
  order.find? fun x => decide (s.laneFree f.site n (inPort out) x > 0)

/-- Whether a gutter flit at the head of its lane is ready for a link of a router (R296, R301). -/
def State.gutterReady (s : State) (site out n : Nat) : Bool :=
  (List.range 5).any fun port => match s.laneHead site port 4 with
    | some f => decide (s.gutterOut site f.dst = some out) && s.through f && s.gutterFree site n (inPort out)
    | none => false

/-- The next lane after a link's last one, in round-robin order, that a predicate names. -/
def nextLane (last : Nat) (p : Nat → Bool) : Option Nat := ((List.range 4).map fun k => (last + 1 + k) % 4).find? p

/-- Whether a link sends a head flit in this beat (R296, R297): no gutter flit is ready, its lane downstream is the next one in turn, and no
older head of the router goes there too. -/
def State.takesLink (s : State) (f : Flit) (out n lane : Nat) : Bool :=
  let rivals := (s.heads f.site).filter fun g => decide (s.outputFor g = some out) && s.through g
  s.beat f.site out && s.through f && !s.gutterReady f.site out n &&
  decide (nextLane ((s.router f.site).link out).last (fun l => rivals.any fun g => decide (s.laneFor g out n = some l)) = some lane) &&
  !rivals.any fun g => decide (s.laneFor g out n = some lane ∧ g.since < f.since)

/-- A flit moves over a link into a lane; a crossing adds 4 ns (R310). It chooses the lane of its next link (log 60, DESIGN CHOICE). -/
def State.sendOver (s : State) (f : Flit) (out n lane : Nat) : State :=
  let at_ := s.routerCycle + (if fieldOf f.site = fieldOf n then 0 else 8)
  let s := s.countCrossing f.site n
  let g := { f with site := n, port := inPort out, lane := lane, came := at_, since := at_, upper := Config.laneChoice s.fab.moves }
  { s with fab := { s.fab with moves := s.fab.moves + 1, flits := s.fab.flits ++ [g] } }

/-- A packet leaves the fabric at its destination; a spanning-tree report is applied at once (R271, R301). What others do there, their own
events say. -/
def State.comeOut (s : State) (r : PacketRef) : State :=
  match r with
  | .pkt n => s.takeReportOf n
  | .msg _ | .req _ _ | .resp _ _ | .data _ _ _ _ | .deny _ _ _ _ | .part _ _ => s

/-- A gutter flit is accepted at its destination (R301): data of a CPT whose fill has not passed step 2 of R192 goes into the arrival queue
of the virtual tile, which is processed in arrival order. -/
def State.comeOutGutter (s : State) (f : Flit) : State :=
  match f.ref with
  | .data id stamp recip _ =>
    (match (if f.message then s.fab.remotes.find? fun r => decide ({ r.dst with vt := r.issuer } = id ∧ r.stamp = stamp ∧ r.recip = recip)
            else none) with
     | some r => if r.parked then s else s.parkArrival r.dst (.fill r.serial)
     | none => s)
  | r => s.comeOut r

/-- A gutter flit moves one hop along its route (R301). -/
def State.gutterHop (s : State) (f : Flit) (port : Nat) : State :=
  match s.gutterOut f.site f.dst with
  | none => s
  | some out =>
    match neighbour f.site out with
    | none => s
    | some n =>
      if s.routerWorks n && s.beat f.site out && s.through f && s.gutterFree f.site n (inPort out) then
        ((s.popLane f.site port 4).useLink f.site out ((s.router f.site).link out).last).sendOver f out n 4
      else s

/-- Whether a head flit leaves the fabric at its router now (R297): no older head of the router is to leave there too. -/
def State.leavesHere (s : State) (f : Flit) : Bool :=
  decide (f.came ≤ s.routerCycle) &&
  !(s.heads f.site).any fun g => decide (s.outputFor g = some 4 ∧ g.came ≤ s.routerCycle ∧ g.since < f.since)

/-- PACKET_ROUTING (R296, R297, R301): the head of a lane goes over the link of its output if the link takes it; at its site a normal flit
leaves the fabric. Which of two heads is the older, the time at the head of its lane says (log 66, DESIGN CHOICE). -/
def execPacketRouting (site port lane : Nat) (s : State) : Out :=
  match s.laneHead site port lane with
  | none => .next s
  | some f =>
    if !s.routerWorks site then .next s
    else if f.gutter then .next (s.gutterHop f port)
    else
      match s.outputFor f with
      | none => .next s
      | some out =>
        if out = 4 then .next (if s.leavesHere f then (s.popLane site port lane).comeOut f.ref else s)
        else
          match neighbour site out with
          | none => .next s
          | some n =>
            match s.laneFor f out n with
            | none => .next s
            | some l =>
              .next (if s.takesLink f out n l then ((s.popLane site port lane).useLink site out l).sendOver f out n l else s)

/-! ## Recovery -/

/-- Whether a head flit has stood for TDET router cycles (R299). -/
def State.timedOut (s : State) (f : Flit) : Bool := decide (f.since + s.fab.tdet ≤ s.routerCycle)

/-- TIMEOUT_DETECTOR (R299, R313): the detector of a normal lane fires, and the router is suspect; event 51. -/
def execTimeoutDetector (site port lane : Nat) (s : State) : Out :=
  match s.laneHead site port lane with
  | none => .next s
  | some f =>
    if s.timedOut f && !f.gutter && !(s.router site).suspect then
      .next ((s.updRouter site fun r =>
        { r with suspect := true, episodes := r.episodes + 1, episodeStart := s.fab.time }).eventAt site 51 1)
    else .next s

/-- The lanes of a router whose heads have stood for TDET, oldest first (R300). -/
def State.stuckLanes (s : State) (site : Nat) : List (Nat × Nat) :=
  let l := laneNames.filterMap fun p => (s.laneHead site p.1 p.2).map fun f => (f.since, p)
  (sortList (fun a b => decide (a.1 ≤ b.1)) (l.filter fun x => decide (x.1 + s.fab.tdet ≤ s.routerCycle))).map fun x => x.2

/-- The head of a lane goes into the router's gutter lane in one step (R300); event 52. -/
def State.drainLane (s : State) (site : Nat) (p : Nat × Nat) : State :=
  match s.laneHead site p.1 p.2 with
  | none => s
  | some f =>
    let s := s.popLane site p.1 p.2
    let s := s.updFlits (s.fab.flits ++ [{ f with gutter := true, port := 4, lane := 4 }])
    (s.updRouter site fun r => { r with gutter := r.gutter + 1 }).eventAt site 52 1

/-- The token goes to the next working router of the ring; a suspect one captures it (R300). At first it goes to the router with which the
ring of the image begins, if that one works. -/
def State.passToken (s : State) : State :=
  let first := decide (s.fab.token = 57344) && isSite Config.ringStart && s.routerWorks Config.ringStart
  let site := if first then Config.ringStart else s.ringAfter 57344 s.fab.token
  { s with fab := { s.fab with token := site, drained := if (s.router site).suspect then some 0 else none } }

/-- A router releases the token: with no flit left past TDET its episode ends (R299, R303). -/
def State.release (s : State) (site : Nat) : State :=
  if (s.stuckLanes site).isEmpty then
    s.updRouter site fun r =>
      { r with suspect := false, overrun := if r.episodeStart + 50000 < s.fab.time then r.overrun + 1 else r.overrun }
  else s

/-- The router that has captured the token, with k flits drained so far, drains the oldest of its flits past TDET if its gutter lane is
free; after the last one, or the thirty-second, it releases the token (R300). -/
def State.capture (s : State) (k : Nat) : State :=
  let site := s.fab.token
  match s.stuckLanes site with
  | p :: _ =>
    if k ≥ 32 then (s.release site).passToken
    else if s.gutterFree site site 4 then
      let s := s.drainLane site p
      { s with fab := { s.fab with drained := some (k + 1) } }
    else s
  | [] => (s.release site).passToken

/-- RIDGE_TOKEN (R300): the token moves on, or the router that has captured it drains a flit or releases it. -/
def execRidgeToken (s : State) : Out :=
  .next (match s.fab.drained with
    | none => s.passToken
    | some k => s.capture k)

/-- GUTTER_DELIVERY (R301): a gutter flit at its destination leaves the fabric, and is always accepted. -/
def execGutterDelivery (site port : Nat) (s : State) : Out :=
  match s.laneHead site port 4 with
  | none => .next s
  | some f =>
    if f.site = f.dst ∧ f.came ≤ s.routerCycle ∧ s.routerWorks site then .next ((s.popLane site port 4).comeOutGutter f) else .next s

/-- TDETCFG (R312): a write saturates. -/
def execTdetcfg (v : Nat) (s : State) : Out := .next { s with fab := { s.fab with tdet := min (max v 500) 8000 } }

/-! ## Wafer time -/

/-- The sites at which some normal-lane head has no listed output with a free slot (R312). -/
def State.congested (s : State) : List Nat :=
  let sites := (s.fab.flits.map fun f => f.site).eraseDups
  sites.filter fun x => (s.heads x).any fun f => decide (f.came ≤ s.routerCycle) && (s.outputFor f).isNone

/-- A router's correction over one nanosecond: a router that holds TIME falls back by one (R311). -/
def Router.tick (r : Router) : Router := if r.holdTicks = 0 then r else { r with lag := r.lag + 1, holdTicks := r.holdTicks - 1 }

/-- A router's TIME drifts by one nanosecond against the root, and stays within two of it (R311; log 33, DESIGN CHOICE). -/
def Router.drift (r : Router) (ahead : Bool) : Router :=
  if ahead then (if r.adj + 1 ≤ r.lag + 2 then { r with adj := r.adj + 1 } else r)
  else if r.lag + 1 ≤ r.adj + 2 then { r with lag := r.lag + 1 } else r

/-- The drift of a tick, at the router that the free values name, if any; one that held TIME in the tick does not drift in it. -/
def State.drift (s : State) (held : List Nat) : State :=
  let (n, s) := s.draw
  let x := Config.driftSite n
  if isSite x && !held.contains x then s.updRouter x fun r => r.drift (Config.driftAhead n) else s

/-- A nanosecond has passed. -/
def State.later (s : State) : State := { s with fab := { s.fab with time := s.fab.time + 1 } }

/-- WAFER_TIME_TICK (R311, R312): every router adds 1 to TIME but for those that hold it, and one may drift. CONGEST counts the router cycle
that ends the nanosecond, as the lanes stand now, and the one that begins the next. -/
def execWaferTimeTick (s : State) : Out :=
  let jam := s.congested ++ s.later.congested
  let held := (s.fab.routers.filter fun p => decide (p.2.holdTicks ≠ 0)).map Prod.fst
  let s : State := { s with fab := { s.fab with time := s.fab.time + 1, routers := s.fab.routers.map fun p => (p.1, p.2.tick) } }
  .next (jam.foldl (fun s x => s.updRouter x fun r => { r with congest := r.congest + 1 }) (s.drift held))

/-- SYNC_PULSE (R311): the next pulse arrives at a router, which steps TIME forward or holds it. -/
def execSyncPulse (site : Nat) (s : State) : Out :=
  let r := s.router site
  let at_ := (r.pulses + 1) * 65536 + Config.depth site
  if s.fab.time < at_ then .next s
  else
    let now := s.timeAt site
    .next (s.updRouter site fun r =>
      if now < at_ then { r with adj := r.adj + (at_ - now), pulses := r.pulses + 1 }
      else { r with pulses := r.pulses + 1, holdTicks := now - s.fab.time })

end Sys2Proof.Machine
end

