-- ==== Sys2Proof/Machine/EventPower.lean ====
section
/-! DEFINITION. Power (R348 to R364): the budget interval with water-filling and boost permits, the droop curve, shedding and restore,
the power registers of a function; and the shutdowns of power input and cooling. An event that is not due leaves the state as it
is. -/

namespace Sys2Proof.Machine

/-- The envelope, in mW (R350). -/
def envelope : Nat := 30000000

/-- The least number of 1/256 of the envelope that covers n/d mW. -/
def in256 (n d : Nat) : Nat := (256 * n + envelope * d - 1) / (envelope * d)

/-! ## Demands -/

/-- A working tile at an interval boundary (R350): site, field, partition, A(t), request, gang state. late says that it belongs to a
shedding gang whose grace is over (R361). -/
structure Leaf where
  site : Nat
  field : Nat
  part : Nat
  act : Nat
  req : Fin 4
  top : Fin 4
  late : Bool
deriving DecidableEq, Repr, Inhabited

/-- dem(t, s) (R350). -/
def Leaf.dem (l : Leaf) (s : Fin 4) : Nat := (Config.power l.field s.val * max l.act 1 + 15) / 16

/-- base(t) (R350): at most at NOM. -/
def Leaf.base (l : Leaf) : Nat := l.dem (if l.req < 1 then l.req else 1)

/-- What a tile that runs at DUTY 1 ahead of the water-filling is granted: a sixteenth of its base (R361, log 30, DEDUCED). -/
def Leaf.ahead (l : Leaf) : Nat := (l.base + 15) / 16

/-- The virtual tile on a physical tile. -/
def State.onSite (s : State) (site : Nat) : Option Tile := s.tiles.find? fun t => t.present && decide (t.id.gid ≠ 0 ∧ t.pl.phys = site)

/-- A(t) of a tile that ran in some of its cycles (R350). -/
def activity (run all : Nat) : Nat := if all = 0 then 0 else (16 * run + all - 1) / all

/-- The leaf of a working tile (R350, R353): with no context it asks for FLOOR, and reports what contexts that left it have run. -/
def State.leaf (s : State) (site : Nat) : Leaf :=
  match s.onSite site with
  | none =>
    let u := s.siteUse site
    ⟨site, fieldOf site, s.poolOf site, activity u.run u.all, 0, u.top, false⟩
  | some t =>
    let a := activity t.ni.runCycles t.ni.allCycles
    let req : Fin 4 := if a = 0 ∨ t.pl.stopped then 0 else if a ≥ 12 ∧ t.gang.cls.val ≥ (s.part t.id.part).pboost then 3 else 1
    let late := match s.gang t.id.part t.id.gid with
      | some g => g.shedding && g.shedLate && !t.pl.stopped
      | none => false
    ⟨site, fieldOf site, t.id.part, a, req, t.ni.topStep, late⟩

/-- The working tiles of the wafer, ascending. -/
def State.leaves (s : State) : List Leaf :=
  ((List.range 57344).filter s.siteWorks).map s.leaf

/-! ## Water-filling -/

/-- The level of water-filling for claims in ascending order, with n of them left, none where every claim is met (R351). -/
def fillLevel : Nat → Nat → List Nat → Option Nat
  | _, _, [] => none
  | x, n, c :: rest => if c * n ≤ x then fillLevel (x - c) (n - 1) rest else some (x / n)

/-- Hands out what is left, 1 mW each, to claims that are not yet whole (R351). -/
def handOut : Nat → List (Nat × Nat) → List Nat
  | _, [] => []
  | r, (c, g) :: t => if r > 0 ∧ g < c then (g + 1) :: handOut (r - 1) t else g :: handOut r t

/-- Water-filling of a budget among claims in ascending order of their owners (R351). -/
def waterFill (x : Nat) (claims : List Nat) : List Nat :=
  match fillLevel x claims.length (sortList (fun a b => decide (a ≤ b)) claims) with
  | none => claims
  | some l =>
    let g := claims.map fun c => min c l
    handOut (x - g.foldl (· + ·) 0) (claims.zip g)

/-- cap(p) (R350). -/
def State.capOf (s : State) (p : Nat) : Nat := (s.part p).pcap * envelope / 256

/-- The sum of a list. -/
def total (l : List Nat) : Nat := l.foldl (· + ·) 0

/-- The grants of the leaves (R350, R351): tiles at DUTY 1 ahead of the others (R361); partitions from what is left of W, none above
what is left of its cap; then tiles from their partition's share. -/
def State.grants (s : State) (w : Nat) (ls : List Leaf) : List (Nat × Nat) :=
  let parts := List.range 64
  let late := ls.filter fun l => l.late
  let ahead (p : Nat) : Nat := total ((late.filter fun l => decide (l.part = p)).map Leaf.ahead)
  let mine (p : Nat) : List Leaf := ls.filter fun l => decide (l.part = p) && !l.late
  let shares := waterFill (w - total (late.map Leaf.ahead))
    (parts.map fun p => min (total ((mine p).map Leaf.base)) (s.capOf p - ahead p))
  late.map (fun l => (l.site, l.ahead)) ++
  (parts.zip shares).flatMap fun x => ((mine x.1).map Leaf.site).zip (waterFill x.2 ((mine x.1).map Leaf.base))

/-! ## Boost -/

/-- What is left to give in a boost admission (R352): the wafer's spare, each partition's, and CEIL per field. -/
structure Boost where
  spare : Nat
  parts : List (Nat × Nat)
  ceils : List (Nat × Fin 4)
deriving DecidableEq, Repr, Inhabited

/-- The extra of a field at a step, for the tiles that a predicate names (R352). -/
def extraOf (ls : List Leaf) (f : Nat) (s : Fin 4) (p : Leaf → Bool) : Nat :=
  total ((ls.filter fun l => decide (l.field = f ∧ l.req = 3) && p l).map fun l => l.dem s - l.base)

/-- A trial of a field at a step (R352). -/
def Boost.attempt (b : Boost) (ls : List Leaf) (f : Nat) (s : Fin 4) : Option Boost :=
  let x := extraOf ls f s fun _ => true
  let part (p : Nat) : Nat := extraOf ls f s fun l => decide (l.part = p)
  if x ≤ b.spare ∧ b.parts.all fun q => decide (part q.1 ≤ q.2) then
    some ⟨b.spare - x, b.parts.map fun q => (q.1, q.2 - part q.1), b.ceils ++ [(f, s)]⟩
  else none

/-- Tries a field at steps in order; the first trial that succeeds holds. -/
def Boost.serve (ls : List Leaf) (b : Boost) (x : Nat × List (Fin 4)) : Boost :=
  x.2.foldl (fun (r : Bool × Boost) s => if r.1 then r else match r.2.attempt ls x.1 s with
    | some b => (true, b)
    | none => r) (false, b) |>.2

/-- The power entry of a field. -/
def State.field (s : State) (f : Nat) : FieldPower := s.power.fields.get (Fin.ofNat 56 f)

/-- The fields that are served and the steps at which each is tried, in order (R352). A working tile of no partition gets no grant of R351,
and the test that every tile was granted its base whole leaves it out (log 79, DESIGN CHOICE). -/
def State.served (s : State) (ls : List Leaf) (grants : List (Nat × Nat)) : List (Nat × List (Fin 4)) :=
  let fs := List.range 56
  let fall := (fs.filter fun f => decide ((s.field f).fall = .fall1)).map fun f => (f, [(2 : Fin 4)])
  let whole (f : Nat) : Bool := (ls.filter fun l => decide (l.field = f ∧ l.part < 64)).all fun l => decide (tget 0 grants l.site ≥ l.base)
  let wants (f : Nat) : Bool := ls.any fun l => decide (l.field = f ∧ l.req = 3)
  let claim := fs.filter fun f => decide ((s.field f).fall = .normal ∧ (s.field f).permits ≥ 1) && wants f && whole f
  let first (a b : Nat) : Bool := decide ((s.field a).permits > (s.field b).permits ∨ ((s.field a).permits = (s.field b).permits ∧ a ≤ b))
  let order := sortList first claim
  let shedding := s.gangs.any Gang.shedding
  fall ++ (if shedding then [] else order.map fun f => (f, if (s.field f).permits ≥ 3 then [3, 2] else [2]))

/-- The permits and the fall state of a field after an interval whose highest step is given (R353). -/
def FieldPower.after (f : FieldPower) (top : Fin 4) : FieldPower :=
  let refill := if top = 0 then min 64 (f.permits + 1) else f.permits
  match f.fall with
  | .normal =>
    let p := match top with
      | 3 => f.permits - min 3 f.permits
      | 2 => f.permits - 1
      | _ => refill
    { f with permits := p, fall := if top ≥ 2 ∧ p = 0 then .fall1 else .normal }
  | .fall1 => { f with permits := refill, fall := .fall2 }
  | .fall2 => { f with permits := refill, fall := .normal }

/-! ## The interval -/

/-- The step, the duty and the demand of a leaf (R350). -/
structure Setting where
  step : Fin 4
  duty : Nat
  dem : Nat
deriving DecidableEq, Repr, Inhabited

/-- step(t) and DUTY(t) (R350, R361). least says that the ceiling is below the minimum draw, where every tile runs at DUTY 1 and at most
at NOM (R362). -/
def Leaf.setting (l : Leaf) (least : Bool) (ceil : Fin 4) (grant : Nat) : Setting :=
  let ceil : Fin 4 := if least then 1 else ceil
  let step := if l.req = 0 then 0 else if l.req < ceil then l.req else ceil
  let d := l.dem step
  let boost := if l.req = 3 then d - l.base else 0
  let g := grant + boost
  ⟨step, if l.late || least then 1 else if g ≥ d then 16 else max 1 (16 * g / d), d⟩

/-- Gives a virtual tile the setting of its physical tile (R349), and starts the counts of the next interval. -/
def Tile.applySetting (t : Tile) (x : Setting) : Tile :=
  { t with ni := { t.ni with
      stepNext := if x.step = t.ni.step then none else some x.step
      dutyNext := if x.duty = t.ni.duty then none else some x.duty
      runCycles := 0, allCycles := 0, topStep := t.ni.step, dem := x.dem } }

/-- The sum of dem × DUTY over leaves with their settings, in sixteenths of a mW (R358). -/
def drawOf (l : List (Leaf × Setting)) : Nat := total (l.map fun x => x.2.dem * x.2.duty)

/-- The highest step at which a tile of a field ran in the interval (R353). -/
def topOf (ls : List Leaf) (f : Nat) : Fin 4 := (ls.filter fun l => decide (l.field = f)).foldl (fun m l => if m < l.top then l.top else m) 0

/-- An interval ends (R353, R360): permits are charged, and a class with no gang that is still shedding has its saving in the estimate that
follows. -/
def State.endInterval (s : State) (ls : List Leaf) : State :=
  let due (c : Fin 8) : Bool := s.gangs.any fun g => g.shedding && decide (g.cls = c)
  { s with power := { s.power with
      interval := s.power.interval + 1
      fields := Vector.ofFn fun f => (s.power.fields.get f).after (topOf ls f.val)
      marks := Vector.ofFn fun c => { s.power.marks.get c with due := (s.power.marks.get c).due && due c } } }

/-- An empty site takes its setting at an interval boundary, and has run the step that it was at when the interval began (R349, R353). -/
def SiteUse.next (u : SiteUse) (x : Setting) (start : Nat) : SiteUse :=
  ⟨0, 0, if x.step < u.step then u.step else x.step, start, x.step, x.duty⟩

/-- The use of the working sites that hold no context, as the interval begins that now runs, for their settings. -/
def State.nextSites (s : State) (set : List (Leaf × Setting)) : List (Nat × SiteUse) :=
  let start := 10000 * s.power.interval
  ((set.filter fun x => (s.onSite x.1.site).isNone).map fun x => (x.1.site, (s.siteUse x.1.site).next x.2 start)).filter fun e =>
    decide (e.2 ≠ SiteUse.idle start)

/-- MINDRAW (R362): the draw with every tile at DUTY 1 and at most at NOM. -/
def minDrawOf (ls : List Leaf) : Nat := in256 (16 * Config.fixedPower + total (ls.map Leaf.base)) 16

/-- CEIL of each field and the setting of each leaf (R350 to R352, R362), for a ceiling: during a grace the one that is held, which is
compared with the minimum draw too (R359, R362, log 80, DESIGN CHOICE). -/
def State.settings (s : State) (c : Nat) (ls : List Leaf) : (Nat → Fin 4) × List (Leaf × Setting) :=
  let w := c * envelope / 256 - Config.fixedPower
  let gs := s.grants w ls
  let spent (p : Nat) : Nat := total ((ls.filter fun l => decide (l.part = p)).map fun l => tget 0 gs l.site)
  let b0 : Boost := ⟨w - total (gs.map Prod.snd), (List.range 64).map fun p => (p, s.capOf p - spent p), []⟩
  let b := (s.served ls gs).foldl (Boost.serve ls) b0
  let ceilOf (f : Nat) : Fin 4 := tget 1 b.ceils f
  (ceilOf, ls.map fun l => (l, l.setting (decide (c < minDrawOf ls)) (ceilOf l.field) (tget 0 gs l.site)))

/-- The ceiling from which W is computed (R359): during a grace the one from before it, of the grace that began first where several run (log
16, DEDUCED). -/
def State.wCeil (s : State) : Nat :=
  match s.power.graces with
  | g :: _ => g.2
  | [] => s.power.ceil

/-- BUDGET_INTERVAL (R349 to R353, R358, R362): at an interval boundary the permits are charged, and steps, duties and draws are
computed. -/
def execBudgetInterval (s : State) : Out :=
  if s.fab.time < 10000 * (s.power.interval + 1) then .next s
  else
    let ls := s.leaves
    let s := s.endInterval ls
    let (ceilOf, set) := s.settings s.wCeil ls
    let est := in256 (16 * Config.fixedPower + drawOf set) 16
    let least := minDrawOf ls
    let above := decide (s.power.ceil < least ∧ s.power.ceil < est)
    let fields := Vector.ofFn fun f => { s.power.fields.get f with ceil := ceilOf f.val }
    let s := { s with power := { s.power with est := est, sites := s.nextSites set, fields := fields } }
    let s := s.updCtrl fun k => { k with minDraw := least, overdraw := if above then k.overdraw + 1 else k.overdraw }
    let drawn (p : Nat) : Nat := in256 (drawOf (set.filter fun x => decide (x.1.part = p))) 16
    let s := (List.range 64).foldl (fun s p => s.updPart p fun q => { q with draw := drawn p }) s
    .next (s.updAll fun t =>
      match (if t.present ∧ t.id.gid ≠ 0 then set.find? fun x => decide (x.1.site = t.pl.phys) else none) with
      | some x => t.applySetting x.2
      | none => t)

/-! ## The droop curve -/

/-- The ceiling of a sample (R357): the least CEIL of the active points, or 256. -/
def Control.sampleCeil (c : Control) (freq volt : Nat) : Nat :=
  (c.dpoints.toList.filter fun p => decide (freq ≤ p.freq ∨ volt ≤ p.volt)).foldl (fun m p => min m p.ceil) 256

/-- A gang's saving, in mW (R360): what its resident tiles drew at the last boundary above floor. -/
def State.saving (s : State) (g : Gang) : Nat :=
  total ((s.tilesOf g.part g.gid).map fun t =>
    if t.present then t.ni.dem - (Config.power (fieldOf t.pl.phys) 0 + 15) / 16 else 0)

/-- The live gangs of a class that are not shed (R360). -/
def State.unshed (s : State) (c : Fin 8) : List Gang := s.gangs.filter fun g => decide (g.cls = c) && !g.isShed

/-- Changes the mark of a class. -/
def State.setMark (s : State) (c : Fin 8) (m : ClassMark) : State :=
  { s with power := { s.power with marks := s.power.marks.set c.val m c.isLt, passes := 0 } }

/-- A class is marked as shedding (R360, R361): its gangs wait for a barrier boundary; a gang that is stopped already is shed. -/
def State.markClass (s : State) (c : Fin 8) : State :=
  let s := s.setMark c ⟨true, total ((s.unshed c).map s.saving), true, s.fab.time⟩
  let mark (g : Gang) : Gang :=
    if g.cls = c ∧ !g.byShed then (if g.stopping then { g with byShed := true } else { g with shedWait := true }) else g
  { s with gangs := s.gangs.map mark }

/-- The saving of marked classes that the estimate does not yet show (R360, log 31, DEDUCED): up to the first boundary at which no gang of
the class is shedding. -/
def State.dueSaving (s : State) : Nat :=
  total ((List.finRange 8).map fun c => if (s.power.marks.get c).due then (s.power.marks.get c).saving else 0)

/-- The root decides (R360): it marks classes in ascending order until the estimate meets the ceiling. -/
def State.decide_ (s : State) (ceil : Nat) : State :=
  (List.finRange 8).foldl (fun s c =>
    if s.power.est - in256 s.dueSaving 1 ≤ ceil ∨ (s.power.marks.get c).marked ∨ (s.unshed c).isEmpty then s else s.markClass c) s

/-- The marked classes, highest first. -/
def State.shedClasses (s : State) : List (Fin 8) := ((List.finRange 8).filter fun c => (s.power.marks.get c).marked).reverse

/-- Class c is restored (R363): its gangs are no longer stopped by shedding, and resume if nothing else stops them. -/
def State.restoreClass (s : State) (c : Fin 8) : State :=
  let s := s.setMark c ⟨false, 0, false, 0⟩
  let gs := s.gangs.filter fun g => decide (g.cls = c)
  gs.foldl (fun s g => s.gangFree g.part g.gid fun g => { g with byShed := false, shedWait := false, shedLate := false }) s

/-- The test of restore at a sample (R363). -/
def State.testRestore (s : State) (ceil : Nat) : State :=
  match s.shedClasses with
  | [] => s
  | h :: _ =>
    if ceil ≥ s.power.est + in256 (s.power.marks.get h).saving 1 + s.host.ctrl.hyst then
      if s.power.passes + 1 ≥ 20 then s.restoreClass h else { s with power := { s.power with passes := s.power.passes + 1 } }
    else { s with power := { s.power with passes := 0 } }

/-- A sample's ceiling takes effect (R359 to R361, R363). A decision that marks a class begins a grace, beside one that runs; W keeps the
ceiling from before it. -/
def State.takeSample (s : State) (ceil : Nat) : State :=
  let old := s.power.ceil
  let running := !s.power.graces.isEmpty
  let s := { s with power := { s.power with ceil := if running then min ceil old else ceil } }
  if ceil < s.power.est then
    let marked := s.shedClasses.length
    let s := { s with power := { s.power with passes := 0 } }.decide_ ceil
    if s.shedClasses.length = marked then s
    else { s with power := { s.power with graces := s.power.graces ++ [(s.fab.time, old)] } }
  else s.testRestore ceil

/-- TELEMETRY_SAMPLE (R356, R357): a sample of the shelf; while the outlet is hot its ceiling is DCFG.LOSS. -/
def execTelemetrySample (freq volt : Nat) (s : State) : Out :=
  let f := freq % 2 ^ 32
  let v := volt % 2 ^ 16
  let s := s.updCtrl fun c => { c with telemSeq := c.telemSeq + 1, telemFreq := f, telemVolt := v }
  let s := { s with power := { s.power with lastSample := s.fab.time, lastLoss := none } }
  .next (s.takeSample (if s.power.hot then s.host.ctrl.loss else s.host.ctrl.sampleCeil f v))

/-- LOSS_SAMPLE (R357): no sample for 1 ms, and then every 250 µs. -/
def execLossSample (s : State) : Out :=
  let due := match s.power.lastLoss with
    | none => s.power.lastSample + 1000000
    | some t => t + 250000
  if due ≤ s.fab.time then
    .next ({ s with power := { s.power with lastLoss := some s.fab.time } }.takeSample s.host.ctrl.loss)
  else .next s

/-- SHED_STOP (R268, R361): a tile of a shedding gang is held at its barrier's CWAIT, and gang-stop begins; the gang is shed once it is
stopped. A virtual tile that has gone out from its barrier's CWAIT, for which a proxy waits (R329), is not held there (log 85, DESIGN
CHOICE). -/
def execShedStop (part gid : Nat) (s : State) : Out :=
  match s.gang part gid with
  | none => .next s
  | some g =>
    let held := (s.tilesOf part gid).any fun t => match t.ex.cw with
      | some c => decide (c.ctr = g.barrier ∧ g.barrier ≠ 0)
      | none => false
    if g.shedWait && held then .next (s.shedStop part gid) else .next s

/-- Whether 1 ms has passed since a decision (R361). -/
def State.graceOver (s : State) (start : Nat) : Bool := decide (start + 1000000 ≤ s.fab.time)

/-- GRACE_EXPIRY (R361): 1 ms after a decision, tiles of the gangs that it marked as shedding and that are not yet stopped get DUTY 1 from
the next boundary on. -/
def execGraceExpiry (s : State) : Out :=
  if s.power.graces.any fun g => s.graceOver g.1 then
    .next { s with power := { s.power with graces := s.power.graces.filter fun g => !s.graceOver g.1 }
                   gangs := s.gangs.map fun g =>
                     if g.shedding && s.graceOver (s.power.marks.get g.cls).since then { g with shedLate := true } else g }
  else .next s

/-! ## Registers and shutdown -/

/-- PCAP (R355, R378). -/
def execPcap (func : FuncAt) (v : Nat) (s : State) : Out := s.request func.port fun s => .next (s.updPart func.func fun p => p.writePcap v)

/-- PBOOST (R355, R378). -/
def execPboost (func : FuncAt) (v : Nat) (s : State) : Out := s.request func.port fun s => .next (s.updPart func.func fun p => p.writePboost v)

/-- OUTLET_TEMPERATURE_HIGH (20, Power input and cooling; R357): the ceiling is DCFG.LOSS, as from a loss sample. -/
def execOutletTemperatureHigh (s : State) : Out :=
  .next ({ s with power := { s.power with hot := true } }.takeSample s.host.ctrl.loss)

/-- OUTLET_TEMPERATURE_NORMAL: firmware stops taking the ceiling as DCFG.LOSS; the next sample sets it. -/
def execOutletTemperatureNormal (s : State) : Out := .next { s with power := { s.power with hot := false } }

/-- THERMAL_SHUTDOWN (20, Power input and cooling): the module shuts down. -/
def execThermalShutdown (s : State) : Out := .next { s with svc := { s.svc with off := true } }

/-- INPUT_VOLTAGE_FAULT (20, Power input and cooling): the module shuts down. -/
def execInputVoltageFault (s : State) : Out := .next { s with svc := { s.svc with off := true } }

end Sys2Proof.Machine
end

