-- ==== Sys2Proof/Machine/EventFault.lean ====
section
/-! DEFINITION. Scrubs, heartbeats, link failures and repair (R385, R389 to R391). An event that is not due leaves the state as it is. -/

namespace Sys2Proof.Machine

/-! ## Scrub -/

/-- A corrected error in an array of the current tile: event 56 and TCORR (R385, R389). -/
def State.tileCorr (s : State) : State :=
  (s.upd fun t => t.event 56 1).updErr s.tile.pl.phys fun e => { e with corr := min (2 ^ 32 - 1) (e.corr + 1) }

/-- A corrected error of a sync engine or an HBM stack: ATTCORR (R389). -/
def State.attCorr (s : State) (site : Nat) : State := s.updErr site fun e => { e with attCorr := min 0xFFFF (e.attCorr + 1) }

/-- The words of a list with one more. -/
def addWord (l : List Nat) (w : Nat) : List Nat := if l.contains w then l else l ++ [w]

/-- What a scrub of a word of a tile array does: known bad words stay bad, whatever the scrub is said to find. -/
def State.scrubTile (s : State) (known : Bool) (res : ScrubResult) (mark : Tile → Tile) : State :=
  if known then s.tileUnc
  else
    match res with
    | .clean => s
    | .corrected => s.tileCorr
    | .uncorrectable => (s.upd mark).tileUnc

/-- The site of the engine that holds a word of the sync engines (log 22, DESIGN CHOICE), none where none does. -/
def State.syncSite (s : State) (key : Nat) : Option Nat :=
  match s.sync.ctrs.find? fun (c : Counter) => decide (ctrKey c.asid c.id = key) with
  | some c => some (Config.engineSite (s.ctrEngine c.asid c.id))
  | none => (s.sync.lines.find? fun (l : Line) => decide (l.pa / 64 = key / 8)).map fun l => Config.engineSite (s.lineEngine l.asid l.pa)

/-- What a scrub of a word of a sync engine or of HBM does. -/
def State.scrubAtt (s : State) (site : Nat) (known : Bool) (res : ScrubResult) (mark : State → State) : State :=
  if known then s.attUnc site
  else
    match res with
    | .clean => s
    | .corrected => s.attCorr site
    | .uncorrectable => (mark s).attUnc site

/-- A scrub of a word of an array of the current tile. -/
def State.scrubHere (s : State) (arr : ArrayKind) (addr : Nat) (res : ScrubResult) : State :=
  let t := s.tile
  let w := addr / 8
  match arr with
  | .scratchpad => s.scrubTile (t.pad.bad.contains w) res fun t => { t with pad := { t.pad with bad := addWord t.pad.bad w } }
  | .inbox => s.scrubTile (t.inb.bad.contains w) res fun t => { t with inb := { t.inb with bad := addWord t.inb.bad w } }
  | .accumulator => s.scrubTile (t.eng.accBad.contains w) res fun t => { t with eng := { t.eng with accBad := addWord t.eng.accBad w } }
  | .cim =>
    if res = .uncorrectable then s.upd fun t => { t with eng := { t.eng with upsets := addWord t.eng.upsets addr } } else s
  | .registers | .sync | .hbm => s

/-- A scrub of a word of an array of a site that holds no context. -/
def State.scrubIdle (s : State) (site : Nat) (arr : ArrayKind) (addr : Nat) (res : ScrubResult) : State :=
  let e := (site, arr, if arr = .cim then addr else addr / 8)
  if s.svc.arrays.contains e then s.countUnc site
  else
    match res with
    | .clean => s
    | .corrected => s.updErr site fun e => { e with corr := min (2 ^ 32 - 1) (e.corr + 1) }
    | .uncorrectable => { s with svc := { s.svc with arrays := s.svc.arrays ++ [e] } }.countUnc site

/-- The bytes of an array of a tile (R22, R30, R169), those of the inbox with the metadata of its slots; of the cells the K-rows. -/
def arraySize : ArrayKind → Nat
  | .scratchpad => 524288
  | .inbox => 18432
  | .accumulator => 65536
  | .cim => 2048
  | .registers => 1
  | .sync | .hbm => 0

/-- SCRUB (R385, R389, R390; log 35, DEDUCED). An uncorrectable word stays as it is, and a reader reports it; the checksum or a row read
finds a flipped CIM row; a parity mismatch of a register file or table fails the site. -/
def execScrub (arr : ArrayAt) (addr : Nat) (res : ScrubResult) (s : State) : Out :=
  let site := arr.site
  match arr.arr with
  | .sync =>
    match s.syncSite addr with
    | some x => .next (s.scrubAtt x (s.sync.bad.contains addr) res fun s => { s with sync := { s.sync with bad := addWord s.sync.bad addr } })
    | none => .next s
  | .hbm =>
    if addr ≥ 48 * 2 ^ 36 then .next s
    else .next (s.scrubAtt (stackOf addr) (s.mem.bad.contains (addr / 8)) res fun s =>
      { s with mem := { s.mem with bad := addWord s.mem.bad (addr / 8) } })
  | .registers => if isSite site && decide (res = .uncorrectable) then .next (s.siteFail site 1) else .next s
  | .scratchpad | .inbox | .accumulator | .cim =>
    if !isSite site || decide (addr ≥ arraySize arr.arr) then .next s
    else
      match s.onSite site with
      | some t => .next (s.withTile t.id fun s => s.scrubHere arr.arr addr res)
      | none => .next (s.scrubIdle site arr.arr addr res)

/-! ## Hard failures -/

/-- Whether the tile of a site holds a context. -/
def State.occupied (s : State) (site : Nat) : Bool := s.tiles.any fun t => decide (t.id.gid ≠ 0 ∧ t.pl.phys = site) && t.present

/-- HEARTBEAT_PROBE (R390): the third probe in a row without a reply fails the site. -/
def execHeartbeatProbe (site : Nat) (reply : Bool) (s : State) : Out :=
  if !s.occupied site then .next s
  else if reply then .next (s.updErr site fun e => { e with misses := 0 })
  else
    let n := (s.siteErr site).misses + 1
    let s := s.updErr site fun e => { e with misses := n }
    .next (if n ≥ 3 then s.siteFail site 2 else s)

/-- Ports whose attachment router fails go down: their party leaves the device (R390). -/
def State.detachPorts (s : State) (site : Nat) : State :=
  [0, 1].foldl (fun s k => if Config.portSite k = site then s.portDown k else s) s

/-- LINK_CRC_FAILURE (R390): both routers of the link fail. -/
def execLinkCrcFailure (a b : Nat) (s : State) : Out :=
  if [0, 1, 2, 3].any fun out => decide (neighbour a out = some b) then
    .next ((((s.siteFail a 4).detachPorts a).siteFail b 4).detachPorts b)
  else .next s

/-! ## Repair -/

/-- The step of repair. -/
def State.toStep (s : State) (k : RepairStep) : State := { s with svc := { s.svc with repair := { s.svc.repair with step := k } } }

/-- The results that a tile still owes to instructions that have issued: those of the pair in its TAIL cycle, which nothing splits (R78), and
those on their way to registers (R238). -/
def Tile.finishIssued (t : Tile) : Tile :=
  let t := match t.iss.tail with
    | some (d, x) => t.setG d x
    | none => t
  t.iss.writes.foldl (fun t w => t.applyWrite w) t

/-- A tile that no stop can quiesce is treated as stopped at once, and its operations are abandoned (R391, step 1); what has issued to
registers is written, and a CWAIT will execute afresh. -/
def State.abandonTile (s : State) (id : TileId) : State :=
  let own (m : Msg) : Bool := !m.sent && (match m.origin with
    | .op vt _ | .ni vt => decide (m.part = id.part ∧ m.gid = id.gid ∧ vt = id.vt)
    | .port _ => false)
  let s := s.withTile id fun s => (s.dropWaiter s.tile).upd fun t =>
    { t.finishIssued.stopNow with
      ops := { Outstanding.fresh with stamp := t.ops.stamp, epoch := t.ops.epoch, redSeq := t.ops.redSeq }
      iss := { t.iss with writes := [], tail := none, stall := none } }
  { s with fab := { s.fab with flight := s.fab.flight.filter fun m => !own m } }

/-- The contexts at a site. -/
def State.contextsAt (s : State) (site : Nat) : List Tile :=
  s.tiles.filter fun t => decide (t.id.gid ≠ 0 ∧ t.pl.phys = site ∧ t.pl.res ≠ .absent)

/-- Whether every gang that repair stops has come to its stop. -/
def State.repairStopped (s : State) : Bool := s.gangs.all fun g => !g.byRepair || g.stopDone

/-- Whether a flit stands at a router that has failed, or is bound for one: it can go no further (R390). -/
def State.stranded (s : State) (f : Flit) : Bool := !s.routerWorks f.site || !s.routerWorks f.dst

/-- The virtual tile whose operation a packet belongs to, if any. -/
def PacketRef.owner : PacketRef → Option TileId
  | .req t _ | .resp t _ | .data t _ _ _ => some t
  | .msg _ | .pkt _ | .part _ _ | .deny _ _ _ _ => none

/-- What a failed router has stranded is given up (R391, step 1; log 36, DEDUCED): the operations of the tiles whose packets they are; other
packets are taken on by firmware. -/
def State.clearStranded (s : State) : State :=
  let l := s.fab.flits.filter s.stranded
  let s := s.updFlits (s.fab.flits.filter fun f => !s.stranded f)
  (l.filterMap fun f => f.ref.owner).eraseDups.foldl State.abandonTile s

/-- Whether the context of a virtual tile at a site that has failed for a cause can be salvaged (R391, step 2). -/
def Tile.salvageable (t : Tile) (cause : Nat) : Bool := decide (cause = 2 ∨ cause = 3) && !t.lost

/-- A context of a failed site is saved or lost (R391, step 2; log 36, DEDUCED). One that was still being loaded stays in HBM. -/
def State.salvageTile (s : State) (cause : Nat) (t : Tile) : State :=
  if t.pl.res = .swappingIn then s.updTile t.id fun t => { t with pl := { t.pl with res := .absent, faulted := true } }
  else
    let s := s.updTile t.id fun t => { t with pl := { t.pl with res := .swappingOut } }
    if t.salvageable cause then s.withTile t.id State.installProxy
    else
      if cause = 2 ∨ cause = 3 then s.salvageFails t
      else { s with svc := { s.svc with repair := { s.svc.repair with lost := s.svc.repair.lost ++ [t.id] } } }

/-- The contexts of a gang at a failed site become absent by one version change (R323, R391). -/
def State.salvageGang (site cause : Nat) (s : State) (g : Gang) : State :=
  let ts := (s.contextsAt site).filter fun t => decide (t.id.part = g.part ∧ t.id.gid = g.gid)
  let out := ts.filter fun t => decide (t.pl.res ≠ .swappingIn)
  if !g.mayChange || ts.isEmpty then s
  else
    let s := ts.foldl (fun s t => s.salvageTile cause t) s
    if out.isEmpty then s
    else s.beginChange g.part g.gid (out.map fun t => (t.id.vt, none)) (out.map fun t => (t.id.vt, false))

/-- SALVAGE (R391, steps 1 and 2): with every stop complete, the contexts of a failed site are saved or lost, and become absent; before
that, a tile that has failed with its registers, its NI or its router stops at once. -/
def execSalvage (site : Nat) (s : State) : Out :=
  match s.failCause site with
  | none => .next s
  | some cause =>
    if s.svc.repair.step ≠ .stop ∧ s.svc.repair.step ≠ .salvage then .next s
    else if !s.repairStopped then
      let s := if cause = 4 then s.clearStranded else s
      .next (if cause = 3 then s else ((s.contextsAt site).filter fun t => !s.quiescedAt t.id || t.pl.stopDue).foldl (fun s t => s.abandonTile t.id) s)
    else if s.svc.repair.sites.any fun p => !(s.contextsAt p.1).isEmpty then
      .next ((s.gangs.foldl (State.salvageGang site cause) s).toStep .salvage)
    else .next (s.toStep .record)

/-- The signed copies of a repair list (R391). -/
def signedList (l : List (Nat × Nat)) : ListCopy :=
  let sig := Config.identitySign (Config.listBytes l)
  ⟨l, sig.1, sig.2⟩

/-- REPAIR_RECORD (R391, step 3): the repair list takes the failed sites, is signed with both identity keys and written to copies A and B. -/
def execRepairRecord (s : State) : Out :=
  if s.svc.repair.step = .record then
    let l := s.svc.repairs ++ s.svc.repair.sites.filter fun p => !s.svc.repairs.contains p
    .next ({ s with svc := { s.svc with repairs := l }
                    host := { s.host with flash := { s.host.flash with lists := Vector.replicate 2 (signedList l) } } }.toStep .rebuild)
  else .next s

/-- The fields whose engine hung on a router that has failed. -/
def State.lostFields (s : State) : List Nat :=
  (List.range 56).filter fun f => s.svc.failed.any fun p => decide (p.2 = 4 ∧ p.1 = Config.engineSite f)

/-- HOMETAB as the rebuild computes it: entries of a lost engine move to fields whose engine works (R344, R391, step 4). Counters and
lines are kept by identity, so they move with it. -/
def PartRec.rehome (g : PartRec) (gen part : Nat) (lost : List Nat) : PartRec :=
  let left := (List.range 56).filter fun f => !lost.contains f
  { g with hometab := Memory.write g.hometab 0 ((List.range 4096).map fun k =>
    let f := Memory.byte g.hometab k
    if lost.contains f.toNat then BitVec.ofNat 8 (left.getD (Config.rebuiltHome gen part k % left.length) 0) else f) }

/-- The nearest working tile of no partition to a site (R391), the lower identifier on a tie (log 47, DESIGN CHOICE). -/
def State.spareFor (s : State) (site : Nat) : Option Nat :=
  ((List.range 57344).filter fun x => decide (s.poolOf x ≥ 64) && s.siteWorks x).foldl (fun best x => match best with
    | none => some x
    | some b => if manhattan site x < manhattan site b then some x else some b) none

/-- A failed site leaves its partition's pool, and the nearest spare tile takes its place (R391, step 4). -/
def State.replaceSite (s : State) (site : Nat) : State :=
  let part := s.poolOf site
  if part ≥ 64 then s
  else
    let pools := tset s.svc.pools site 64
    match s.spareFor site with
    | none => { s with svc := { s.svc with pools := pools } }
    | some x => { s with svc := { s.svc with pools := tset pools x part } }

/-- The sites whose routers have failed since the image was made (R390). -/
def State.lostRouters (s : State) : List Nat := (s.svc.failed.filter fun p => decide (p.2 = 4)).map Prod.fst

/-- REPAIR_REBUILD (R391, step 4): pools, candidate tables, distances and the ring of the next generation are loaded, without the routers
that have failed; HOMETAB leaves engines that have failed, and the engines look at their tables for what has moved to them (R218). -/
def execRepairRebuild (s : State) : Out :=
  if s.svc.repair.step = .rebuild then
    let gen := s.svc.gen + 1
    let lost := s.lostFields
    let s : State := { s with svc := { s.svc with gen := gen }, fab := { s.fab with mapped := s.lostRouters } }
    let s := (s.svc.repair.sites.map Prod.fst).foldl State.replaceSite s
    let s := if lost.isEmpty then s
      else (List.range 64).foldl (fun s p => (s.updPart p fun q => { q with gov := q.gov.rehome gen p lost }).denyEvery p) s
    .next (s.toStep .resume)
  else .next s

/-- A gang with a lost context is removed, with its fault record (R391, step 5). -/
def State.loseContext (s : State) (id : TileId) : State :=
  match s.findTile id with
  | some t => s.loseGang id.part id.gid t.pl.phys ((s.failCause t.pl.phys).getD Config.saveCause)
  | none => s

/-- REPAIR_RESUME (R391, step 5): gangs with a lost context go, and every other stopped gang resumes. -/
def execRepairResume (s : State) : Out :=
  if s.svc.repair.step = .resume then
    let s := s.svc.repair.lost.foldl State.loseContext s
    let gs := s.gangs.filter fun g => g.byRepair
    let s := gs.foldl (fun s g => s.gangFree g.part g.gid fun g => { g with byRepair := false }) s
    .next { s with svc := { s.svc with repair := ⟨.idle, [], []⟩ } }
  else .next s

end Sys2Proof.Machine
end

