-- ==== Sys2Proof/Machine/Gang.lean ====
section
/-! DEFINITION. Gang control (R236): GSTOP and GRESUME pass a request to firmware, which acts at once. -/

namespace Sys2Proof.Machine

/-- The checks of GSTOP and GRESUME (R219, R236): PRIV at U, then THROTTLE of a named counter. -/
def State.checkGang (s : State) (i : Instr) (id : W32) : Except Stop Unit := do
  failIf (!s.tile.ex.prv) (.cause 0x03 (instrWord i))
  failIf (decide (id ≠ 0) && (s.throttle 0 id 10).toOption.isNone) (.cause 0x0A (id.zeroExtend 64) 10)

/-- Firmware takes a GSTOP (R236, R334): the counter gains 1 when the stop is complete, that of a gang which is stopped already too; at once
where no gang is named. -/
def State.takeGstop (s : State) (part gid asid : Nat) (id : W32) : State :=
  match s.gang part gid with
  | none => State.gangSignal part s ⟨asid, id, s.tile.id.gid⟩
  | some _ =>
    (s.gangStop part gid fun g => { g with byGstop := true }).updGang part gid fun g =>
      { g with stopCtrs := g.stopCtrs ++ [⟨asid, id, s.tile.id.gid⟩] }

/-- Whether the virtual tiles of a gang are able to run (R236): nothing stops it, and no gang-stop is in progress or complete. -/
def Gang.able (g : Gang) : Bool := !g.stopping && !g.stopWork && !g.stopDone

/-- Whether GSTOP has no part in what stops a gang, nor shedding, nor a GRESUME that waits for the end of a gang-stop (R236, R361): a gang
that repair or firmware alone has stopped. -/
def Gang.otherwise (g : Gang) : Bool := !g.byGstop && !g.byShed && g.resumeCtrs.isEmpty

/-- Firmware takes a GRESUME (R236, R361): GSTOP stops the gang no longer, and the counter gains 1 when its virtual tiles are able to
run, at once where GSTOP did not stop it. A gang-stop that is not yet complete runs to its end first (log 58, DESIGN CHOICE). -/
def State.takeGresume (s : State) (part gid asid : Nat) (id : W32) : State :=
  match s.gang part gid with
  | none => State.gangSignal part s ⟨asid, id, s.tile.id.gid⟩
  | some g =>
    if g.able || g.otherwise then State.gangSignal part s ⟨asid, id, s.tile.id.gid⟩
    else s.gangFree part gid fun g => { g with byGstop := false, resumeCtrs := g.resumeCtrs ++ [⟨asid, id, s.tile.id.gid⟩] }

/-- GSTOP (R236). -/
def execGstop (a b : GReg) (s : State) : Out :=
  issue { regs := [.g a, .g b], reads := [.g a, .g b] } (fun s => do
    let t := s.tile
    s.checkGang (.gstop a b) (ctrId (t.g b))
    .ok ((s.upd fun t => t.issued [.g a, .g b]).takeGstop t.id.part (bitsOf (t.g a).toNat 15 0) t.gang.asid (ctrId (t.g b)))) s

/-- GRESUME (R236). -/
def execGresume (a b : GReg) (s : State) : Out :=
  issue { regs := [.g a, .g b], reads := [.g a, .g b] } (fun s => do
    let t := s.tile
    s.checkGang (.gresume a b) (ctrId (t.g b))
    .ok ((s.upd fun t => t.issued [.g a, .g b]).takeGresume t.id.part (bitsOf (t.g a).toNat 15 0) t.gang.asid (ctrId (t.g b)))) s

end Sys2Proof.Machine
end

