-- ==== Sys2Proof/Machine/HostRead.lean ====
section
/-! DEFINITION. What a host master reads at an 8-byte place of a function's BAR0 (R354, R372 to R375) and of the control window (R312,
R321, R356, R376 to R381, R389). A read changes nothing but SEMA (execSemaRead). -/

namespace Sys2Proof.Machine

/-- A bit as a number. -/
def bit (b : Bool) : Nat := if b then 1 else 0

/-- The number of a boot state in CSTAT (R379). -/
def BootState.code : BootState → Nat
  | .rom => 0
  | .verify => 1
  | .selftest => 2
  | .ready => 3
  | .halted => 4

/-- CSTAT (R379). -/
def State.cstat (s : State) : Word :=
  let c := s.host.ctrl
  BitVec.ofNat 64 (c.boot.code + 16 * (c.map % 4) + 256 * bit (s.host.ports.get 0).frozen + 512 * bit (s.host.ports.get 1).frozen +
    1024 * bit c.owner.isSome + 2048 * (c.owner.getD 0).val + 65536 * (c.halt % 16))

/-- CMDSTAT (R381). -/
def Control.cmdstat (c : Control) : Word :=
  BitVec.ofNat 64 (if c.cmdRun then 0xFFFF else c.cmdStatus % 65536 + 2 ^ 32 * (c.cmdResult % 65536))

/-- TELEM (R356). -/
def Control.telem (c : Control) : Word := BitVec.ofNat 64 (c.telemFreq % 2 ^ 32 + 2 ^ 32 * (c.telemVolt % 65536) + 2 ^ 48 * c.telemSeq.toNat)

/-- A point of the curve as its register shows it (R356). -/
def DPoint.word (p : DPoint) : Word := BitVec.ofNat 64 (p.freq % 2 ^ 32 + 2 ^ 32 * (p.volt % 65536) + 2 ^ 48 * (p.ceil % 512))

/-- The telemetry block (R356, R362); log 32, PRESUMED for the offsets. -/
def Control.readCurve (c : Control) (off : Nat) : Word :=
  if off = 0 then c.telem
  else if off < 0x48 ∧ off % 8 = 0 then (c.dpoints.get (Fin.ofNat 8 (off / 8 - 1))).word
  else if off = 0x48 then BitVec.ofNat 64 (2 ^ 32 * (c.loss % 512) + c.hyst % 512)
  else if off = 0x50 then BitVec.ofNat 64 c.minDraw
  else if off = 0x58 then BitVec.ofNat 64 c.overdraw
  else 0

/-- TERR of a site (R389). -/
def SiteErr.word (e : SiteErr) : Word :=
  BitVec.ofNat 64 (e.corr % 2 ^ 32 + 2 ^ 32 * (e.unc % 256) + 2 ^ 40 * (e.attUnc % 256) + 2 ^ 48 * (e.attCorr % 65536))

/-- The registers of a site's router and TERR (R312, R389). -/
def State.readRouter (s : State) (site off : Nat) : Word :=
  let r := s.router site
  match off with
  | 0x00 => BitVec.ofNat 64 (bit r.suspect + 2 * bit (decide (s.fab.token = site)) + 4 * bit r.failed)
  | 0x08 => BitVec.ofNat 64 s.fab.tdet
  | 0x10 => r.episodes
  | 0x18 => r.gutter
  | 0x20 => r.xfield
  | 0x28 => r.congest
  | 0x30 => r.overrun
  | 0x38 => (s.siteErr site).word
  | _ => 0

/-- The placement entry of a virtual tile (R321): the physical tile that holds it, or the last one that did. -/
def Tile.placement (t : Tile) : Word :=
  BitVec.ofNat 64 (bit t.present + 2 * bit (t.pl.pinned && t.present) + 4 * ((if t.present then t.pl.phys else t.pl.last) % 65536))

/-- An entry of the selected placement table (R321, R381). -/
def State.readPlacement (s : State) (n : Nat) : Word :=
  match s.host.ctrl.selected.bind fun p => s.gang p.1 p.2 with
  | none => 0
  | some g =>
    if n < g.rows * g.cols then
      (match s.findTile ⟨g.part, g.gid, g.nthTile n⟩ with
       | some t => t.placement
       | none => 0)
    else 0

/-- An ASID entry as the window shows it. -/
def State.readAsid (s : State) (a off : Nat) : Word :=
  match s.asid a with
  | some e => Config.asidWord [e.part, e.root, e.svc, e.reqctr.toNat, e.reqhead.toNat, e.fltctr.toNat] off
  | none => Config.asidWord [] off

/-- A read of 8 bytes in the control window (R376). -/
def State.readControl (s : State) (off : Nat) : Word :=
  let c := s.host.ctrl
  if off = 0 then s.cstat
  else if 0x10000 ≤ off ∧ off < 0x10040 then BitVec.ofNat 64 (ofBytes ((c.cmdbuf.toList.drop (off - 0x10000)).take 8))
  else if off = 0x10048 then c.cmdstat
  else if 0x20000 ≤ off ∧ off < 0x100000 then c.readCurve (off - 0x20000)
  else if 0x100000 ≤ off ∧ off < 0x140000 then
    let p := s.part ((off - 0x100000) / 4096)
    if off % 4096 = 0x3F0 then BitVec.ofNat 64 p.pstatus
    else if off % 4096 = 0x3F8 then 0
    else BitVec.ofNat 64 (Memory.nat p.staging (off % 4096) 8)
  else if 0x200000 ≤ off ∧ off < 0x240000 then s.readAsid ((off - 0x200000) / 64) (off % 64)
  else if siteOffset off then s.readRouter ((off - 0x1000000) / 64) (off % 64)
  else if 0x2000000 ≤ off then s.readPlacement ((off - 0x2000000) / 8)
  else 0

/-- PSTAT of a partition (R354). -/
def State.pstat (s : State) (p : Part) : Word :=
  let shed := ((List.finRange 8).map fun c => if (s.power.marks.get c).marked then 2 ^ c.val else 0).foldl (· + ·) 0
  BitVec.ofNat 64 (2 ^ 32 * (p.draw % 512) + 2 ^ 24 * shed + 2 ^ 8 * (s.power.ceil % 512))

/-- A read of 8 bytes in BAR0 of a function by a master (R354, R372 to R375). -/
def State.readBar0 (s : State) (m func off : Nat) : Word :=
  let p := s.part func
  if 0x200 ≤ off ∧ off < 0x280 ∧ off % 8 = 0 then
    let n := (off - 0x200) / 8
    if n / 8 ≠ m % 2 then 0 else p.mbtgt.get (Fin.ofNat 16 n)
  else if 0x1000 ≤ off ∧ off < 0x2000 then BitVec.ofNat 64 (Memory.nat p.ring (off - 0x1000) 8)
  else if 0x2000 ≤ off ∧ off < 0x2010 then BitVec.ofNat 64 (Memory.nat p.msixTable (off - 0x2000) 8)
  else
    match off with
    | 0x40 => p.seed
    | 0x48 => p.comphead
    | 0x50 => p.compack
    | 0x58 => p.compdrop
    | 0x60 => p.mberr
    | 0x100 => BitVec.ofNat 64 p.pcap
    | 0x108 => BitVec.ofNat 64 p.pboost
    | 0x110 => BitVec.ofNat 64 (bit p.pshed)
    | 0x118 => BitVec.ofNat 64 (p.boostCnt * 65536 + p.capCnt)
    | 0x120 => s.pstat p
    | 0x2800 => Config.pendingBits func p.msixRaised
    | _ => 0

/-- What a read by a master returns, none for an error response (R378, R382): until READY, and while the master is frozen, it reads CSTAT
alone. -/
def State.hostRead (s : State) (m : Nat) (a : WinAddr) : Option Word :=
  if !(s.port m).up then none
  else
    match a with
    | .control 0 => some s.cstat
    | .control 8 => if s.host.ctrl.boot ≠ .ready ∨ (s.port m).frozen then none else some (BitVec.ofNat 64 (match s.host.ctrl.owner with
        | none => 0
        | some o => semaBits o (Fin.ofNat 2 m)))
    | .control off => if s.host.ctrl.boot ≠ .ready ∨ (s.port m).frozen then none else some (s.readControl off)
    | .bar0 func off => if s.host.ctrl.boot ≠ .ready ∨ (s.port m).frozen then none else some (s.readBar0 m func off)

end Sys2Proof.Machine
end

