-- ==== Sys2Proof/Machine/Scalar.lean ====
section
/-! DEFINITION. The scalar register and immediate instructions (R95 to R100). Each reads its registers at issue (R93) and
writes gd with the latency of its class (R94, R239). -/

namespace Sys2Proof.Machine

/-! ## Results -/

/-- Sign extension of the low 32 bits (R95). -/
def sext32 (x : Word) : Word := (x.truncate 32 : W32).signExtend 64

/-- The high half of the signed product (R95). -/
def mulHigh (a b : Word) : Word := BitVec.ofInt 64 (a.toInt * b.toInt / 2 ^ 64)

/-- The high half of the natural product (R95). -/
def mulHighN (a b : Word) : Word := w64 (a.toNat * b.toNat / 2 ^ 64)

/-- DIV (R96). -/
def divS (a b : Word) : Word :=
  if b = 0 then BitVec.allOnes 64 else BitVec.ofInt 64 (Int.tdiv a.toInt b.toInt)

/-- REM (R96). -/
def remS (a b : Word) : Word := if b = 0 then a else BitVec.ofInt 64 (Int.tmod a.toInt b.toInt)

/-- DIVN (R96). -/
def divN (a b : Word) : Word := if b = 0 then BitVec.allOnes 64 else w64 (a.toNat / b.toNat)

/-- REMN (R96). -/
def remN (a b : Word) : Word := if b = 0 then a else w64 (a.toNat % b.toNat)

/-- SHL by a natural amount (R97). -/
def shlW (a : Word) (n : Nat) : Word := if n ≥ 64 then 0 else a <<< n

/-- SHR by a natural amount (R97). -/
def shrW (a : Word) (n : Nat) : Word := if n ≥ 64 then 0 else a >>> n

/-- SRA by a natural amount (R97). -/
def sraW (a : Word) (n : Nat) : Word := if n ≥ 64 then (if a.msb then BitVec.allOnes 64 else 0) else a.sshiftRight n

/-- ROTR by b[5:0] (R97). -/
def rotW (a b : Word) : Word :=
  let k := b.toNat % 64
  (a >>> k) ||| (a <<< (64 - k))

/-- A truth value as a result. -/
def boolW (b : Bool) : Word := if b then 1 else 0

/-- The number of bits from bit n − 1 downward that are 0, before the first 1 (R95). -/
def clzFrom (a : Word) : Nat → Nat
  | 0 => 0
  | n + 1 => if a.getLsbD n then 0 else clzFrom a n + 1

/-- The number of the n bits from bit i upward that are 0, before the first 1 (R95). -/
def ctzFrom (a : Word) (i : Nat) : Nat → Nat
  | 0 => 0
  | n + 1 => if a.getLsbD i then 0 else ctzFrom a (i + 1) n + 1

/-- The number of ones among the low n bits. -/
def popcW (a : Word) : Nat → Nat
  | 0 => 0
  | n + 1 => popcW a n + (a.getLsbD n).toNat

/-- BREV (R95): bit i of the result is bit 63 − i. -/
def brevW (a : Word) : Word := w64 ((List.range 64).foldl (fun n i => 2 * n + (a.getLsbD i).toNat) 0)

/-- BSWAP (R95): the bytes in reverse order. -/
def bswapW (a : Word) : Word := w64 (ofBytes (toBytes a.toNat 8).reverse)

/-- BEXT (R99). -/
def bextW (a : Word) (len pos : Nat) : Word := w64 (a.toNat / 2 ^ pos % 2 ^ len)

/-- BINS (R99): the other bits keep their values. -/
def binsW (d a : Word) (len pos : Nat) : Word :=
  let m : Word := w64 ((2 ^ len - 1) * 2 ^ pos)
  (d &&& ~~~m) ||| ((a <<< pos) &&& m)

/-! ## Issue of a scalar instruction -/

/-- A scalar instruction that reads some registers and writes gd after a latency, with a unit and its occupancy (R239). -/
def scalarOp (d : GReg) (reads : List RegName) (u : UnitKind) (l : Nat) (f : Tile → Word) : State → Out :=
  issue { regs := .g d :: reads, reads := reads, unit := u } fun s =>
    .ok (s.upd fun t => ((t.occupy u l).result l (.g d (f t))).issued reads)

/-- A binary instruction of class ALU. -/
def alu2 (d a b : GReg) (f : Word → Word → Word) : State → Out :=
  scalarOp d [.g a, .g b] .other 1 fun t => f (t.g a) (t.g b)

/-- A unary or immediate instruction of class ALU. -/
def alu1 (d a : GReg) (f : Word → Word) : State → Out := scalarOp d [.g a] .other 1 fun t => f (t.g a)

/-- An instruction of class MULT. -/
def mult2 (d a b : GReg) (f : Word → Word → Word) : State → Out :=
  scalarOp d [.g a, .g b] .other 3 fun t => f (t.g a) (t.g b)

/-- An instruction of class DIVIDE. -/
def divide2 (d a b : GReg) (f : Word → Word → Word) : State → Out :=
  scalarOp d [.g a, .g b] .divider 24 fun t => f (t.g a) (t.g b)

/-- A long-immediate pair (R77, R100): the HEAD issues now, and gd is written in the cycle of the TAIL (R242). Nothing is
taken between the two words (R78). -/
def pairOp (d a : GReg) (f : Word → Word) : State → Out :=
  issue { regs := [.g d, .g a], reads := [.g a] } fun s =>
    .ok (s.upd fun t =>
      let r := f (t.g a)
      let t := t.issuedWords 2 [.g a]
      { t with iss := { t.iss with tail := some (d, r) } })

/-! ## Meanings -/

/-- ADD (R95). -/
def execAdd (d a b : GReg) (s : State) : Out := alu2 d a b ((· + ·)) s

/-- SUB (R95). -/
def execSub (d a b : GReg) (s : State) : Out := alu2 d a b ((· - ·)) s

/-- ADDW (R95). -/
def execAddw (d a b : GReg) (s : State) : Out := alu2 d a b (fun a b => sext32 (a + b)) s

/-- SUBW (R95). -/
def execSubw (d a b : GReg) (s : State) : Out := alu2 d a b (fun a b => sext32 (a - b)) s

/-- MUL (R95). -/
def execMul (d a b : GReg) (s : State) : Out := mult2 d a b (· * ·) s

/-- MULH (R95). -/
def execMulh (d a b : GReg) (s : State) : Out := mult2 d a b mulHigh s

/-- MULHN (R95). -/
def execMulhn (d a b : GReg) (s : State) : Out := mult2 d a b mulHighN s

/-- DIV (R96). -/
def execDiv (d a b : GReg) (s : State) : Out := divide2 d a b divS s

/-- DIVN (R96). -/
def execDivn (d a b : GReg) (s : State) : Out := divide2 d a b divN s

/-- REM (R96). -/
def execRem (d a b : GReg) (s : State) : Out := divide2 d a b remS s

/-- REMN (R96). -/
def execRemn (d a b : GReg) (s : State) : Out := divide2 d a b remN s

/-- LEA (R95): a + b × 2^c. -/
def execLea (d a b : GReg) (c : Fin 32) (s : State) : Out := alu2 d a b (fun x y => x + y <<< c.val) s

/-- AND (R95). -/
def execAnd (d a b : GReg) (s : State) : Out := alu2 d a b ((· &&& ·)) s

/-- OR (R95). -/
def execOr (d a b : GReg) (s : State) : Out := alu2 d a b ((· ||| ·)) s

/-- XOR (R95). -/
def execXor (d a b : GReg) (s : State) : Out := alu2 d a b ((· ^^^ ·)) s

/-- ANDN (R95). -/
def execAndn (d a b : GReg) (s : State) : Out := alu2 d a b (fun a b => a &&& ~~~b) s

/-- ORN (R95). -/
def execOrn (d a b : GReg) (s : State) : Out := alu2 d a b (fun a b => a ||| ~~~b) s

/-- SHL (R97). -/
def execShl (d a b : GReg) (s : State) : Out := alu2 d a b (fun a b => shlW a b.toNat) s

/-- SHR (R97). -/
def execShr (d a b : GReg) (s : State) : Out := alu2 d a b (fun a b => shrW a b.toNat) s

/-- SRA (R97). -/
def execSra (d a b : GReg) (s : State) : Out := alu2 d a b (fun a b => sraW a b.toNat) s

/-- ROTR (R97). -/
def execRotr (d a b : GReg) (s : State) : Out := alu2 d a b (rotW) s

/-- MIN (R95). -/
def execMin (d a b : GReg) (s : State) : Out := alu2 d a b (fun a b => if BitVec.sle a b then a else b) s

/-- MAX (R95). -/
def execMax (d a b : GReg) (s : State) : Out := alu2 d a b (fun a b => if BitVec.sle b a then a else b) s

/-- MINN (R95). -/
def execMinn (d a b : GReg) (s : State) : Out := alu2 d a b (fun a b => if a ≤ b then a else b) s

/-- MAXN (R95). -/
def execMaxn (d a b : GReg) (s : State) : Out := alu2 d a b (fun a b => if b ≤ a then a else b) s

/-- SEQ (R95). -/
def execSeq (d a b : GReg) (s : State) : Out := alu2 d a b (fun a b => boolW (a == b)) s

/-- SNE (R95). -/
def execSne (d a b : GReg) (s : State) : Out := alu2 d a b (fun a b => boolW (a != b)) s

/-- SLT (R95). -/
def execSlt (d a b : GReg) (s : State) : Out := alu2 d a b (fun a b => boolW (BitVec.slt a b)) s

/-- SLTN (R95). -/
def execSltn (d a b : GReg) (s : State) : Out := alu2 d a b (fun a b => boolW (BitVec.ult a b)) s

/-- SLE (R95). -/
def execSle (d a b : GReg) (s : State) : Out := alu2 d a b (fun a b => boolW (BitVec.sle a b)) s

/-- SLEN (R95). -/
def execSlen (d a b : GReg) (s : State) : Out := alu2 d a b (fun a b => boolW (BitVec.ule a b)) s

/-- CSEL (R95): ga if gc is not zero, else gb. -/
def execCsel (d a b c : GReg) (s : State) : Out :=
  scalarOp d [.g a, .g b, .g c] .other 1 (fun t => if t.g c ≠ 0 then t.g a else t.g b) s

/-- CLZ (R95). -/
def execClz (d a : GReg) (s : State) : Out := alu1 d a (fun a => w64 (clzFrom a 64)) s

/-- CTZ (R95). -/
def execCtz (d a : GReg) (s : State) : Out := alu1 d a (fun a => w64 (ctzFrom a 0 64)) s

/-- POPC (R95). -/
def execPopc (d a : GReg) (s : State) : Out := alu1 d a (fun a => w64 (popcW a 64)) s

/-- BREV (R95). -/
def execBrev (d a : GReg) (s : State) : Out := alu1 d a (fun a => brevW a) s

/-- BSWAP (R95). -/
def execBswap (d a : GReg) (s : State) : Out := alu1 d a (fun a => bswapW a) s

/-- ADDI (R98). -/
def execAddi (d a : GReg) (imm : BitVec 16) (s : State) : Out := alu1 d a (fun a => a + imm.signExtend 64) s

/-- ANDI (R98). -/
def execAndi (d a : GReg) (imm : BitVec 16) (s : State) : Out := alu1 d a (fun a => a &&& imm.signExtend 64) s

/-- ORI (R98). -/
def execOri (d a : GReg) (imm : BitVec 16) (s : State) : Out := alu1 d a (fun a => a ||| imm.zeroExtend 64) s

/-- XORI (R98). -/
def execXori (d a : GReg) (imm : BitVec 16) (s : State) : Out := alu1 d a (fun a => a ^^^ imm.zeroExtend 64) s

/-- SLTI (R98). -/
def execSlti (d a : GReg) (imm : BitVec 16) (s : State) : Out := alu1 d a (fun a => boolW (BitVec.slt a (imm.signExtend 64))) s

/-- SLTNI (R98). -/
def execSltni (d a : GReg) (imm : BitVec 16) (s : State) : Out := alu1 d a (fun a => boolW (BitVec.ult a (imm.signExtend 64))) s

/-- SHLI (R98). -/
def execShli (d a : GReg) (n : Fin 64) (s : State) : Out := alu1 d a (fun a => shlW a n.val) s

/-- SHRI (R98). -/
def execShri (d a : GReg) (n : Fin 64) (s : State) : Out := alu1 d a (fun a => shrW a n.val) s

/-- SRAI (R98). -/
def execSrai (d a : GReg) (n : Fin 64) (s : State) : Out := alu1 d a (fun a => sraW a n.val) s

/-- MOVHI (R98): SignExtend(imm16, 64) × 2^16. -/
def execMovhi (d : GReg) (imm : BitVec 16) (s : State) : Out :=
  scalarOp d [] .other 1 (fun _ => imm.signExtend 64 <<< 16) s

/-- BEXT (R99). -/
def execBext (d a : GReg) (len1 pos : Fin 64) (s : State) : Out := alu1 d a (fun a => bextW a (len1.val + 1) pos.val) s

/-- BINS (R99): gd is a source as well. -/
def execBins (d a : GReg) (len1 pos : Fin 64) (s : State) : Out :=
  scalarOp d [.g a, .g d] .other 1 (fun t => binsW (t.g d) (t.g a) (len1.val + 1) pos.val) s

/-- ADDL (R77, R100). -/
def execAddl (d a : GReg) (imm : BitVec 36) (s : State) : Out := pairOp d a (fun a => a + imm.signExtend 64) s

/-- CATL (R77, R100): ga × 2^28 + imm36[27:0]. -/
def execCatl (d a : GReg) (imm : BitVec 36) (s : State) : Out :=
  pairOp d a (fun a => a <<< 28 + (imm.truncate 28 : BitVec 28).zeroExtend 64) s

end Sys2Proof.Machine
end

