-- ==== Sys2Proof/Machine/VectorOps.lean ====
section
/-! DEFINITION. What the vector instructions share: issue with their class (R131, R240), enabled lanes and flags (R128, R129,
R48), reading lanes as values (R126), and the generator of random words (R148). -/

namespace Sys2Proof.Machine

/-- A latency class of R131 with its numbers of R240: unit, result latency, occupancy, and the FPLANES weight of a lane
(event 34). -/
structure VClass where
  unit : UnitKind
  lat : Nat
  occ : Nat
  fp : Nat
deriving DecidableEq, Repr, Inhabited

/-- VINT (R240). -/
def vint : VClass := ⟨.vpipe, 2, 1, 0⟩
/-- VFP (R240). -/
def vfp : VClass := ⟨.vpipe, 4, 1, 1⟩
/-- VFP of a fused instruction, whose lanes count 2 (R252). -/
def vfused : VClass := ⟨.vpipe, 4, 1, 2⟩
/-- VDIVSQ (R240). -/
def vdivsq : VClass := ⟨.vspecial, 14, 8, 1⟩
/-- VAPPROX (R240). -/
def vapprox : VClass := ⟨.vspecial, 8, 2, 1⟩
/-- VRED (R240). -/
def vred : VClass := ⟨.vpipe, 10, 2, 0⟩
/-- VBLOCK (R240). -/
def vblock : VClass := ⟨.vpipe, 6, 2, 0⟩

/-- The number of lanes in a mask. -/
def laneCount (m : Mask) : Nat := (List.range 16).countP fun i => m.getLsbD i

/-- The counts and the occupancy of a vector or mask instruction at issue (R252): events 34 and 35. -/
def Tile.vecIssue (t : Tile) (c : VClass) (en : Mask) (reads : List RegName) : Tile :=
  (((t.event 35 1).event 34 (c.fp * laneCount en)).occupy c.unit c.occ).issued reads

/-- A vector result for the enabled lanes; with no lane enabled nothing is written (R129). -/
def Tile.putV (t : Tile) (l : Nat) (d : VReg) (en : Mask) (x : VVal) (flags : Option FFlags) : Tile :=
  if en = 0 then t else t.result l (.v d en x) flags

/-- The flags of the enabled lanes together (R48, R128). -/
def lanesFlags (en : Mask) (f : Fin 16 → FFlags) : FFlags :=
  (List.finRange 16).foldl (fun x i => if en.getLsbD i.val then x ||| f i else x) 0

/-- A vector or mask instruction: what it needs (R237) and its effect. dst lists destinations, reads the sources. -/
def vecOp (c : VClass) (dst reads : List RegName) (body : Tile → Tile) : State → Out :=
  issue { regs := dst ++ reads, reads := reads, unit := c.unit } fun s => .ok (s.upd body)

/-- A lane-by-lane instruction under a governing mask that may set flags (R128). -/
def laneOpF (c : VClass) (d : VReg) (k : MReg) (reads : List RegName) (f : Tile → Fin 16 → Rounded) : State → Out :=
  vecOp c [.v d] (.m k :: reads) fun t =>
    let en := t.enabled k
    let r := Vector.ofFn fun i : Fin 16 => if en.getLsbD i.val then f t i else ⟨0, 0⟩
    (t.vecIssue c en (.m k :: reads)).putV c.lat d en (lanesOf fun i => BitVec.ofNat 32 (r.get i).bits)
      (some (lanesFlags en fun i => (r.get i).flags))

/-- A lane-by-lane instruction under a governing mask that sets no flag. -/
def laneOp (c : VClass) (d : VReg) (k : MReg) (reads : List RegName) (f : Tile → Fin 16 → W32) : State → Out :=
  vecOp c [.v d] (.m k :: reads) fun t =>
    let en := t.enabled k
    (t.vecIssue c en (.m k :: reads)).putV c.lat d en (lanesOf (f t)) none

/-- A compare into a mask: the bits of the enabled lanes are written, the others keep their values (R128, R141). -/
def cmpOp (c : VClass) (d : MReg) (a b : VReg) (k : MReg) (fl : Bool) (f : W32 → W32 → Bool × FFlags) : State → Out :=
  vecOp c [.m d] [.m k, .v a, .v b] fun t =>
    let en := t.enabled k
    let bits := maskOf fun i => (f ((t.v a).get i) ((t.v b).get i)).1
    let flags := lanesFlags en fun i => (f ((t.v a).get i) ((t.v b).get i)).2
    let x := (t.m d &&& ~~~en) ||| (bits &&& en)
    let t := t.vecIssue c en [.m k, .v a, .v b]
    if en = 0 then t else t.result c.lat (.m d x) (if fl then some flags else none)

/-- A lane read as FP32. -/
def f32 (x : W32) : FVal := fp32.decode x.toNat

/-! ## The generator -/

/-- Rotl32 (R148). -/
def rotl32 (x : W32) (n : Nat) : W32 := x <<< n ||| x >>> (32 - n)

/-- One round of the generator (R148). -/
def rngRound (x : W32 × W32 × W32 × W32) : W32 × W32 × W32 × W32 :=
  let (x0, x1, x2, x3) := x
  let x0 := x0 + x1
  let x3 := rotl32 (x3 ^^^ x0) 16
  let x2 := x2 + x3
  let x1 := rotl32 (x1 ^^^ x2) 12
  let x0 := x0 + x1
  let x3 := rotl32 (x3 ^^^ x0) 8
  let x2 := x2 + x3
  let x1 := rotl32 (x1 ^^^ x2) 7
  (x0, x1, x2, x3)

/-- The rounds of the generator, n of them. -/
def rngRounds : Nat → W32 × W32 × W32 × W32 → W32 × W32 × W32 × W32
  | 0, x => x
  | n + 1, x => rngRounds n (rngRound x)

/-- W[i] of G(GSEED, VTILE, c) (R148). -/
def rngWord (gseed : Word) (vtile : Nat) (c : Word) (i : Nat) : W32 :=
  let k0 : W32 := gseed.truncate 32
  let k1 : W32 := (gseed >>> 32).truncate 32
  let s0 : W32 := c.truncate 32 ^^^ k0
  let x1 : W32 := (c >>> 32).truncate 32 ^^^ k1
  let x2 : W32 := BitVec.ofNat 32 (vtile % 2 ^ 24) ^^^ BitVec.ofNat 32 (i * 2 ^ 24)
  let r := rngRounds 10 (s0, x1, x2, 0x3C6EF372)
  (r.1 + s0 + k1) ^^^ r.2.2.1

/-- W[i] of the current draw of a tile (R53, R149). -/
def Tile.rng (t : Tile) (i : Nat) : W32 := rngWord t.gang.gseed t.id.vt t.regs.draws i

/-- The draw counter advances by 1 (R53, R149), which happens where VL is at least 1. -/
def Tile.drawn (t : Tile) : Tile :=
  if t.regs.vl.val ≥ 1 then { t with regs := { t.regs with draws := t.regs.draws + 1 } } else t

/-- A conversion instruction draws where FMODE selects RSTOCH (R53). -/
def Tile.drawnConv (t : Tile) : Tile := if t.regs.fmode = 4 then t.drawn else t

end Sys2Proof.Machine
end

