-- ==== Sys2Proof/Machine/VectorApprox.lean ====
section
/-! DEFINITION. The table-driven approximations VRCP, VRSQ, VEXP2, VLOG2 and VTANH (R135 to R140). Every table entry is the
rounding of an exact real that its definition names; L is computed exactly, as a fraction, and rounded once. -/

namespace Sys2Proof.Machine

/-- RoundNE(num / den) to an integer. -/
def rneDiv (num den : Nat) : Nat :=
  let q := num / den
  let r := num % den
  if 2 * r > den ∨ (2 * r = den ∧ q % 2 = 1) then q + 1 else q

/-- RoundNE of an exact signed fraction to FP32; an exact zero gives +0 (R135). -/
def round32 (neg : Bool) (num den : Nat) : Rounded := fp32.roundZ .rne false neg num den

/-- RoundNE of a signed integer over a natural number. -/
def roundInt32 (num : Int) (den : Nat) : Rounded := round32 (decide (num < 0)) num.natAbs den

/-- num × 2^e over den, as a fraction. -/
def scaleTwo (num den : Nat) (e : Int) : Nat × Nat :=
  if e ≥ 0 then (num * 2 ^ e.toNat, den) else (num, den * 2 ^ (-e).toNat)

/-- A finite input that is not zero, as R135 writes it: E, and m × 2^23 = 2^23 + f. -/
def normalise (num den : Nat) : Int × Nat :=
  let e := ilog2 num den
  (e, (scaleDiv num den (e - 23)).1)

/-! ## VRCP, VRSQ -/

/-- RC[j] (R136). -/
def tableRC (j : Nat) : Nat := rneDiv (2 ^ 24 * 128) (128 + 2 * j + 1)

/-- VRCP on a finite input that is not zero (R136). -/
def rcpCore (neg : Bool) (num den : Nat) : Rounded :=
  let (e, m) := normalise num den
  let rc := tableRC (m % 2 ^ 23 / 2 ^ 17)
  let (n, d) := scaleTwo (rc * (2 ^ 48 - m * rc)) (2 ^ 71) (-e)
  round32 neg n d

/-- RQ[j] (R137): RoundNE(2^24 / √v) for v = (65 + 2(j mod 32)) / 64 × 2^(j div 32). -/
def tableRQ (j : Nat) : Nat :=
  let den := (65 + 2 * (j % 32)) * 2 ^ (j / 32)
  let r := isqrtFrom (2 ^ 50 * 64 / den) 40 0
  if r % 2 = 1 ∧ ¬ (r * r * den = 2 ^ 50 * 64 ∧ r / 2 % 2 = 0) then r / 2 + 1 else r / 2

/-- VRSQ on a finite input above 0 (R137). -/
def rsqCore (num den : Nat) : Rounded :=
  let (e, m) := normalise num den
  let odd := (e % 2).toNat
  let c := if odd = 0 then m else 2 * m
  let e2 := if odd = 0 then e else e - 1
  let rq := tableRQ (32 * odd + m % 2 ^ 23 / 2 ^ 18)
  let (n, d) := scaleTwo (rq * (3 * 2 ^ 71 - c * rq * rq)) (2 ^ 96) (-(e2 / 2))
  round32 false n d

/-! ## VEXP2 -/

/-- floor(2^(31 + j/32)), through five square roots of 2^(992 + j). -/
def rootT (j : Nat) : Nat :=
  isqrtFrom (isqrtFrom (isqrtFrom (isqrtFrom (isqrtFrom (2 ^ (992 + j)) 600 0) 300 0) 150 0) 80 0) 40 0

/-- T[j] × 2^30 (R138): RoundNE(2^30 × 2^(j/32)); for j from 1 to 31 the exact value is irrational, and no tie occurs. -/
def tableT (j : Nat) : Nat := (rootT j + 1) / 2

/-- C1 × 2^30 (R138): RoundNE(2^30 × ln 2). -/
def constC1 : Nat := 744261118
/-- C2 × 2^30 (R138): RoundNE(2^30 × (ln 2)^2 / 2). -/
def constC2 : Nat := 257941248
/-- D × 2^30 (R139): RoundNE(2^30 × log2 e). -/
def constD : Nat := 1549082005

/-- Exp2Core of num / den (R138), as a fraction. -/
def exp2Core (num : Int) (den : Nat) : Nat × Nat :=
  let n := Int.fdiv num den
  let g := (num - n * den).toNat
  let j := 32 * g / den
  let qn := 32 * g - j * den
  let qd := 32 * den
  scaleTwo (tableT j * (2 ^ 30 * qd * qd + constC1 * qn * qd + constC2 * qn * qn)) (2 ^ 60 * qd * qd) n

/-- VEXP2 on a finite input that is not zero (R138). -/
def exp2Lane (neg : Bool) (num den : Nat) : Rounded :=
  if !neg && decide (num ≥ 128 * den) then ⟨fp32.infBits, 0x05⟩
  else if neg && decide (num > 151 * den) then ⟨0, 0x03⟩
  else
    let (n, d) := exp2Core (if neg then -(num : Int) else num) den
    round32 false n d

/-! ## VLOG2 -/

/-- LG[j] × 2^30 (R139): RoundNE(2^30 × log2(1 + (2j + 1) / 64)). -/
def tableLG : List Nat :=
  [24017256, 70962728, 116527248, 160789745, 203822568, 245692198, 286459867, 326182095,
   364911162, 402695523, 439580170, 475606957, 510814882, 545240343, 578917365, 611877800,
   644151509, 675766525, 706749198, 737124328, 766915285, 796144114, 824831638, 852997541,
   880660455, 907838029, 934547002, 960803257, 986621888, 1012017244, 1037002979, 1061592099]

/-- IN[j] × 2^30 (R139). -/
def tableIN (j : Nat) : Nat := rneDiv (2 ^ 30 * 64) (65 + 2 * j)

/-- VLOG2 on a finite input above 0 (R139). t = u / 2^53, and the series has the denominator 12 × 2^212. -/
def log2Core (num den : Nat) : Rounded :=
  let (e, m) := normalise num den
  if m = 2 ^ 23 then roundInt32 e 1
  else
    let j := m % 2 ^ 23 / 2 ^ 18
    let u : Int := (m * tableIN j : Nat) - (2 ^ 53 : Int)
    let series : Int := 12 * u * 2 ^ 159 - 6 * u * u * 2 ^ 106 + 4 * u * u * u * 2 ^ 53 - 3 * u * u * u * u
    let L : Int := (e * 2 ^ 30 + (tableLG.getD j 0 : Int)) * 12 * 2 ^ 212 + (constD : Int) * series
    roundInt32 L (12 * 2 ^ 242)

/-! ## VTANH -/

/-- VTANH on a finite input that is not zero (R140); x = num / den. -/
def tanhCore (neg : Bool) (num den : Nat) : Rounded :=
  let sgn := if neg then fp32.signBit else 0
  if num ≥ 16 * den then ⟨sgn + 0x3F800000, 0x01⟩
  else if 32 * num < den then
    let n : Int := 15 * num * den ^ 4 - 5 * num ^ 3 * den ^ 2 + 2 * num ^ 5
    round32 neg n.natAbs (15 * den ^ 5)
  else
    let (a, b) := exp2Core (2 * num * constD) (2 ^ 30 * den)
    round32 neg (a - b) (a + b)

/-! ## Lanes -/

/-- VRCP of a lane (R135, R136). -/
def rcpLane (x : W32) : Rounded :=
  match f32 x with
  | .nan sn => fp32.nan sn
  | .inf n => ⟨if n then fp32.signBit else 0, 0⟩
  | .fin n a b => if a = 0 then ⟨(fp32.inf n).bits, 0x08⟩ else rcpCore n a b

/-- VRSQ of a lane (R135, R137). -/
def rsqLane (x : W32) : Rounded :=
  match f32 x with
  | .nan sn => fp32.nan sn
  | .inf n => if n then fp32.nan true else ⟨0, 0⟩
  | .fin n a b => if a = 0 then ⟨(fp32.inf n).bits, 0x08⟩ else if n then fp32.nan true else rsqCore a b

/-- VEXP2 of a lane (R135, R138). -/
def exp2OfLane (x : W32) : Rounded :=
  match f32 x with
  | .nan sn => fp32.nan sn
  | .inf n => ⟨if n then 0 else fp32.infBits, 0⟩
  | .fin n a b => if a = 0 then ⟨0x3F800000, 0⟩ else exp2Lane n a b

/-- VLOG2 of a lane (R135, R139). -/
def log2Lane (x : W32) : Rounded :=
  match f32 x with
  | .nan sn => fp32.nan sn
  | .inf n => if n then fp32.nan true else ⟨fp32.infBits, 0⟩
  | .fin n a b => if a = 0 then ⟨(fp32.inf true).bits, 0x08⟩ else if n then fp32.nan true else log2Core a b

/-- VTANH of a lane (R135, R140). -/
def tanhLane (x : W32) : Rounded :=
  match f32 x with
  | .nan sn => fp32.nan sn
  | .inf n => ⟨(if n then fp32.signBit else 0) + 0x3F800000, 0⟩
  | .fin n a b => if a = 0 then ⟨x.toNat, 0⟩ else tanhCore n a b

/-- VRCP (R136). -/
def execVrcp (d a : VReg) (k : MReg) (s : State) : Out := laneOpF vapprox d k [.v a] (fun t i => rcpLane ((t.v a).get i)) s

/-- VRSQ (R137). -/
def execVrsq (d a : VReg) (k : MReg) (s : State) : Out := laneOpF vapprox d k [.v a] (fun t i => rsqLane ((t.v a).get i)) s

/-- VEXP2 (R138). -/
def execVexp2 (d a : VReg) (k : MReg) (s : State) : Out := laneOpF vapprox d k [.v a] (fun t i => exp2OfLane ((t.v a).get i)) s

/-- VLOG2 (R139). -/
def execVlog2 (d a : VReg) (k : MReg) (s : State) : Out := laneOpF vapprox d k [.v a] (fun t i => log2Lane ((t.v a).get i)) s

/-- VTANH (R140). -/
def execVtanh (d a : VReg) (k : MReg) (s : State) : Out := laneOpF vapprox d k [.v a] (fun t i => tanhLane ((t.v a).get i)) s

end Sys2Proof.Machine
end

