-- ==== Sys2Proof/Machine/VectorFp.lean ====
section
/-! DEFINITION. Floating-point vector instructions: arithmetic (R133, R134), compares (R141), reductions over the fixed tree
(R150, R151) and VCVT (R152). -/

namespace Sys2Proof.Machine

/-- The rounding mode of arithmetic (R47). -/
def Tile.rm (t : Tile) : RMode := RMode.arith t.regs.fmode

/-- A binary arithmetic instruction on FP32 lanes. -/
def fp2 (c : VClass) (d a b : VReg) (k : MReg) (f : RMode → FVal → FVal → Rounded) : State → Out :=
  laneOpF c d k [.v a, .v b] fun t i => f t.rm (f32 ((t.v a).get i)) (f32 ((t.v b).get i))

/-- A fused instruction: product of va and vb with vd as the addend. -/
def fp3 (d a b : VReg) (k : MReg) (f : RMode → FVal → FVal → FVal → Rounded) : State → Out :=
  laneOpF vfused d k [.v a, .v b, .v d] fun t i =>
    f t.rm (f32 ((t.v a).get i)) (f32 ((t.v b).get i)) (f32 ((t.v d).get i))

/-- VADD.F (R133). -/
def execVaddF (d a b : VReg) (k : MReg) (s : State) : Out := fp2 vfp d a b k fp32.add s

/-- VSUB.F (R133). -/
def execVsubF (d a b : VReg) (k : MReg) (s : State) : Out := fp2 vfp d a b k (fun m x y => fp32.add m x y.neg) s

/-- VMUL.F (R133). -/
def execVmulF (d a b : VReg) (k : MReg) (s : State) : Out := fp2 vfp d a b k fp32.mul s

/-- VDIV.F (R133). -/
def execVdivF (d a b : VReg) (k : MReg) (s : State) : Out := fp2 vdivsq d a b k fp32.div s

/-- VFMA (R133). -/
def execVfma (d a b : VReg) (k : MReg) (s : State) : Out := fp3 d a b k fp32.fma s

/-- VFMS (R133). -/
def execVfms (d a b : VReg) (k : MReg) (s : State) : Out := fp3 d a b k (fun m x y z => fp32.fma m x y z.neg) s

/-- VFNMA (R133). -/
def execVfnma (d a b : VReg) (k : MReg) (s : State) : Out := fp3 d a b k (fun m x y z => fp32.fma m x.neg y z) s

/-- The bit pattern of an FP32 word as a number that orders as the real value does, with −0 below +0 (R134). -/
def orderKey (x : W32) : Int := if x.msb then -(x.toNat - 2 ^ 31 : Int) - 1 else x.toNat

/-- VMIN.F and VMAX.F of two words (R134). -/
def minMax (max : Bool) (x y : W32) : Rounded :=
  let p := f32 x
  let q := f32 y
  if p.isNan || q.isNan then fp32.nan (p.isSnan || q.isSnan)
  else if decide (orderKey x ≤ orderKey y) != max then ⟨x.toNat, 0⟩ else ⟨y.toNat, 0⟩

/-- VMIN.F (R134). -/
def execVminF (d a b : VReg) (k : MReg) (s : State) : Out :=
  laneOpF vfp d k [.v a, .v b] (fun t i => minMax false ((t.v a).get i) ((t.v b).get i)) s

/-- VMAX.F (R134). -/
def execVmaxF (d a b : VReg) (k : MReg) (s : State) : Out :=
  laneOpF vfp d k [.v a, .v b] (fun t i => minMax true ((t.v a).get i) ((t.v b).get i)) s

/-- An operation on the sign bit (R133): a NaN gives the canonical NaN (R46). -/
def signOp (f : W32 → W32) (x : W32) : Rounded := if (f32 x).isNan then fp32.nan (f32 x).isSnan else ⟨(f x).toNat, 0⟩

/-- VABS.F (R133). -/
def execVabsF (d a : VReg) (k : MReg) (s : State) : Out :=
  laneOpF vfp d k [.v a] (fun t i => signOp (· &&& 0x7FFFFFFF) ((t.v a).get i)) s

/-- VNEG.F (R133). -/
def execVnegF (d a : VReg) (k : MReg) (s : State) : Out :=
  laneOpF vfp d k [.v a] (fun t i => signOp (· ^^^ 0x80000000) ((t.v a).get i)) s

/-- VSQRT (R133). -/
def execVsqrt (d a : VReg) (k : MReg) (s : State) : Out :=
  laneOpF vdivsq d k [.v a] (fun t i => sqrt32 t.rm (f32 ((t.v a).get i))) s

/-! ## Compares -/

/-- A floating-point compare of two lanes (R141): quiet says that only a signalling NaN sets NV; unordered is the result where
an operand is a NaN. -/
def fcmp (quiet unordered : Bool) (f : FVal → FVal → Bool) (x y : W32) : Bool × FFlags :=
  let p := f32 x
  let q := f32 y
  if p.isNan || q.isNan then (unordered, if !quiet || p.isSnan || q.isSnan then 0x10 else 0) else (f p q, 0)

/-- VCMP.EQ.F32 (R141). -/
def execVcmpEqF (d : MReg) (a b : VReg) (k : MReg) (s : State) : Out := cmpOp vfp d a b k true (fcmp true false FVal.eq) s

/-- VCMP.NE.F32 (R141). -/
def execVcmpNeF (d : MReg) (a b : VReg) (k : MReg) (s : State) : Out :=
  cmpOp vfp d a b k true (fcmp true true fun p q => !FVal.eq p q) s

/-- VCMP.LT.F32 (R141). -/
def execVcmpLtF (d : MReg) (a b : VReg) (k : MReg) (s : State) : Out := cmpOp vfp d a b k true (fcmp false false FVal.lt) s

/-- VCMP.LE.F32 (R141). -/
def execVcmpLeF (d : MReg) (a b : VReg) (k : MReg) (s : State) : Out :=
  cmpOp vfp d a b k true (fcmp false false fun p q => FVal.lt p q || FVal.eq p q) s

/-- VCMP.UN.F32 (R141). -/
def execVcmpUnF (d : MReg) (a b : VReg) (k : MReg) (s : State) : Out :=
  cmpOp vfp d a b k true (fcmp true true fun _ _ => false) s

/-! ## Reductions -/

/-- One level of the pairwise tree: neighbours are combined, and the flags of the additions are joined (R150). -/
def treeLevel (f : Nat → Nat → Rounded) : List Nat → List Nat × FFlags
  | x :: y :: t =>
    let r := f x y
    let (l, fl) := treeLevel f t
    (r.bits :: l, r.flags ||| fl)
  | l => (l, 0)

/-- The tree over 16 lanes (R150): the root and the flags of all its nodes. -/
def tree16 (f : Nat → Nat → Rounded) (l : List Nat) : Nat × FFlags :=
  let (l1, a) := treeLevel f l
  let (l2, b) := treeLevel f l1
  let (l3, c) := treeLevel f l2
  let (l4, d) := treeLevel f l3
  (l4.headD 0, a ||| b ||| c ||| d)

/-- A reduction (R150, R151): a lane that is not enabled enters with the given value, and the root goes to every enabled
lane. fl says that the instruction can set flags. -/
def reduceOp (d a : VReg) (k : MReg) (fl : Bool) (neutral : Nat) (f : Tile → Nat → Nat → Rounded) : State → Out :=
  vecOp vred [.v d] [.m k, .v a] fun t =>
    let en := t.enabled k
    let ins := (List.finRange 16).map fun i => if en.getLsbD i.val then ((t.v a).get i).toNat else neutral
    let (r, flags) := tree16 (f t) ins
    (t.vecIssue vred en [.m k, .v a]).putV vred.lat d en (lanesOf fun _ => BitVec.ofNat 32 r) (if fl then some flags else none)

/-- VREDSUM.F (R150). -/
def execVredsumF (d a : VReg) (k : MReg) (s : State) : Out :=
  reduceOp d a k true 0 (fun t x y => fp32.add t.rm (fp32.decode x) (fp32.decode y)) s

/-- The greater of two words as S32 or N32 (R151). -/
def greater (signed : Bool) (x y : Nat) : Rounded :=
  let p := BitVec.ofNat 32 x
  let q := BitVec.ofNat 32 y
  ⟨if (if signed then BitVec.sle q p else BitVec.ule q p) then x else y, 0⟩

/-- VREDMAX (R151); its types are F32, S32 and N32 (R73). -/
def execVredmax (d a : VReg) (k : MReg) (t : ElemTy) (s : State) : Out :=
  match t with
  | .f32 => reduceOp d a k true 0xFF800000 (fun _ x y => minMax true (BitVec.ofNat 32 x) (BitVec.ofNat 32 y)) s
  | .s32 => reduceOp d a k false 0x80000000 (fun _ => greater true) s
  | _ => reduceOp d a k false 0 (fun _ => greater false) s

/-- VREDSUM.I (R151); the sum is the same for S32 and N32. -/
def execVredsumI (d a : VReg) (k : MReg) (_t : ElemTy) (s : State) : Out :=
  reduceOp d a k false 0 (fun _ x y => ⟨(x + y) % 2 ^ 32, 0⟩) s

/-! ## VCVT -/

/-- What an element is read as (R126): a floating-point value or an integer. -/
inductive ElemVal where
  | fp (v : FVal)
  | int (i : Int)
deriving DecidableEq, Repr, Inhabited

/-- The element of a lane (R126). -/
def readElem (ty : ElemTy) (x : W32) : ElemVal :=
  match ty with
  | .f32 => .fp (fp32.decode x.toNat)
  | .bf16 => .fp (bf16.decode (x.toNat % 2 ^ 16))
  | .fp16 => .fp (fp16.decode (x.toNat % 2 ^ 16))
  | .s32 => .int x.toInt
  | .n32 => .int x.toNat
  | .s16 => .int (x.truncate 16 : BitVec 16).toInt
  | .s8 => .int (x.truncate 8 : BitVec 8).toInt
  | .n8 => .int (x.toNat % 256 : Nat)

/-- The range of an integer type (R42). -/
def intRange : ElemTy → Int × Int
  | .s32 => (-2 ^ 31, 2 ^ 31 - 1)
  | .n32 => (0, 2 ^ 32 - 1)
  | .s16 => (-2 ^ 15, 2 ^ 15 - 1)
  | .s8 => (-2 ^ 7, 2 ^ 7 - 1)
  | .n8 => (0, 255)
  | .f32 | .bf16 | .fp16 => (0, 0)

/-- A value converted to a type (R49 to R52, R152), as the bits of a lane. -/
def convertElem (mode : RMode) (dst : ElemTy) (v : ElemVal) : Rounded :=
  let toFp (f : FFmt) : Rounded := f.convert mode (match v with
    | .fp x => x
    | .int i => FVal.ofInt i)
  match dst with
  | .f32 => toFp fp32
  | .bf16 => toFp bf16
  | .fp16 => toFp fp16
  | _ =>
    let (lo, hi) := intRange dst
    let (i, fl) := match v with
      | .fp x => toIntSat lo hi mode x
      | .int i => (if i > hi then hi else if i < lo then lo else i, 0)
    ⟨(fillElem dst (BitVec.ofInt 32 i).toNat).toNat, fl⟩

/-- Whether a type is a floating-point type. -/
def isFp : ElemTy → Bool
  | .f32 | .bf16 | .fp16 => true
  | .s32 | .n32 | .s16 | .s8 | .n8 => false

/-- VCVT (R152): under RM = 4 it draws once, and lane i uses W[i][15:0] (R53). -/
def execVcvt (d a : VReg) (k : MReg) (src dst : ElemTy) (s : State) : Out :=
  vecOp vfp [.v d] [.m k, .v a] (fun t =>
    let en := t.enabled k
    let r := Vector.ofFn fun i : Fin 16 =>
      if en.getLsbD i.val then
        convertElem (RMode.conv t.regs.fmode ((t.rng i.val).toNat % 65536)) dst (readElem src ((t.v a).get i))
      else ⟨0, 0⟩
    (t.drawnConv.vecIssue vfp en [.m k, .v a]).putV vfp.lat d en (lanesOf fun i => BitVec.ofNat 32 (r.get i).bits)
      (if isFp src || isFp dst then some (lanesFlags en fun i => (r.get i).flags) else none)) s

end Sys2Proof.Machine
end

