-- ==== Sys2Proof/Machine/VectorInt.lean ====
section
/-! DEFINITION. Integer, logical and shift instructions on lanes (R143, R144), integer compares (R141), VSEL (R142), the mask
instructions and VSETVL (R132, R161, R162). They set no flag. -/

namespace Sys2Proof.Machine

/-- A binary instruction of class VINT on lanes. -/
def int2 (d a b : VReg) (k : MReg) (f : W32 → W32 → W32) : State → Out :=
  laneOp vint d k [.v a, .v b] fun t i => f ((t.v a).get i) ((t.v b).get i)

/-- Whether x ≤ y, read as S32 or as N32 by the type (R143). -/
def leI (t : ElemTy) (x y : W32) : Bool := if t = .s32 then BitVec.sle x y else BitVec.ule x y

/-- Whether x < y, read as S32 or as N32 by the type (R141). -/
def ltI (t : ElemTy) (x y : W32) : Bool := if t = .s32 then BitVec.slt x y else BitVec.ult x y

/-- VADD.I (R143); the bits are the same for both types. -/
def execVaddI (d a b : VReg) (k : MReg) (_t : ElemTy) (s : State) : Out := int2 d a b k (fun x y => x + y) s

/-- VSUB.I (R143); the bits are the same for both types. -/
def execVsubI (d a b : VReg) (k : MReg) (_t : ElemTy) (s : State) : Out := int2 d a b k (fun x y => x - y) s

/-- VMUL.I (R143); the bits are the same for both types. -/
def execVmulI (d a b : VReg) (k : MReg) (_t : ElemTy) (s : State) : Out := int2 d a b k (fun x y => x * y) s

/-- VMIN.I (R143). -/
def execVminI (d a b : VReg) (k : MReg) (t : ElemTy) (s : State) : Out := int2 d a b k (fun x y => if leI t x y then x else y) s

/-- VMAX.I (R143). -/
def execVmaxI (d a b : VReg) (k : MReg) (t : ElemTy) (s : State) : Out := int2 d a b k (fun x y => if leI t y x then x else y) s

/-- VAND (R144). -/
def execVand (d a b : VReg) (k : MReg) (s : State) : Out :=
  int2 d a b k (fun x y => x &&& y) s

/-- VOR (R144). -/
def execVor (d a b : VReg) (k : MReg) (s : State) : Out :=
  int2 d a b k (fun x y => x ||| y) s

/-- VXOR (R144). -/
def execVxor (d a b : VReg) (k : MReg) (s : State) : Out :=
  int2 d a b k (fun x y => x ^^^ y) s

/-- VSHL (R144). -/
def execVshl (d a b : VReg) (k : MReg) (s : State) : Out :=
  int2 d a b k (fun x y => if y.toNat ≥ 32 then 0 else x <<< y.toNat) s

/-- VSHR (R144). -/
def execVshr (d a b : VReg) (k : MReg) (s : State) : Out :=
  int2 d a b k (fun x y => if y.toNat ≥ 32 then 0 else x >>> y.toNat) s

/-- VSRA (R144). -/
def execVsra (d a b : VReg) (k : MReg) (s : State) : Out :=
  int2 d a b k (fun x y => x.sshiftRight (min y.toNat 31)) s

/-- VCMP.EQ.I (R141). -/
def execVcmpEqI (d : MReg) (a b : VReg) (k : MReg) (_t : ElemTy) (s : State) : Out :=
  cmpOp vint d a b k false (fun x y => (x == y, 0)) s

/-- VCMP.NE.I (R141). -/
def execVcmpNeI (d : MReg) (a b : VReg) (k : MReg) (_t : ElemTy) (s : State) : Out :=
  cmpOp vint d a b k false (fun x y => (x != y, 0)) s

/-- VCMP.LT.I (R141). -/
def execVcmpLtI (d : MReg) (a b : VReg) (k : MReg) (t : ElemTy) (s : State) : Out :=
  cmpOp vint d a b k false (fun x y => (ltI t x y, 0)) s

/-- VCMP.LE.I (R141). -/
def execVcmpLeI (d : MReg) (a b : VReg) (k : MReg) (t : ElemTy) (s : State) : Out :=
  cmpOp vint d a b k false (fun x y => (leI t x y, 0)) s

/-- VSEL (R142): mk is a selection mask, and every active lane is written. -/
def execVsel (d a b : VReg) (k : MReg) (s : State) : Out :=
  vecOp vint [.v d] [.m k, .v a, .v b] (fun t =>
    let sel := t.m k
    let x := lanesOf fun i => if sel.getLsbD i.val then (t.v a).get i else (t.v b).get i
    (t.vecIssue vint t.active [.m k, .v a, .v b]).putV vint.lat d t.active x none) s

/-! ## Masks and the vector length -/

/-- An instruction that writes the bits of the active lanes of a mask register (R128, R161). With VL = 0 it writes nothing
(R129). -/
def maskOp (d : MReg) (reads : List RegName) (f : Tile → Mask) : State → Out :=
  vecOp vint [.m d] reads fun t =>
    let x := (t.m d &&& ~~~t.active) ||| (f t &&& t.active)
    let u := t.vecIssue vint t.active reads
    if t.active = 0 then u else u.result vint.lat (.m d x)

/-- An instruction of class VINT that writes a scalar register, whatever VL is. -/
def toScalar (d : GReg) (reads : List RegName) (f : Tile → Word) : State → Out :=
  vecOp vint [.g d] reads fun t => (t.vecIssue vint t.active reads).result vint.lat (.g d (f t))

/-- MAND (R161). -/
def execMand (d a b : MReg) (s : State) : Out := maskOp d [.m a, .m b] (fun t => t.m a &&& t.m b) s

/-- MOR (R161). -/
def execMor (d a b : MReg) (s : State) : Out := maskOp d [.m a, .m b] (fun t => t.m a ||| t.m b) s

/-- MXOR (R161). -/
def execMxor (d a b : MReg) (s : State) : Out := maskOp d [.m a, .m b] (fun t => t.m a ^^^ t.m b) s

/-- MNOT (R161). -/
def execMnot (d a : MReg) (s : State) : Out := maskOp d [.m a] (fun t => ~~~t.m a) s

/-- MSET (R161). -/
def execMset (d : MReg) (a : GReg) (s : State) : Out := maskOp d [.g a] (fun t => (t.g a).truncate 16) s

/-- MLANE (R161). -/
def execMlane (d : MReg) (a : GReg) (s : State) : Out :=
  maskOp d [.g a] (fun t => maskOf fun i => decide (i.val = (t.g a).toNat)) s

/-- MPOP (R162). -/
def execMpop (d : GReg) (a : MReg) (s : State) : Out := toScalar d [.m a] (fun t => w64 (laneCount (t.enabled a))) s

/-- MFIRST (R162): all ones where no active lane is set. -/
def execMfirst (d : GReg) (a : MReg) (s : State) : Out :=
  toScalar d [.m a] (fun t =>
    match (List.range 16).find? (fun i => (t.enabled a).getLsbD i) with
    | some i => w64 i
    | none => BitVec.allOnes 64) s

/-- VSETVL (R132): VL and gd get Min(N(ga), VLMAX); VL changes for the next instruction (R240). -/
def execVsetvl (d a : GReg) (s : State) : Out :=
  vecOp vint [.g d] [.g a] (fun t =>
    let n := min (t.g a).toNat 16
    let u := (t.vecIssue vint 0 [.g a]).result vint.lat (.g d (w64 n))
    { u with regs := { u.regs with vl := ⟨n, Nat.lt_succ_of_le (Nat.min_le_right _ _)⟩ } }) s

end Sys2Proof.Machine
end

