-- ==== Sys2Proof/Machine/VectorMem.lean ====
section
/-! DEFINITION. Vector memory instructions (R155 to R159): the elements of the enabled lanes, the order of their checks (R156),
local loads and stores, VLDX, and the global forms. -/

namespace Sys2Proof.Machine

/-- One element of a vector memory instruction: its lane, its register and its address (R155). -/
structure VElem where
  lane : Fin 64
  reg : VReg
  ea : Word
deriving DecidableEq, Repr, Inhabited

/-- The enabled lanes in ascending order. -/
def Tile.enabledLanes (t : Tile) (k : MReg) : List (Fin 16) := (List.finRange 16).filter fun i => (t.enabled k).getLsbD i.val

/-- The elements of an instruction whose lane i has the address f i. -/
def Tile.velems (t : Tile) (k : MReg) (d : VReg) (f : Fin 16 → Word) : List VElem :=
  (t.enabledLanes k).map fun i => ⟨Fin.ofNat 64 i.val, d, f i⟩

/-- Unit-stride addresses (R155). -/
def unitEa (t : Tile) (a : GReg) (ty : ElemTy) (i : Fin 16) : Word := t.g a + w64 (i.val * elemSize ty)

/-- Strided addresses (R155). -/
def strideEa (t : Tile) (a b : GReg) (i : Fin 16) : Word := t.g a + w64 i.val * t.g b

/-- Gather and scatter addresses (R155). -/
def indexEa (t : Tile) (a : GReg) (b : VReg) (i : Fin 16) : Word := t.g a + ((t.v b).get i).signExtend 64

/-- Puts the lane of an element into a trap. -/
def Stop.inLane (l : Fin 64) : Stop → Stop
  | .trap i => .trap { i with lane := some l }
  | .wait ev => .wait ev
  | .miss ev l => .miss ev l

/-- The check of one element in its lane. -/
def laneCheck {α : Type} (e : VElem) (x : Except Stop α) : Except Stop α :=
  match x with
  | .ok y => .ok y
  | .error st => .error (st.inLane e.lane)

/-- The shingle waits of all elements together (R156). -/
def Tile.gateWaits (t : Tile) (load : Bool) (bytes : List (List Nat)) : Except Stop Unit :=
  failIf (bytes.any fun b => match t.gate load 0 none b with
    | .ok _ => false
    | .error _ => true) (.wait 10)

/-- The conditions of one element of a local load, in the order of R37: its window and offset. -/
def Tile.checkVload (t : Tile) (sz : Nat) (e : VElem) : Except Stop (VElem × Window × Nat) := laneCheck e do
  failIf (decide (e.ea.toNat % sz ≠ 0)) (.cause 0x04 e.ea 2)
  let (w, o) ← localWindow e.ea 2
  failIf (w.wide && decide (sz < 4)) (.cause 0x07 e.ea 2)
  t.gateTraps true 2 (w.touch o sz)
  .ok (e, w, o)

/-- A local vector load (R155, R157): the elements are read now, and the enabled lanes are written at its arrival (R130). -/
def localVload (reads : List RegName) (k : MReg) (ty : ElemTy) (dst : Tile → List RegName) (elems : Tile → List VElem)
    (s : State) : Out :=
  let es := elems s.tile
  let sz := elemSize ty
  let reads := .m k :: reads
  issue { regs := dst s.tile ++ reads, reads := reads, unit := .localPort, cls := if es.isEmpty then none else some .ld } (fun s => do
    let t := s.tile
    let xs ← es.mapM (t.checkVload sz)
    t.gateWaits true (xs.map fun x => x.2.1.touch x.2.2 sz)
    let bytes := xs.flatMap fun x => x.2.1.touch x.2.2 sz
    let words := xs.flatMap fun x => x.2.1.words x.2.2 sz
    let cy := readCycles words
    let wide := xs.any fun x => x.2.1.wide
    let bad := xs.findSome? fun x => (t.badLocal x.2.1 x.2.2 sz).map fun v => ((0 : Nat), v, some x.1.lane)
    let op : OutLoad :=
      { stamp := t.ops.stamp, kind := .timed (t.arrival (loadLatency 5 wide cy.1)) true
        elems := xs.map fun x => { reg := .v x.1.reg, lane := x.1.lane, va := x.1.ea.toNat, pa := 0, bytes := sz
                                   val := some ((fillElem ty (t.readLocal x.2.1 x.2.2 sz)).zeroExtend 64) }
        regs := dst t, hs := 0, issued := t.iss.cycle, aclass := 2, ecc := bad }
    .ok ((s.upd fun t =>
      let t := t.event 35 1
      if es.isEmpty then (t.event 30 1).issued reads
      else (((t.loadEvents bytes).usePort (some t.ops.stamp) words cy.1).issued reads).pushLoad op).tileUncIf bad.isSome)) s

/-- The conditions of one element of a local store, in the order of R37: its raw offset. addrs lists the bytes of all enabled
lanes, which clear a word that they replace whole (R386). -/
def Tile.checkVstore (t : Tile) (sz : Nat) (addrs : List Nat) (e : VElem) : Except Stop (VElem × Nat) := laneCheck e do
  failIf (decide (e.ea.toNat % sz ≠ 0)) (.cause 0x04 e.ea 3)
  let (w, o) ← localWindow e.ea 3
  failIf (decide (w ≠ .raw)) (.cause 0x07 e.ea 3)
  failIf (!t.ex.prv && decide (o < t.regs.shbase.toNat)) (.cause 0x07 e.ea 3)
  t.gateTraps false 3 (upFrom o sz)
  failIf (t.pad.bad.contains (o / 8) && !coversWord addrs (o / 8)) (.cause 0x0B (w64 o) 3)
  .ok (e, o)

/-- A local vector store (R155, R157): the low bytes of each enabled lane, in ascending order of lanes. -/
def localVstore (d : VReg) (reads : List RegName) (k : MReg) (ty : ElemTy) (elems : Tile → List VElem) (s : State) : Out :=
  let es := elems s.tile
  let sz := elemSize ty
  let reads := .v d :: .m k :: reads
  issue { regs := reads, reads := reads, unit := .localPort } (fun s => do
    let t := s.tile
    let xs ← es.mapM (t.checkVstore sz (es.flatMap fun e => upFrom e.ea.toNat sz))
    t.gateWaits false (xs.map fun x => upFrom x.2 sz)
    let words := xs.flatMap fun x => Window.words .raw x.2 sz
    let ws := xs.map fun x => (x.2, toBytes ((t.v d).get (Fin.ofNat 16 x.1.lane.val)).toNat sz)
    .ok (s.upd fun t =>
      let t := (t.event 35 1).event 33 1
      if es.isEmpty then t.issued reads else ((t.usePort none words (writeCycles words)).issued reads).storeRaw ws)) s

/-- The elements of VLDX (R158): row i by row, and within a row column k, which goes to register d + k. -/
def Tile.xposeElems (t : Tile) (d : VReg) (a b : GReg) (k : MReg) : List VElem :=
  (t.enabledLanes k).flatMap fun i =>
    (List.range t.regs.vl.val).map fun c => ⟨Fin.ofNat 64 i.val, d + Fin.ofNat 32 c, strideEa t a b i + w64 (4 * c)⟩

/-- VLD (R155). -/
def execVld (d : VReg) (a : GReg) (k : MReg) (t : ElemTy) (s : State) : Out :=
  localVload [.g a] k t (fun _ => [.v d]) (fun u => u.velems k d (unitEa u a t)) s

/-- VST (R155). -/
def execVst (d : VReg) (a : GReg) (k : MReg) (t : ElemTy) (s : State) : Out :=
  localVstore d [.g a] k t (fun u => u.velems k d (unitEa u a t)) s

/-- VLDS (R155). -/
def execVlds (d : VReg) (a b : GReg) (k : MReg) (t : ElemTy) (s : State) : Out :=
  localVload [.g a, .g b] k t (fun _ => [.v d]) (fun u => u.velems k d (strideEa u a b)) s

/-- VSTS (R155). -/
def execVsts (d : VReg) (a b : GReg) (k : MReg) (t : ElemTy) (s : State) : Out :=
  localVstore d [.g a, .g b] k t (fun u => u.velems k d (strideEa u a b)) s

/-- VLDG (R155). -/
def execVldg (d : VReg) (a : GReg) (b : VReg) (k : MReg) (t : ElemTy) (s : State) : Out :=
  localVload [.g a, .v b] k t (fun _ => [.v d]) (fun u => u.velems k d (indexEa u a b)) s

/-- VSTG (R155). -/
def execVstg (d : VReg) (a : GReg) (b : VReg) (k : MReg) (t : ElemTy) (s : State) : Out :=
  localVstore d [.g a, .v b] k t (fun u => u.velems k d (indexEa u a b)) s

/-- VLDX (R158): its registers are written together at its arrival. -/
def execVldx (d : VReg) (a b : GReg) (k : MReg) (t : ElemTy) (s : State) : Out :=
  localVload [.g a, .g b] k t (fun u => (List.range u.regs.vl.val).map fun c => .v (d + Fin.ofNat 32 c))
    (fun u => u.xposeElems d a b k) s

/-! ## Global forms -/

/-- The conditions of one element of a global access, in the order of R37 (R156): its physical address. -/
def State.checkVglobal (s : State) (kind : AccessKind) (aclass sz : Nat) (e : VElem) : Except Stop (VElem × Nat) := laneCheck e do
  let pa ← s.scalarGlobal kind aclass e.ea sz
  .ok (e, pa)

/-- VGLD (R159): one operation of class LD, whose lanes are written when the last one's data has arrived. -/
def execVgld (d : VReg) (a : GReg) (k : MReg) (t : ElemTy) (s : State) : Out :=
  let es := s.tile.velems k d (unitEa s.tile a t)
  let sz := elemSize t
  let hs := s.tile.handlesOf (es.map fun e => (e.ea.toNat, sz))
  let reads : List RegName := [.m k, .g a]
  issue { regs := .v d :: reads, reads := reads, cls := if es.isEmpty then none else some .ld, hs := hs } (fun s => do
    let xs ← es.mapM (s.checkVglobal .load 4 sz)
    .ok ((s.upd fun u =>
      let v := ((u.event 35 1).event 31 1).issued reads
      if es.isEmpty then v
      else v.pushLoad
        { stamp := u.ops.stamp, kind := .global (.elem t)
          elems := xs.map fun x => { reg := .v d, lane := x.1.lane, va := x.1.ea.toNat, pa := x.2, bytes := sz, val := none }
          regs := [.v d], hs := hs, issued := u.iss.cycle, aclass := 4, ecc := none }).injectLines
            s.tile.ops.stamp (xs.map fun x => x.2))) s

/-- VGST (R159): one operation of class ST. -/
def execVgst (d : VReg) (a : GReg) (k : MReg) (t : ElemTy) (s : State) : Out :=
  let es := s.tile.velems k d (unitEa s.tile a t)
  let sz := elemSize t
  let hs := s.tile.handlesOf (es.map fun e => (e.ea.toNat, sz))
  let reads : List RegName := [.v d, .m k, .g a]
  issue { regs := reads, reads := reads, cls := if es.isEmpty then none else some .st, hs := hs } (fun s => do
    let xs ← es.mapM (s.checkVglobal .store 5 sz)
    .ok ((s.upd fun u =>
      let v := ((u.event 35 1).event 32 1).issued reads
      if es.isEmpty then v
      else v.pushStore
        { stamp := u.ops.stamp, vec := true, ecc := none, hs := hs
          elems := xs.map fun x => { lane := x.1.lane, va := x.1.ea.toNat, pa := x.2, done := false
                                     data := toBytes ((u.v d).get (Fin.ofNat 16 x.1.lane.val)).toNat sz } }).injectLines s.tile.ops.stamp
            (xs.map fun x => x.2))) s

end Sys2Proof.Machine
end

