-- ==== Sys2Proof/Machine/VectorMove.lean ====
section
/-! DEFINITION. Moves and permutation (R145 to R147), VRNG (R149), VPACK.LB and VUNPK.LB (R153, R154). -/

namespace Sys2Proof.Machine

/-- VBCAST (R145). -/
def execVbcast (d : VReg) (a : GReg) (k : MReg) (s : State) : Out :=
  laneOp vint d k [.g a] (fun t _ => (t.g a).truncate 32) s

/-- VMOVS (R145): it reads any lane below VLMAX, and writes gd even when VL is 0. -/
def execVmovs (d : GReg) (a : VReg) (b : GReg) (s : State) : Out :=
  vecOp vint [.g d] [.v a, .g b] (fun t =>
    let n := (t.g b).toNat
    let x : Word := if h : n < 16 then ((t.v a).get ⟨n, h⟩).zeroExtend 64 else 0
    (t.vecIssue vint 0 [.v a, .g b]).result vint.lat (.g d x)) s

/-- VINS (R145): the other lanes keep their values; no effect where the lane is not active. -/
def execVins (d : VReg) (a b : GReg) (s : State) : Out :=
  vecOp vint [.v d] [.g a, .g b] (fun t =>
    let n := (t.g b).toNat
    let lanes : Mask := if n < t.regs.vl.val then BitVec.ofNat 16 (2 ^ n) else 0
    let x : W32 := (t.g a).truncate 32
    (t.vecIssue vint lanes [.g a, .g b]).putV vint.lat d lanes (lanesOf fun _ => x) none) s

/-- Lane i of a permutation through a table (R146): the loader fills what the object does not list with the lane's own
index. -/
def Tile.permLane (t : Tile) (p i : Nat) : Nat := (t.gang.prog.perms.getD p []).getD i i

/-- VSHUF (R146). -/
def execVshuf (d a : VReg) (p : Fin 32) (k : MReg) (s : State) : Out :=
  laneOp vint d k [.v a] (fun t i =>
    let n := t.permLane p.val i.val
    if h : n < 16 then (t.v a).get ⟨n, h⟩ else 0) s

/-- VSLIDE (R147). -/
def execVslide (d a : VReg) (b : GReg) (k : MReg) (s : State) : Out :=
  laneOp vint d k [.v a, .g b] (fun t i =>
    let n : Int := i.val + (t.g b).toInt
    if 0 ≤ n ∧ n < (t.regs.vl.val : Int) then (t.v a).get (Fin.ofNat 16 n.toNat) else 0) s

/-- VRNG (R149): it draws once where VL is at least 1, whatever the mask. -/
def execVrng (d : VReg) (k : MReg) (s : State) : Out :=
  vecOp vblock [.v d] [.m k] (fun t =>
    let en := t.enabled k
    (t.drawn.vecIssue vblock en [.m k]).putV vblock.lat d en (lanesOf fun i => t.rng i.val) none) s

/-! ## Blocks -/

/-- The magnitude of a finite value as a fraction; none for NaN and the infinities. -/
def magnitude : FVal → Option (Nat × Nat)
  | .fin _ a b => some (a, b)
  | _ => none

/-- Whether a/b ≤ c/d. -/
def fracLe (x y : Nat × Nat) : Bool := decide (x.1 * y.2 ≤ y.1 * x.2)

/-- The largest magnitude of the finite values, 0 if there is none (R153). -/
def largest (xs : List FVal) : Nat × Nat :=
  (xs.filterMap magnitude).foldl (fun m x => if fracLe x m then m else x) (0, 1)

/-- The least finite scale S with M ≤ lim × S, for lim = (2^p − 1) / 2^(p − 1); 0x3FB if none suffices (R153). The scale is found
from M / lim = m × 2^e, with m rounded up to a quarter. -/
def leastScale (p : Nat) (m : Nat × Nat) : Nat :=
  if m.1 = 0 then 0
  else
    let num := m.1 * 2 ^ (p - 1)
    let den := m.2 * (2 ^ p - 1)
    let e := ilog2 num den
    let (q, r, _) := scaleDiv num den (e - 2)
    let f := if r = 0 then q - 4 else q - 3
    let e' : Int := if f = 4 then e + 128 else e + 127
    if e' < 0 then 0 else if e' > 254 then 0x3FB else e'.toNat * 4 + f % 4

/-- The second scale of a block (R153): exponent Max(e0 − p, 0), the fraction of the first. -/
def secondScale (p s0 : Nat) : Nat := (s0 / 4 - p) * 4 + s0 % 4

/-- The element bits and flags of a value under a selector and its scale (R58). -/
def encodeElem (p : Nat) (mode : RMode) (k : Nat) (scale : Nat × Nat) (x : FVal) : Nat × FFlags :=
  let top := 2 ^ p - 1
  match x with
  | .nan _ => (0, 0x10)
  | .inf n => (k * 2 ^ (p + 1) + n.toNat * 2 ^ p + top, 0x10)
  | .fin n a b =>
    if a = 0 then (0, 0)
    else
      let num := a * 2 ^ (p - 1) * scale.2
      let den := b * scale.1
      let up := match mode with
        | .stoch u => roundsUp (.stoch u) false (num / den) (num % den) den
        | m => roundsUp m n (num / den) (num % den) den
      let m := num / den + up.toNat
      if m > top then (k * 2 ^ (p + 1) + n.toNat * 2 ^ p + top, 0x05)
      else if m = 0 then (k * 2 ^ (p + 1), 0x03)
      else (k * 2 ^ (p + 1) + n.toNat * 2 ^ p + m, if num % den = 0 then 0 else 0x01)

/-- One element of VPACK.LB (R153): the selector is 1 where the value is finite and at most lim × S1. -/
def packElem (p : Nat) (mode : RMode) (s0 s1 : Nat) (x : FVal) : Nat × FFlags :=
  let sc0 := (scaleVal s0).getD (1, 1)
  let sc1 := (scaleVal s1).getD (1, 1)
  let small := match magnitude x with
    | some m => fracLe m ((2 ^ p - 1) * sc1.1, 2 ^ (p - 1) * sc1.2)
    | none => false
  if small then encodeElem p mode 1 sc1 x else encodeElem p mode 0 sc0 x

/-- The block that VPACK.LB builds, as a number, and the flags of each element (R153). u gives the random value of an
element. -/
def packBlock (f : BlkFmt) (rm : Fin 5) (u : Nat → Nat) (xs : List FVal) : Nat × List FFlags :=
  let p := pBits f
  let s0 := leastScale p (largest xs)
  let s1 := secondScale p s0
  let es := xs.zipIdx.map fun e => packElem p (RMode.conv rm (u e.2)) s0 s1 e.1
  (s0 + s1 * 2 ^ 10 + 2 ^ 32 * es.foldr (fun e n => e.1 + 2 ^ (p + 2) * n) 0, es.map Prod.snd)

/-- VPACK.LB (R153): all lanes of va and va + 1 are read; element e uses W[e mod 16] bits [16j+15:16j] with j = e div 16, and sets
flags where lane e mod 16 is enabled. -/
def execVpackLb (d a : VReg) (f : BlkFmt) (k : MReg) (s : State) : Out :=
  vecOp vblock [.v d] [.m k, .v a, .v (a + 1)] (fun t =>
    let en := t.enabled k
    let xs := ((t.v a).toList ++ (t.v (a + 1)).toList).map f32
    let (blk, fl) := packBlock f t.regs.fmode (fun e => (t.rng (e % 16)).toNat / 2 ^ (16 * (e / 16)) % 65536) xs
    let flags := fl.zipIdx.foldl (fun x e => if en.getLsbD (e.2 % 16) then x ||| e.1 else x) 0
    (t.drawnConv.vecIssue vblock en [.m k, .v a, .v (a + 1)]).putV vblock.lat d en
      (lanesOf fun i => BitVec.ofNat 32 (blk / 2 ^ (32 * i.val))) (some flags)) s

/-- VUNPK.LB (R154): the block is read at issue; element i goes to lane i of vd, element i + 16 to lane i of vd + 1. -/
def execVunpkLb (d a : VReg) (f : BlkFmt) (k : MReg) (s : State) : Out :=
  vecOp vblock [.v d, .v (d + 1)] [.m k, .v a] (fun t =>
    let en := t.enabled k
    let blk := (t.v a).toList.flatMap fun w => toBytes w.toNat 4
    let u := (t.vecIssue vblock en [.m k, .v a]).putV vblock.lat d en (lanesOf fun i => blockElem f blk i.val) none
    u.putV vblock.lat (d + 1) en (lanesOf fun i => blockElem f blk (i.val + 16)) none) s

end Sys2Proof.Machine
end

