-- ==== Sys2Proof/Machine/Dispatch.lean ====
section
/-! DEFINITION. One arm per constructor of Instr, each one direct call of its meaning. -/

namespace Sys2Proof.Machine

def exec (i : Instr) (s : State) : Host.Outcome State Fault Refusal :=
  match i with
  | .add d a b => Sys2Proof.Machine.execAdd d a b s
  | .sub d a b => Sys2Proof.Machine.execSub d a b s
  | .addw d a b => Sys2Proof.Machine.execAddw d a b s
  | .subw d a b => Sys2Proof.Machine.execSubw d a b s
  | .mul d a b => Sys2Proof.Machine.execMul d a b s
  | .mulh d a b => Sys2Proof.Machine.execMulh d a b s
  | .mulhn d a b => Sys2Proof.Machine.execMulhn d a b s
  | .div d a b => Sys2Proof.Machine.execDiv d a b s
  | .divn d a b => Sys2Proof.Machine.execDivn d a b s
  | .rem d a b => Sys2Proof.Machine.execRem d a b s
  | .remn d a b => Sys2Proof.Machine.execRemn d a b s
  | .lea d a b c => Sys2Proof.Machine.execLea d a b c s
  | .and d a b => Sys2Proof.Machine.execAnd d a b s
  | .or d a b => Sys2Proof.Machine.execOr d a b s
  | .xor d a b => Sys2Proof.Machine.execXor d a b s
  | .andn d a b => Sys2Proof.Machine.execAndn d a b s
  | .orn d a b => Sys2Proof.Machine.execOrn d a b s
  | .shl d a b => Sys2Proof.Machine.execShl d a b s
  | .shr d a b => Sys2Proof.Machine.execShr d a b s
  | .sra d a b => Sys2Proof.Machine.execSra d a b s
  | .rotr d a b => Sys2Proof.Machine.execRotr d a b s
  | .min d a b => Sys2Proof.Machine.execMin d a b s
  | .max d a b => Sys2Proof.Machine.execMax d a b s
  | .minn d a b => Sys2Proof.Machine.execMinn d a b s
  | .maxn d a b => Sys2Proof.Machine.execMaxn d a b s
  | .seq d a b => Sys2Proof.Machine.execSeq d a b s
  | .sne d a b => Sys2Proof.Machine.execSne d a b s
  | .slt d a b => Sys2Proof.Machine.execSlt d a b s
  | .sltn d a b => Sys2Proof.Machine.execSltn d a b s
  | .sle d a b => Sys2Proof.Machine.execSle d a b s
  | .slen d a b => Sys2Proof.Machine.execSlen d a b s
  | .csel d a b c => Sys2Proof.Machine.execCsel d a b c s
  | .clz d a => Sys2Proof.Machine.execClz d a s
  | .ctz d a => Sys2Proof.Machine.execCtz d a s
  | .popc d a => Sys2Proof.Machine.execPopc d a s
  | .brev d a => Sys2Proof.Machine.execBrev d a s
  | .bswap d a => Sys2Proof.Machine.execBswap d a s
  | .addi d a imm => Sys2Proof.Machine.execAddi d a imm s
  | .andi d a imm => Sys2Proof.Machine.execAndi d a imm s
  | .ori d a imm => Sys2Proof.Machine.execOri d a imm s
  | .xori d a imm => Sys2Proof.Machine.execXori d a imm s
  | .shli d a n => Sys2Proof.Machine.execShli d a n s
  | .shri d a n => Sys2Proof.Machine.execShri d a n s
  | .srai d a n => Sys2Proof.Machine.execSrai d a n s
  | .slti d a imm => Sys2Proof.Machine.execSlti d a imm s
  | .sltni d a imm => Sys2Proof.Machine.execSltni d a imm s
  | .movhi d imm => Sys2Proof.Machine.execMovhi d imm s
  | .bext d a len1 pos => Sys2Proof.Machine.execBext d a len1 pos s
  | .bins d a len1 pos => Sys2Proof.Machine.execBins d a len1 pos s
  | .addl d a imm => Sys2Proof.Machine.execAddl d a imm s
  | .catl d a imm => Sys2Proof.Machine.execCatl d a imm s
  | .ld d a z off => Sys2Proof.Machine.execLd d a z off s
  | .ldn d a z off => Sys2Proof.Machine.execLdn d a z off s
  | .st v a z off => Sys2Proof.Machine.execSt v a z off s
  | .gld d a z off => Sys2Proof.Machine.execGld d a z off s
  | .gldn d a z off => Sys2Proof.Machine.execGldn d a z off s
  | .gst v a z off => Sys2Proof.Machine.execGst v a z off s
  | .b disp => Sys2Proof.Machine.execB disp s
  | .bl disp => Sys2Proof.Machine.execBl disp s
  | .beq a b disp => Sys2Proof.Machine.execBeq a b disp s
  | .bne a b disp => Sys2Proof.Machine.execBne a b disp s
  | .blt a b disp => Sys2Proof.Machine.execBlt a b disp s
  | .bge a b disp => Sys2Proof.Machine.execBge a b disp s
  | .bltn a b disp => Sys2Proof.Machine.execBltn a b disp s
  | .bgen a b disp => Sys2Proof.Machine.execBgen a b disp s
  | .jr v disp => Sys2Proof.Machine.execJr v disp s
  | .jlr v disp => Sys2Proof.Machine.execJlr v disp s
  | .bmany v disp => Sys2Proof.Machine.execBmany v disp s
  | .bmnone v disp => Sys2Proof.Machine.execBmnone v disp s
  | .nop => Sys2Proof.Machine.execNop s
  | .trap x => Sys2Proof.Machine.execTrap x s
  | .sysc x => Sys2Proof.Machine.execSysc x s
  | .brk x => Sys2Proof.Machine.execBrk x s
  | .eret => Sys2Proof.Machine.execEret s
  | .idle => Sys2Proof.Machine.execIdle s
  | .mfs d x => Sys2Proof.Machine.execMfs d x s
  | .mts a x => Sys2Proof.Machine.execMts a x s
  | .query d x => Sys2Proof.Machine.execQuery d x s
  | .tlbinv a => Sys2Proof.Machine.execTlbinv a s
  | .tlbinvAll => Sys2Proof.Machine.execTlbinvAll s
  | .wait ld st cp mx ms => Sys2Proof.Machine.execWait ld st cp mx ms s
  | .vaddF d a b k => Sys2Proof.Machine.execVaddF d a b k s
  | .vsubF d a b k => Sys2Proof.Machine.execVsubF d a b k s
  | .vmulF d a b k => Sys2Proof.Machine.execVmulF d a b k s
  | .vdivF d a b k => Sys2Proof.Machine.execVdivF d a b k s
  | .vfma d a b k => Sys2Proof.Machine.execVfma d a b k s
  | .vfms d a b k => Sys2Proof.Machine.execVfms d a b k s
  | .vfnma d a b k => Sys2Proof.Machine.execVfnma d a b k s
  | .vminF d a b k => Sys2Proof.Machine.execVminF d a b k s
  | .vmaxF d a b k => Sys2Proof.Machine.execVmaxF d a b k s
  | .vabsF d a k => Sys2Proof.Machine.execVabsF d a k s
  | .vnegF d a k => Sys2Proof.Machine.execVnegF d a k s
  | .vsqrt d a k => Sys2Proof.Machine.execVsqrt d a k s
  | .vrcp d a k => Sys2Proof.Machine.execVrcp d a k s
  | .vrsq d a k => Sys2Proof.Machine.execVrsq d a k s
  | .vexp2 d a k => Sys2Proof.Machine.execVexp2 d a k s
  | .vlog2 d a k => Sys2Proof.Machine.execVlog2 d a k s
  | .vtanh d a k => Sys2Proof.Machine.execVtanh d a k s
  | .vaddI d a b k t => Sys2Proof.Machine.execVaddI d a b k t s
  | .vsubI d a b k t => Sys2Proof.Machine.execVsubI d a b k t s
  | .vmulI d a b k t => Sys2Proof.Machine.execVmulI d a b k t s
  | .vminI d a b k t => Sys2Proof.Machine.execVminI d a b k t s
  | .vmaxI d a b k t => Sys2Proof.Machine.execVmaxI d a b k t s
  | .vand d a b k => Sys2Proof.Machine.execVand d a b k s
  | .vor d a b k => Sys2Proof.Machine.execVor d a b k s
  | .vxor d a b k => Sys2Proof.Machine.execVxor d a b k s
  | .vshl d a b k => Sys2Proof.Machine.execVshl d a b k s
  | .vshr d a b k => Sys2Proof.Machine.execVshr d a b k s
  | .vsra d a b k => Sys2Proof.Machine.execVsra d a b k s
  | .vcmpEqF d a b k => Sys2Proof.Machine.execVcmpEqF d a b k s
  | .vcmpNeF d a b k => Sys2Proof.Machine.execVcmpNeF d a b k s
  | .vcmpLtF d a b k => Sys2Proof.Machine.execVcmpLtF d a b k s
  | .vcmpLeF d a b k => Sys2Proof.Machine.execVcmpLeF d a b k s
  | .vcmpUnF d a b k => Sys2Proof.Machine.execVcmpUnF d a b k s
  | .vcmpEqI d a b k t => Sys2Proof.Machine.execVcmpEqI d a b k t s
  | .vcmpNeI d a b k t => Sys2Proof.Machine.execVcmpNeI d a b k t s
  | .vcmpLtI d a b k t => Sys2Proof.Machine.execVcmpLtI d a b k t s
  | .vcmpLeI d a b k t => Sys2Proof.Machine.execVcmpLeI d a b k t s
  | .vsel d a b k => Sys2Proof.Machine.execVsel d a b k s
  | .vbcast d a k => Sys2Proof.Machine.execVbcast d a k s
  | .vmovs d a b => Sys2Proof.Machine.execVmovs d a b s
  | .vins d a b => Sys2Proof.Machine.execVins d a b s
  | .vshuf d a p k => Sys2Proof.Machine.execVshuf d a p k s
  | .vslide d a b k => Sys2Proof.Machine.execVslide d a b k s
  | .vrng d k => Sys2Proof.Machine.execVrng d k s
  | .vredsumF d a k => Sys2Proof.Machine.execVredsumF d a k s
  | .vredmax d a k t => Sys2Proof.Machine.execVredmax d a k t s
  | .vredsumI d a k t => Sys2Proof.Machine.execVredsumI d a k t s
  | .vcvt d a k src dst => Sys2Proof.Machine.execVcvt d a k src dst s
  | .vpackLb d a f k => Sys2Proof.Machine.execVpackLb d a f k s
  | .vunpkLb d a f k => Sys2Proof.Machine.execVunpkLb d a f k s
  | .vld d a k t => Sys2Proof.Machine.execVld d a k t s
  | .vst d a k t => Sys2Proof.Machine.execVst d a k t s
  | .vlds d a b k t => Sys2Proof.Machine.execVlds d a b k t s
  | .vsts d a b k t => Sys2Proof.Machine.execVsts d a b k t s
  | .vldg d a b k t => Sys2Proof.Machine.execVldg d a b k t s
  | .vstg d a b k t => Sys2Proof.Machine.execVstg d a b k t s
  | .vldx d a b k t => Sys2Proof.Machine.execVldx d a b k t s
  | .vgld d a k t => Sys2Proof.Machine.execVgld d a k t s
  | .vgst d a k t => Sys2Proof.Machine.execVgst d a k t s
  | .mand d a b => Sys2Proof.Machine.execMand d a b s
  | .mor d a b => Sys2Proof.Machine.execMor d a b s
  | .mxor d a b => Sys2Proof.Machine.execMxor d a b s
  | .mnot d a => Sys2Proof.Machine.execMnot d a s
  | .mpop d a => Sys2Proof.Machine.execMpop d a s
  | .mfirst d a => Sys2Proof.Machine.execMfirst d a s
  | .mset d a => Sys2Proof.Machine.execMset d a s
  | .mlane d a => Sys2Proof.Machine.execMlane d a s
  | .vsetvl d a => Sys2Proof.Machine.execVsetvl d a s
  | .mcfg r a => Sys2Proof.Machine.execMcfg r a s
  | .mloadb a b => Sys2Proof.Machine.execMloadb a b s
  | .mzero b => Sys2Proof.Machine.execMzero b s
  | .mma a b => Sys2Proof.Machine.execMma a b s
  | .mmat a b => Sys2Proof.Machine.execMmat a b s
  | .macc2s a b clr f => Sys2Proof.Machine.execMacc2s a b clr f s
  | .ms2acc a b f => Sys2Proof.Machine.execMs2acc a b f s
  | .mswap a b => Sys2Proof.Machine.execMswap a b s
  | .mjoin a => Sys2Proof.Machine.execMjoin a s
  | .mleave => Sys2Proof.Machine.execMleave s
  | .shdef a b => Sys2Proof.Machine.execShdef a b s
  | .shfree a => Sys2Proof.Machine.execShfree a s
  | .shrdy a => Sys2Proof.Machine.execShrdy a s
  | .shstat d a word1 => Sys2Proof.Machine.execShstat d a word1 s
  | .shset a b n => Sys2Proof.Machine.execShset a b n s
  | .cpin a b sc acq xp => Sys2Proof.Machine.execCpin a b sc acq xp s
  | .cpout a b sc rel => Sys2Proof.Machine.execCpout a b sc rel s
  | .cpdeal a b sc acq xp => Sys2Proof.Machine.execCpdeal a b sc acq xp s
  | .cpt a b xp => Sys2Proof.Machine.execCpt a b xp s
  | .send a b sc rel => Sys2Proof.Machine.execSend a b sc rel s
  | .sendv a b sc rel => Sys2Proof.Machine.execSendv a b sc rel s
  | .bind c a => Sys2Proof.Machine.execBind c a s
  | .unbind c => Sys2Proof.Machine.execUnbind c s
  | .chmask a b => Sys2Proof.Machine.execChmask a b s
  | .done a fin keep => Sys2Proof.Machine.execDone a fin keep s
  | .inrd d a cur => Sys2Proof.Machine.execInrd d a cur s
  | .inskip d => Sys2Proof.Machine.execInskip d s
  | .callat a b sc rel => Sys2Proof.Machine.execCallat a b sc rel s
  | .cadd a b sc rel => Sys2Proof.Machine.execCadd a b sc rel s
  | .cwait a b sc acq nopend texp => Sys2Proof.Machine.execCwait a b sc acq nopend texp s
  | .crd d a pend => Sys2Proof.Machine.execCrd d a pend s
  | .cexp a b => Sys2Proof.Machine.execCexp a b s
  | .cset a b => Sys2Proof.Machine.execCset a b s
  | .axchg a b dw => Sys2Proof.Machine.execAxchg a b dw s
  | .acas a b c dw => Sys2Proof.Machine.execAcas a b c dw s
  | .aadd a b dw => Sys2Proof.Machine.execAadd a b dw s
  | .amin a b dw nat => Sys2Proof.Machine.execAmin a b dw nat s
  | .amax a b dw nat => Sys2Proof.Machine.execAmax a b dw nat s
  | .radd a b t => Sys2Proof.Machine.execRadd a b t s
  | .rmin a b t => Sys2Proof.Machine.execRmin a b t s
  | .rmax a b t => Sys2Proof.Machine.execRmax a b t s
  | .rseal a b => Sys2Proof.Machine.execRseal a b s
  | .handover h a b read => Sys2Proof.Machine.execHandover h a b read s
  | .hset h a b => Sys2Proof.Machine.execHset h a b s
  | .fence acq rel sc hs => Sys2Proof.Machine.execFence acq rel sc hs s
  | .fencea acq rel sc => Sys2Proof.Machine.execFencea acq rel sc s
  | .gstop a b => Sys2Proof.Machine.execGstop a b s
  | .gresume a b => Sys2Proof.Machine.execGresume a b s
  | .asynchronousTrap => Sys2Proof.Machine.execAsynchronousTrap s
  | .loadArrival n => Sys2Proof.Machine.execLoadArrival n s
  | .globalStoreVisible n => Sys2Proof.Machine.execGlobalStoreVisible n s
  | .accessPerformedAtHome store n lane => Sys2Proof.Machine.execAccessPerformedAtHome store n lane s
  | .translationWalk va => Sys2Proof.Machine.execTranslationWalk va s
  | .messageArrival n => Sys2Proof.Machine.execMessageArrival n s
  | .msAcknowledgement n => Sys2Proof.Machine.execMsAcknowledgement n s
  | .overflowMove => Sys2Proof.Machine.execOverflowMove s
  | .waiterRequest => Sys2Proof.Machine.execWaiterRequest s
  | .counterOperation src => Sys2Proof.Machine.execCounterOperation src s
  | .denyBitUpdate table engine => Sys2Proof.Machine.execDenyBitUpdate table engine s
  | .cwaitRelease => Sys2Proof.Machine.execCwaitRelease s
  | .cwtimeout => Sys2Proof.Machine.execCwtimeout s
  | .atomicApply n => Sys2Proof.Machine.execAtomicApply n s
  | .reductionAccept n => Sys2Proof.Machine.execReductionAccept n s
  | .sealAccept n => Sys2Proof.Machine.execSealAccept n s
  | .faultwaitExpiry asid idx => Sys2Proof.Machine.execFaultwaitExpiry asid idx s
  | .fillLanding n off len => Sys2Proof.Machine.execFillLanding n off len s
  | .releasePoint n => Sys2Proof.Machine.execReleasePoint n s
  | .visibilityPoint n => Sys2Proof.Machine.execVisibilityPoint n s
  | .copyFault n va => Sys2Proof.Machine.execCopyFault n va s
  | .remoteFill n => Sys2Proof.Machine.execRemoteFill n s
  | .mswapPairing n => Sys2Proof.Machine.execMswapPairing n s
  | .joinNotice n => Sys2Proof.Machine.execJoinNotice n s
  | .mjoinComplete plan => Sys2Proof.Machine.execMjoinComplete plan s
  | .mmatRowDelivery n => Sys2Proof.Machine.execMmatRowDelivery n s
  | .leaveNotice n => Sys2Proof.Machine.execLeaveNotice n s
  | .mxOperationStart => Sys2Proof.Machine.execMxOperationStart s
  | .mxOperationComplete => Sys2Proof.Machine.execMxOperationComplete s
  | .backgroundChecksum mac => Sys2Proof.Machine.execBackgroundChecksum mac s
  | .scrub arr addr res => Sys2Proof.Machine.execScrub arr addr res s
  | .launch func port data => Sys2Proof.Machine.execLaunch func port data s
  | .launchStart part => Sys2Proof.Machine.execLaunchStart part s
  | .seed func v => Sys2Proof.Machine.execSeed func v s
  | .mbdata func port entry data => Sys2Proof.Machine.execMbdata func port entry data s
  | .compack func v => Sys2Proof.Machine.execCompack func v s
  | .completionRecordPost func => Sys2Proof.Machine.execCompletionRecordPost func s
  | .treeReport => Sys2Proof.Machine.execTreeReport s
  | .gangClose part gid => Sys2Proof.Machine.execGangClose part gid s
  | .retirement part gid => Sys2Proof.Machine.execRetirement part gid s
  | .hostCxlMemRead port hdm len => Sys2Proof.Machine.execHostCxlMemRead port hdm len s
  | .hostCxlMemWrite port hdm bytes => Sys2Proof.Machine.execHostCxlMemWrite port hdm bytes s
  | .hostWritePerform port => Sys2Proof.Machine.execHostWritePerform port s
  | .semaRead m => Sys2Proof.Machine.execSemaRead m s
  | .semaWrite m => Sys2Proof.Machine.execSemaWrite m s
  | .unfreeze m v => Sys2Proof.Machine.execUnfreeze m v s
  | .controlWindowWrite m addr v => Sys2Proof.Machine.execControlWindowWrite m addr v s
  | .papply m part v => Sys2Proof.Machine.execPapply m part v s
  | .prepareImage => Sys2Proof.Machine.execPrepareImage s
  | .dropImage => Sys2Proof.Machine.execDropImage s
  | .removeGang => Sys2Proof.Machine.execRemoveGang s
  | .assignAsid => Sys2Proof.Machine.execAssignAsid s
  | .selectPlacementTable => Sys2Proof.Machine.execSelectPlacementTable s
  | .countersignMap => Sys2Proof.Machine.execCountersignMap s
  | .mode src => Sys2Proof.Machine.execMode src s
  | .modeChangeSwitch n => Sys2Proof.Machine.execModeChangeSwitch n s
  | .map src => Sys2Proof.Machine.execMap src s
  | .unmap src => Sys2Proof.Machine.execUnmap src s
  | .resolve src => Sys2Proof.Machine.execResolve src s
  | .abandon src => Sys2Proof.Machine.execAbandon src s
  | .freectr src => Sys2Proof.Machine.execFreectr src s
  | .handoverPerform n => Sys2Proof.Machine.execHandoverPerform n s
  | .gangStopComplete part gid => Sys2Proof.Machine.execGangStopComplete part gid s
  | .prepare part gid tr => Sys2Proof.Machine.execPrepare part gid tr s
  | .commit part gid tr => Sys2Proof.Machine.execCommit part gid tr s
  | .abort part gid tr => Sys2Proof.Machine.execAbort part gid tr s
  | .versionChangeComplete part gid => Sys2Proof.Machine.execVersionChangeComplete part gid s
  | .demandSwap part => Sys2Proof.Machine.execDemandSwap part s
  | .quiesceComplete => Sys2Proof.Machine.execQuiesceComplete s
  | .swapIn => Sys2Proof.Machine.execSwapIn s
  | .wholeGangSwap part gid => Sys2Proof.Machine.execWholeGangSwap part gid s
  | .proxyWaiterRelease => Sys2Proof.Machine.execProxyWaiterRelease s
  | .packetRouting site port lane => Sys2Proof.Machine.execPacketRouting site port lane s
  | .timeoutDetector site port lane => Sys2Proof.Machine.execTimeoutDetector site port lane s
  | .ridgeToken => Sys2Proof.Machine.execRidgeToken s
  | .gutterDelivery site port => Sys2Proof.Machine.execGutterDelivery site port s
  | .syncPulse site => Sys2Proof.Machine.execSyncPulse site s
  | .tdetcfg v => Sys2Proof.Machine.execTdetcfg v s
  | .budgetInterval => Sys2Proof.Machine.execBudgetInterval s
  | .stepChange => Sys2Proof.Machine.execStepChange s
  | .stepPauseEnd => Sys2Proof.Machine.execStepPauseEnd s
  | .fetchdutyUpdate => Sys2Proof.Machine.execFetchdutyUpdate s
  | .telemetrySample freq volt => Sys2Proof.Machine.execTelemetrySample freq volt s
  | .lossSample => Sys2Proof.Machine.execLossSample s
  | .shedStop part gid => Sys2Proof.Machine.execShedStop part gid s
  | .graceExpiry => Sys2Proof.Machine.execGraceExpiry s
  | .pcap func v => Sys2Proof.Machine.execPcap func v s
  | .pboost func v => Sys2Proof.Machine.execPboost func v s
  | .outletTemperatureHigh => Sys2Proof.Machine.execOutletTemperatureHigh s
  | .thermalShutdown => Sys2Proof.Machine.execThermalShutdown s
  | .inputVoltageFault => Sys2Proof.Machine.execInputVoltageFault s
  | .powerUp ctl puf => Sys2Proof.Machine.execPowerUp ctl puf s
  | .bootTimeout ctl => Sys2Proof.Machine.execBootTimeout ctl s
  | .selftest => Sys2Proof.Machine.execSelftest s
  | .linkDown m => Sys2Proof.Machine.execLinkDown m s
  | .hotReset m => Sys2Proof.Machine.execHotReset m s
  | .moduleReset => Sys2Proof.Machine.execModuleReset s
  | .spdmRequest nonce => Sys2Proof.Machine.execSpdmRequest nonce s
  | .heartbeatProbe site reply => Sys2Proof.Machine.execHeartbeatProbe site reply s
  | .linkCrcFailure a b => Sys2Proof.Machine.execLinkCrcFailure a b s
  | .salvage site => Sys2Proof.Machine.execSalvage site s
  | .repairRecord => Sys2Proof.Machine.execRepairRecord s
  | .repairRebuild => Sys2Proof.Machine.execRepairRebuild s
  | .repairResume => Sys2Proof.Machine.execRepairResume s
  | .unassignedEncoding w second => Sys2Proof.Machine.execUnassignedEncoding w second s
  | .fetchFault addr ecc => Sys2Proof.Machine.execFetchFault addr ecc s
  | .registerToRegisterWrite n => Sys2Proof.Machine.execRegisterToRegisterWrite n s
  | .tileCycle => Sys2Proof.Machine.execTileCycle s
  | .waferTimeTick => Sys2Proof.Machine.execWaferTimeTick s
  | .outletTemperatureNormal => Sys2Proof.Machine.execOutletTemperatureNormal s
  | .requestKindNotListed src => Sys2Proof.Machine.execRequestKindNotListed src s

end Sys2Proof.Machine
end

