-- ==== Sys2Proof/Machine/Step.lean ====
section
/-! DEFINITION. The step of the module: one turn. A turn is one cycle of a virtual tile, or one operation or event; where none is
listed, Config.schedule names the next one (log 2, DESIGN CHOICE). -/

namespace Sys2Proof.Machine

/-- Continues with a next state. -/
def Out.andThen (o : Out) (f : State → Out) : Out :=
  match o with
  | .next s => f s
  | .fault r => .fault r
  | .refused r => .refused r

/-- The writes and arrivals that the end of a cycle owes, one step each; the first argument bounds them. -/
def finishCycle : Nat → State → Out
  | 0, s => .next s
  | n + 1, s =>
    match owedStep s with
    | some o => Out.andThen o (finishCycle n)
    | none => .next s

/-- The end of a cycle: it is counted, its results are written, an engine operation whose last busy cycle it is leaves MX (R241), an
MACC2S in progress writes words (R167), and the next cycle begins (R238, R251). -/
def endOfCycle (s : State) : Out :=
  Out.andThen (execTileCycle s) fun s =>
    Out.andThen (finishCycle (s.tile.iss.writes.length + s.tile.ops.loads.length) s) fun s =>
      Out.andThen (execMxOperationComplete s) fun s =>
        .next (s.upd Tile.endCycle).writeEarly

/-- What stands at issue: an instruction, or a word or a fetch that traps (R7, R24). -/
def issueFetched (f : Fetched) (s : State) : Out :=
  match f with
  | .ok i => exec i s
  | .unassigned w second => execUnassignedEncoding w second s
  | .fault a ecc => execFetchFault a ecc s

/-- One cycle of the current tile (R237): a step change that is due pauses the clock first (R250), a new DUTY takes effect at the start
of a window (R249); then the engine and the scratchpad (R241, R246), what stands at issue, and the end of the cycle. -/
def tileTurn (s : State) : Out :=
  Out.andThen (execStepChange s) fun s =>
    Out.andThen (execFetchdutyUpdate s) fun s =>
      Out.andThen (startCycle s) fun s =>
        match s.tile.plan s.drawn with
        | .off => .next s
        | .stall ev => endOfCycle ((if ev = 2 then s.noteAcquire else s).stall ev)
        | .tail d x => endOfCycle (s.upd fun t => t.pairTail d x)
        | .stop => endOfCycle (s.stopHere.stall 15)
        | .pending => Out.andThen (execAsynchronousTrap s) endOfCycle
        | .issue f => Out.andThen (issueFetched f s.fetched) endOfCycle

/-- One turn: a cycle of the tile, or an operation or event. Words of the instruction tables reach exec by fetch alone. -/
def takeTurn (t : Turn) (s : State) : Out :=
  let s := match t.who with
    | some id => s.focus id
    | none => s
  match t.event with
  | none | some .tileCycle => tileTurn s
  | some e => if e.isWord then .refused .wordAsEvent else exec e s

/-- The step of the module. -/
def step (s : State) : Host.Outcome State Fault Refusal :=
  if s.svc.off then .fault .moduleShutDown
  else
    match s.turns with
    | [] => .next { s with turns := [Config.schedule s.drawn], drawn := s.drawn + 1 }
    | t :: rest => takeTurn t { s with turns := rest }

/-- The state with an instruction stored at the PC of the current tile, which is made resident and running, so that the next
step runs it (log 7, DESIGN CHOICE). -/
def State.withFetchWord (s : State) (nbits w : Nat) : State :=
  let t := s.tile
  let base : BitVec 19 := if t.ex.pc.toNat + 8 ≤ t.regs.shbase.toNat then t.regs.shbase else BitVec.ofNat 19 0x7FFC0
  let pc : Word := if t.ex.pc.toNat % 4 = 0 ∧ t.ex.pc.toNat + 8 ≤ base.toNat then t.ex.pc else 0
  let duty := if t.slotAllowed then t.ni.duty else 16
  let t := { t with
    regs := { t.regs with shbase := base }
    ex := { t.ex with pc := pc, inh := true, idle := false, cw := none, pends := [], branch := none }
    pad := { t.pad with bytes := Memory.write t.pad.bytes pc.toNat (tableBytes nbits w), old := [], bad := [], seen := [] }
    iss := { t.iss with bubble := min t.iss.bubble t.iss.cycle, tail := none, stall := none, ending := false
                        fetch := { t.iss.fetch with blocks := [(pc.toNat / 32, t.iss.cycle), ((pc.toNat + 4) / 32, t.iss.cycle)] } }
    ni := { t.ni with duty := duty, dutyNext := none, stepNext := none, paused := false }
    pl := { t.pl with res := .resident, stopDue := false, stopped := false, finished := false } }
  { s with tile := t, turns := [⟨none, none⟩], svc := { s.svc with off := false } }

end Sys2Proof.Machine
end

