-- ==== Sys2Proof/Safety.lean ====
section
/-! DEFINITION. The terms in which the statements speak: when an instruction may issue (R237), what it leaves unchanged, and the
invariants of the module. -/

namespace Sys2Proof.Machine

/-! ## Issue -/

/-- Conditions 3 to 5 of R237: no register that the instruction names awaits an earlier register-to-register write, its unit is free,
its class is below its limit, and so are the handles whose counts it raises. -/
def Tile.canIssue (t : Tile) (n : Need) : Prop :=
  (∀ r ∈ n.regs, t.awaits r = false) ∧ t.iss.units.free n.unit ≤ t.iss.cycle ∧
  (∀ c, n.cls = some c → t.count c < c.limit) ∧
  ∀ k : Fin 8, n.hs.getLsbD k.val = true → t.hcount k.val < 255

/-! ## Frames -/

/-- Everything of the module but the current tile is unchanged: global memory, sync engines, fabric, gangs, functions, host side,
power, repair and the other virtual tiles. -/
def SameModule (s t : State) : Prop := t = { s with tile := t.tile }

/-- The virtual tile keeps its identity, inbox, shingles, engine, physical tile and place. -/
def Tile.SameUnits (a b : Tile) : Prop :=
  b.id = a.id ∧ b.gang = a.gang ∧ b.inb = a.inb ∧ b.eng = a.eng ∧ b.ni = a.ni ∧ b.pl = a.pl

/-- Every byte of the raw scratchpad reads as before. -/
def Tile.SamePad (a b : Tile) : Prop := b.pad.bad = a.pad.bad ∧ ∀ x, Memory.byte b.pad.bytes x = Memory.byte a.pad.bytes x

/-- Every byte of global memory, of the line buffers and of the inbox view reads as before. -/
def SameBytes (s t : State) : Prop :=
  (∀ x, Memory.byte t.mem.hbm x = Memory.byte s.mem.hbm x) ∧ (∀ x, Memory.byte t.sync.lineMem x = Memory.byte s.sync.lineMem x) ∧
  ∀ x, Memory.byte t.tile.inb.bytes x = Memory.byte s.tile.inb.bytes x

/-- Every scalar register but those listed reads as before (R11). -/
def Tile.SameG (a b : Tile) (but : List GReg) : Prop := ∀ r, r ∉ but → b.g r = a.g r

/-- Every vector register reads as before (R12). -/
def Tile.SameV (a b : Tile) : Prop := ∀ r, b.v r = a.v r

/-- Every mask register reads as before (R13). -/
def Tile.SameM (a b : Tile) : Prop := ∀ r, b.m r = a.m r

/-- Range handles, VL, FMODE, FFLAGS, PSEL, the draw counter, the sticky bits of MSTAT, TVEC, SHBASE and the trap record are
unchanged; the counters PERF0 to PERF7 may count (R20). -/
def Tile.SameSpecial (a b : Tile) : Prop :=
  b.regs = { a.regs with g := b.regs.g, v := b.regs.v, m := b.regs.m, perf := b.regs.perf }

/-- PC moves past n words; STATUS, the current message, IDLE, CWAIT and the pending traps are unchanged. -/
def Tile.NextPc (a b : Tile) (n : Nat) : Prop :=
  b.ex = { a.ex with pc := a.ex.pc + BitVec.ofNat 64 (4 * n), branch := none, tvecFetch := false }

/-- The registers of the tile but for the scalar registers listed are unchanged. -/
def Tile.SameRegs (a b : Tile) (but : List GReg) : Prop := a.SameG b but ∧ a.SameV b ∧ a.SameM b ∧ a.SameSpecial b

/-- An instruction of n words that changes nothing but the scalar registers listed, the PERF counters and what issue keeps
(results not yet written, unit occupancy, the stall event). -/
def Frame (s t : State) (but : List GReg) (n : Nat) : Prop :=
  SameModule s t ∧ s.tile.SameUnits t.tile ∧ t.tile.ops = s.tile.ops ∧ s.tile.SamePad t.tile ∧ s.tile.SameRegs t.tile but ∧
  s.tile.NextPc t.tile n

/-- Everything of the module but the current tile and the flits of its requests is unchanged; moves counts the lanes that the flits have
chosen (log 60). -/
def SameButFlits (s t : State) : Prop :=
  t = { s with tile := t.tile, fab := { s.fab with flits := t.fab.flits, moves := t.fab.moves } }

/-- The NI of b holds the requests that that of a held, and no others but requests of the operation that a has just issued (R198,
R305). -/
def Tile.Keeps (a b : Tile) : Prop :=
  ∃ more, b.ops.kept = a.ops.kept ++ more ∧ ∀ k ∈ more, k.1 = a.ops.stamp

/-- The physical tile keeps what it holds; the micro-TLB holds the same translations, whose order of use may change (R340), and what was
fetched for the access at issue alone may be let go. -/
def Tile.SamePhys (a b : Tile) : Prop :=
  b.ni = { a.ni with tlb := b.ni.tlb, noLeaf := b.ni.noLeaf, got := b.ni.got } ∧ b.ni.tlb.Perm a.ni.tlb

/-- An instruction of one word that only adds to the outstanding operations of the tile: nothing is written but what its operation
and its requests say, which leave or are held. -/
def Enters (s t : State) : Prop :=
  SameButFlits s t ∧ t.tile.id = s.tile.id ∧ t.tile.gang = s.tile.gang ∧ t.tile.inb = s.tile.inb ∧ t.tile.pl = s.tile.pl ∧
  s.tile.SamePhys t.tile ∧ s.tile.SamePad t.tile ∧ s.tile.SameRegs t.tile [] ∧ s.tile.NextPc t.tile 1 ∧
  t.tile.iss.writes = s.tile.iss.writes ∧ s.tile.Keeps t.tile

/-- gd has received a result at issue: g0 discards it (R11). -/
def Tile.Has (t : Tile) (d : GReg) (x : Word) : Prop := t.g d = if d = 0 then 0 else x

/-- A result of latency l is on its way: it is written at the end of the l-th cycle, that of issue being the first (R238). -/
def Tile.Awaiting (a b : Tile) (l : Nat) (w : RegWrite) (flags : Option FFlags) : Prop :=
  b.iss.writes = a.iss.writes ++ [⟨a.iss.cycle + l - 1, w, flags⟩]

/-- A tile has taken a trap (R38): the trap record, S, TVEC; INH, CHAN, the current message, the registers, the scratchpad and the counts
are as before, and the translations fetched for the access are let go (R340). entry is the cycle of the entry, for the bubble of R242. -/
def Tile.Traps (a b : Tile) (cause : Nat) (tval tpc tinfo : Word) (entry : Nat) : Prop :=
  b.id = a.id ∧ b.gang = a.gang ∧ b.inb = a.inb ∧ b.eng = a.eng ∧ b.pl = a.pl ∧ b.ops = a.ops ∧
  b.ni = { a.ni with noLeaf := [], got := [] } ∧ a.SamePad b ∧ a.SameG b [] ∧ a.SameV b ∧ a.SameM b ∧
  b.regs = { a.regs with
    perf := b.regs.perf
    trap := { tpc := tpc, tcause := BitVec.ofNat 64 cause, tval := tval, tinfo := tinfo, tstat := if a.ex.prv then 5 else 0 } } ∧
  b.ex = { a.ex with
    pc := a.regs.tvec.zeroExtend 64, prv := true, branch := none, tvecFetch := true, idle := false, cw := none
    withdrawn := none, acqWait := none } ∧
  b.iss.writes = a.iss.writes ∧ b.iss.bubble = entry + 4

/-- A trap has been taken (R38), and the rest of the module, global memory with it, is as before. -/
def TrapTaken (s t : State) (cause : Nat) (tval tpc tinfo : Word) (entry : Nat) : Prop :=
  SameModule s t ∧ s.tile.Traps t.tile cause tval tpc tinfo entry

end Sys2Proof.Machine
end

