-- ==== Sys2Proof/Certificates/Slice0/Obligations.lean ====
section
/-! DEFINITION. The statements for the provers. Each docstring names the rules of spec/ that its statement formalises. -/

open Sys2Proof Sys2Proof.Machine

/-! ## Scalar instructions -/

/-- An instruction of class ALU issues and writes gd at once (R94, R239), and changes nothing else. -/
def AluResult (s : State) (i : Instr) (d : GReg) (reads : List RegName) (x : Word) : Prop :=
  s.tile.canIssue { regs := .g d :: reads, reads := reads } →
    ∃ t, exec i s = .next t ∧ Frame s t [d] 1 ∧ t.tile.Has d x ∧ t.tile.iss.writes = s.tile.iss.writes

/-- R95, R98: sums, differences and addresses. -/
def Obligations.AluSums : Prop :=
  ∀ (s : State) (d a b : GReg) (c : Fin 32) (imm : BitVec 16),
    let x := s.tile.g a
    let y := s.tile.g b
    AluResult s (.add d a b) d [.g a, .g b] (BitVec.ofInt 64 (x.toInt + y.toInt)) ∧
    AluResult s (.sub d a b) d [.g a, .g b] (BitVec.ofInt 64 (x.toInt - y.toInt)) ∧
    AluResult s (.addw d a b) d [.g a, .g b] ((BitVec.ofInt 32 (x.toInt + y.toInt)).signExtend 64) ∧
    AluResult s (.subw d a b) d [.g a, .g b] ((BitVec.ofInt 32 (x.toInt - y.toInt)).signExtend 64) ∧
    AluResult s (.lea d a b c) d [.g a, .g b] (BitVec.ofNat 64 (x.toNat + y.toNat * 2 ^ c.val)) ∧
    AluResult s (.addi d a imm) d [.g a] (BitVec.ofInt 64 (x.toInt + imm.toInt)) ∧
    AluResult s (.movhi d imm) d [] (BitVec.ofInt 64 (imm.toInt * 2 ^ 16))

/-- R95, R98, R99: logic and bit fields, bit by bit. -/
def Bitwise : Prop :=
  ∀ (s : State) (d a b : GReg) (imm : BitVec 16) (l p : Fin 64),
    let x := s.tile.g a
    let y := s.tile.g b
    let bits (f : Nat → Bool) (w : Word) : Prop := ∀ k, k < 64 → w.getLsbD k = f k
    let one (i : Instr) (reads : List RegName) (f : Nat → Bool) : Prop := ∃ w, bits f w ∧ AluResult s i d reads w
    one (.and d a b) [.g a, .g b] (fun k => x.getLsbD k && y.getLsbD k) ∧
    one (.or d a b) [.g a, .g b] (fun k => x.getLsbD k || y.getLsbD k) ∧
    one (.xor d a b) [.g a, .g b] (fun k => x.getLsbD k ^^ y.getLsbD k) ∧
    one (.andn d a b) [.g a, .g b] (fun k => x.getLsbD k && !y.getLsbD k) ∧
    one (.orn d a b) [.g a, .g b] (fun k => x.getLsbD k || !y.getLsbD k) ∧
    one (.andi d a imm) [.g a] (fun k => x.getLsbD k && imm.getLsbD (min k 15)) ∧
    one (.ori d a imm) [.g a] (fun k => x.getLsbD k || imm.getLsbD k) ∧
    one (.xori d a imm) [.g a] (fun k => x.getLsbD k ^^ imm.getLsbD k) ∧
    (p.val + l.val < 64 →
      one (.bext d a l p) [.g a] (fun k => decide (k ≤ l.val) && x.getLsbD (p.val + k)) ∧
      one (.bins d a l p) [.g a, .g d] (fun k =>
        if p.val ≤ k ∧ k ≤ p.val + l.val then x.getLsbD (k - p.val) else (s.tile.g d).getLsbD k))

/-- R97, R98: shifts and the rotate. -/
def Obligations.AluShifts : Prop :=
  ∀ (s : State) (d a b : GReg) (k : Fin 64),
    let x := s.tile.g a
    let n := (s.tile.g b).toNat
    AluResult s (.shl d a b) d [.g a, .g b] (if n ≥ 64 then 0 else BitVec.ofNat 64 (x.toNat * 2 ^ n)) ∧
    AluResult s (.shr d a b) d [.g a, .g b] (if n ≥ 64 then 0 else BitVec.ofNat 64 (x.toNat / 2 ^ n)) ∧
    AluResult s (.sra d a b) d [.g a, .g b]
      (if n ≥ 64 then (if x.msb then BitVec.allOnes 64 else 0) else BitVec.ofInt 64 (x.toInt / 2 ^ n)) ∧
    AluResult s (.rotr d a b) d [.g a, .g b]
      (BitVec.ofNat 64 (x.toNat / 2 ^ (n % 64)) ||| BitVec.ofNat 64 (x.toNat * 2 ^ (64 - n % 64))) ∧
    AluResult s (.shli d a k) d [.g a] (BitVec.ofNat 64 (x.toNat * 2 ^ k.val)) ∧
    AluResult s (.shri d a k) d [.g a] (BitVec.ofNat 64 (x.toNat / 2 ^ k.val)) ∧
    AluResult s (.srai d a k) d [.g a] (BitVec.ofInt 64 (x.toInt / 2 ^ k.val))

/-- R95, R98: comparisons, least and greatest, and CSEL. -/
def Obligations.AluCompares : Prop :=
  ∀ (s : State) (d a b c : GReg) (imm : BitVec 16),
    let x := s.tile.g a
    let y := s.tile.g b
    let truth (p : Prop) [Decidable p] : Word := if p then 1 else 0
    AluResult s (.min d a b) d [.g a, .g b] (if x.toInt ≤ y.toInt then x else y) ∧
    AluResult s (.max d a b) d [.g a, .g b] (if x.toInt ≥ y.toInt then x else y) ∧
    AluResult s (.minn d a b) d [.g a, .g b] (if x.toNat ≤ y.toNat then x else y) ∧
    AluResult s (.maxn d a b) d [.g a, .g b] (if x.toNat ≥ y.toNat then x else y) ∧
    AluResult s (.seq d a b) d [.g a, .g b] (truth (x = y)) ∧
    AluResult s (.sne d a b) d [.g a, .g b] (truth (x ≠ y)) ∧
    AluResult s (.slt d a b) d [.g a, .g b] (truth (x.toInt < y.toInt)) ∧
    AluResult s (.sltn d a b) d [.g a, .g b] (truth (x.toNat < y.toNat)) ∧
    AluResult s (.sle d a b) d [.g a, .g b] (truth (x.toInt ≤ y.toInt)) ∧
    AluResult s (.slen d a b) d [.g a, .g b] (truth (x.toNat ≤ y.toNat)) ∧
    AluResult s (.slti d a imm) d [.g a] (truth (x.toInt < imm.toInt)) ∧
    AluResult s (.sltni d a imm) d [.g a] (truth (x.toNat < (imm.signExtend 64).toNat)) ∧
    AluResult s (.csel d a b c) d [.g a, .g b, .g c] (if s.tile.g c ≠ 0 then x else y)

/-- R95: counts of bits, and reversals. -/
def BitCounts : Prop :=
  ∀ (s : State) (d a : GReg),
    let x := s.tile.g a
    (∃ n ≤ 64, AluResult s (.clz d a) d [.g a] (BitVec.ofNat 64 n) ∧ (∀ k, 64 - n ≤ k → x.getLsbD k = false) ∧
      (n < 64 → x.getLsbD (63 - n) = true)) ∧
    (∃ n ≤ 64, AluResult s (.ctz d a) d [.g a] (BitVec.ofNat 64 n) ∧ (∀ k, k < n → x.getLsbD k = false) ∧
      (n < 64 → x.getLsbD n = true)) ∧
    AluResult s (.popc d a) d [.g a] (BitVec.ofNat 64 ((List.range 64).countP fun k => x.getLsbD k)) ∧
    (∃ w : Word, AluResult s (.brev d a) d [.g a] w ∧ ∀ k, k < 64 → w.getLsbD k = x.getLsbD (63 - k)) ∧
    (∃ w : Word, AluResult s (.bswap d a) d [.g a] w ∧ ∀ k, k < 8 → ∀ j, j < 8 → w.getLsbD (8 * k + j) = x.getLsbD (8 * (7 - k) + j))

/-- R95, R98, R99: logic, bit fields, counts of bits and reversals. -/
def Obligations.AluLogic : Prop := Bitwise ∧ BitCounts

/-- A result of latency l is on its way at issue. -/
def LateResult (s : State) (i : Instr) (d : GReg) (reads : List RegName) (u : UnitKind) (l : Nat) (x : Word) : Prop :=
  s.tile.canIssue { regs := .g d :: reads, reads := reads, unit := u } →
    ∃ t, exec i s = .next t ∧ Frame s t [] 1 ∧ s.tile.Awaiting t.tile l (.g d x) none

/-- R95: products, of class MULT with latency 3. -/
def Obligations.Products : Prop :=
  ∀ (s : State) (d a b : GReg),
    let x := s.tile.g a
    let y := s.tile.g b
    LateResult s (.mul d a b) d [.g a, .g b] .other 3 (BitVec.ofNat 64 (x.toNat * y.toNat)) ∧
    LateResult s (.mulh d a b) d [.g a, .g b] .other 3 (BitVec.ofInt 64 (x.toInt * y.toInt / 2 ^ 64)) ∧
    LateResult s (.mulhn d a b) d [.g a, .g b] .other 3 (BitVec.ofNat 64 (x.toNat * y.toNat / 2 ^ 64))

/-- R96: division truncates toward zero and never traps. -/
def Obligations.Division : Prop :=
  ∀ (s : State) (d a b : GReg),
    let x := s.tile.g a
    let y := s.tile.g b
    let least : Word := 0x8000000000000000
    let corner := x = least ∧ y = BitVec.allOnes 64
    LateResult s (.div d a b) d [.g a, .g b] .divider 24
      (if y = 0 then BitVec.allOnes 64 else if corner then x else BitVec.ofInt 64 (x.toInt.tdiv y.toInt)) ∧
    LateResult s (.rem d a b) d [.g a, .g b] .divider 24
      (if y = 0 then x else if corner then 0 else BitVec.ofInt 64 (x.toInt - y.toInt * x.toInt.tdiv y.toInt)) ∧
    LateResult s (.divn d a b) d [.g a, .g b] .divider 24
      (if y = 0 then BitVec.allOnes 64 else BitVec.ofNat 64 (x.toNat / y.toNat)) ∧
    LateResult s (.remn d a b) d [.g a, .g b] .divider 24 (if y = 0 then x else BitVec.ofNat 64 (x.toNat % y.toNat))

/-- R77, R78, R100: a long-immediate pair issues as one instruction of two words, and its result waits for the cycle of its TAIL. -/
def PairsIssue : Prop :=
  ∀ (s : State) (d a : GReg) (imm : BitVec 36),
    let pair (i : Instr) (x : Word) : Prop :=
      s.tile.canIssue { regs := [.g d, .g a], reads := [.g a] } →
        ∃ t, exec i s = .next t ∧ Frame s t [] 2 ∧ t.tile.iss.tail = some (d, x) ∧ t.tile.iss.writes = s.tile.iss.writes
    pair (.addl d a imm) (BitVec.ofInt 64 ((s.tile.g a).toInt + imm.toInt)) ∧
    pair (.catl d a imm) (BitVec.ofNat 64 ((s.tile.g a).toNat * 2 ^ 28 + imm.toNat % 2 ^ 28))

/-- R242, R249: the turn of a tile with a result that waits for its TAIL: in an allowed fetch slot gd is written, and the TAIL has passed;
in another, nothing is written, and the cycle counts event 2. No step change and no new DUTY is due. -/
def TailWrites : Prop :=
  ∀ (s s' : State) (rest : List Turn) (d : GReg) (x : Word),
    let t := s'.tile
    s.svc.off = false → s.turns = ⟨none, none⟩ :: rest → s.tile.ni.stepNext = none → s.tile.ni.dutyNext = none →
    startCycle { s with turns := rest } = .next s' → t.counts = true → t.iss.ending = false → t.iss.tail = some (d, x) →
    (t.slotAllowed = true → ∃ u, step s = endOfCycle u ∧ SameModule s' u ∧
      u.tile = { t with regs := u.tile.regs, iss := { t.iss with tail := none, stall := none } } ∧ u.tile.Has d x ∧
      t.SameRegs u.tile [d]) ∧
    (t.slotAllowed = false → step s = endOfCycle (s'.stall 2))

/-- R77, R78, R100, R242: a long-immediate pair issues as one instruction of two words; gd is written in the cycle of its TAIL. -/
def Obligations.LongImmediates : Prop := PairsIssue ∧ TailWrites

/-! ## Control flow -/

/-- A branch that is taken exactly when c holds (R101, R102): the target or the next word, the bubble of two cycles (R242), and the
link in g31 where it has one. -/
def BranchResult (s : State) (i : Instr) (reads : List RegName) (link : Bool) (c : Prop) (target : Word) : Prop :=
  s.tile.canIssue { regs := if link then .g 31 :: reads else reads, reads := reads } →
    ∃ t, exec i s = .next t ∧ SameModule s t ∧ s.tile.SameUnits t.tile ∧ t.tile.ops = s.tile.ops ∧ s.tile.SamePad t.tile ∧
      s.tile.SameV t.tile ∧ s.tile.SameM t.tile ∧ s.tile.SameSpecial t.tile ∧ t.tile.iss.writes = s.tile.iss.writes ∧
      s.tile.SameG t.tile (if link then [31] else []) ∧ (link = true → t.tile.g 31 = s.tile.ex.pc + 4) ∧
      (c → t.tile.ex = { s.tile.ex with pc := target, branch := some s.tile.ex.pc, tvecFetch := false } ∧
        t.tile.iss.bubble = s.tile.iss.cycle + 3) ∧
      (¬c → s.tile.NextPc t.tile 1 ∧ t.tile.iss.bubble = s.tile.iss.bubble)

/-- R102, R103: every branch, its target, when it is taken, and its link. -/
def Obligations.Branches : Prop :=
  ∀ (s : State) (a b : GReg) (m : MReg) (j : BitVec 26) (e : BitVec 16),
    let x := s.tile.g a
    let y := s.tile.g b
    let rel (k : Int) : Word := s.tile.ex.pc + BitVec.ofInt 64 (k * 4)
    let dest : Word := x + BitVec.ofInt 64 (e.toInt * 4)
    let lane : Prop := ∃ k : Fin 16, k.val < s.tile.regs.vl.val ∧ (s.tile.m m).getLsbD k.val = true
    BranchResult s (.b j) [] false True (rel j.toInt) ∧
    BranchResult s (.bl j) [] true True (rel j.toInt) ∧
    BranchResult s (.beq a b e) [.g a, .g b] false (x = y) (rel e.toInt) ∧
    BranchResult s (.bne a b e) [.g a, .g b] false (x ≠ y) (rel e.toInt) ∧
    BranchResult s (.blt a b e) [.g a, .g b] false (x.toInt < y.toInt) (rel e.toInt) ∧
    BranchResult s (.bge a b e) [.g a, .g b] false (x.toInt ≥ y.toInt) (rel e.toInt) ∧
    BranchResult s (.bltn a b e) [.g a, .g b] false (x.toNat < y.toNat) (rel e.toInt) ∧
    BranchResult s (.bgen a b e) [.g a, .g b] false (x.toNat ≥ y.toNat) (rel e.toInt) ∧
    BranchResult s (.jr a e) [.g a] false True dest ∧
    BranchResult s (.jlr a e) [.g a] true True dest ∧
    BranchResult s (.bmany m e) [.m m] false lane (rel e.toInt) ∧
    BranchResult s (.bmnone m e) [.m m] false (¬lane) (rel e.toInt)

/-! ## System instructions -/

/-- The indexes that the table of R15 lists. -/
def Listed (x : Nat) : Prop :=
  x ≤ 0x00A ∨ x = 0x010 ∨ x = 0x011 ∨ 0x018 ≤ x ∧ x ≤ 0x01B ∨ x = 0x020 ∨ x = 0x021 ∨ x = 0x028 ∨ x = 0x029 ∨ 0x030 ≤ x ∧ x ≤ 0x038 ∨
  0x040 ≤ x ∧ x ≤ 0x044 ∨ 0x050 ≤ x ∧ x ≤ 0x05F ∨ 0x100 ≤ x ∧ x ≤ 0x107 ∨ 0x200 ≤ x ∧ x ≤ 0x23F ∨ 0x300 ≤ x ∧ x ≤ 0x37F

/-- R15: the access to every listed index at U and at S, and none to another: TVEC and the trap record are hidden at U and read-write at
S, SHBASE is read-only at U; FMODE, FFLAGS, VL, PSEL, PERF0 to PERF7 and MSTAT are read-write, and all others read-only, at both. -/
def AccessColumns : Prop :=
  ∀ (t : Tile) (x : Nat),
    let saved : Prop := 0x005 ≤ x ∧ x ≤ 0x00A
    let both : Prop := x = 0x010 ∨ x = 0x011 ∨ x = 0x01A ∨ 0x030 ≤ x ∧ x ≤ 0x038 ∨ x = 0x040
    (¬Listed x → t.access x = none) ∧
    (saved → t.access x = some (if t.ex.prv then .readWrite else .hidden)) ∧
    (both → t.access x = some .readWrite) ∧
    (x = 0x041 → t.access x = some (if t.ex.prv then .readWrite else .readOnly)) ∧
    (Listed x → ¬saved → ¬both → x ≠ 0x041 → t.access x = some .readOnly)

/-- R15, R116, R120 to R122: NOP; MFS and MTS of every listed register that the privilege may reach, and their ILLEGAL trap at an index
that is not listed; QUERY. -/
def RegisterMoves : Prop :=
  ∀ (s : State) (d a : GReg) (x : BitVec 12),
    (∃ t, exec .nop s = .next t ∧ Frame s t [] 1 ∧ t.tile.iss.writes = s.tile.iss.writes) ∧
    (∀ r, s.tile.access x.toNat = some r → r ≠ .hidden → (x = 0x011 → ∀ w ∈ s.tile.iss.writes, w.flags = none) →
      LateResult s (.mfs d x) d [] .other 2 (s.readReg x.toNat) ∧
      (s.tile.canIssue { regs := [.g a], reads := [.g a] } →
        ∃ t, exec (.mts a x) s = .next t ∧ Frame s t [] 1 ∧
          (r = .readWrite → s.tile.Awaiting t.tile 1 (.sr x.toNat (s.tile.g a)) none) ∧
          (r = .readOnly → t.tile.iss.writes = s.tile.iss.writes))) ∧
    (¬Listed x.toNat → s.tile.ex.cw = none →
      let step : Word := BitVec.ofNat 64 (s.tile.ni.step.val * 2 ^ 14)
      (s.tile.canIssue { regs := [.g d] } →
        ∃ t, exec (.mfs d x) s = .next t ∧ TrapTaken s t 0x01 (instrWord (.mfs d x)) s.tile.ex.pc step s.tile.iss.cycle) ∧
      (s.tile.canIssue { regs := [.g a], reads := [.g a] } →
        ∃ t, exec (.mts a x) s = .next t ∧ TrapTaken s t 0x01 (instrWord (.mts a x)) s.tile.ex.pc step s.tile.iss.cycle)) ∧
    LateResult s (.query d x) d [] .other 2 (queryWord (s.part s.tile.id.part).gov x.toNat)

/-- R15, R116, R120 to R122: the access columns of the state registers, and the instructions that move them. -/
def Obligations.StateMoves : Prop := AccessColumns ∧ RegisterMoves

/-- R123, R124: the words of the leaves that no mask covers, and of those that one does. -/
def QueryWords : Prop :=
  ∀ r : PartRec,
    queryWord r 0 = 0x10007 ∧
    (queryWord r 1).toNat % 256 = 1 ∧
    (∀ k : Fin 4, (queryWord r 1).toNat / 2 ^ (8 * (k.val + 1)) % 256 = if r.profmask.getLsbD k.val then 0 else 1) ∧
    (∀ leaf, 2 ≤ leaf → leaf ≤ 7 → r.leafmask.getLsbD leaf = true → queryWord r leaf = 0) ∧
    (r.leafmask.getLsbD 2 = false → queryWord r 2 = 0x0100004001000200) ∧
    (r.leafmask.getLsbD 3 = false → queryWord r 3 = 0x4008102020084040) ∧
    (r.leafmask.getLsbD 4 = false → queryWord r 4 = 0x00003F1000191038) ∧
    (r.leafmask.getLsbD 5 = false → queryWord r 5 = 0x0B540A8C09C40320) ∧
    (r.leafmask.getLsbD 6 = false → queryWord r 6 = 0x00000040404007D0) ∧
    (r.leafmask.getLsbD 7 = false → queryWord r 7 = 0x10001 ∨ queryWord r 7 = 0x20001) ∧
    ∀ leaf, leaf > 7 → queryWord r leaf = 0

/-- R15 to R21: what MFS reads of the registers that are one word or one field, of the identity, the status and the counts. -/
def StatusWords : Prop :=
  ∀ s : State,
    let t := s.tile
    let bit (b : Bool) (k : Nat) : Nat := if b then 2 ^ k else 0
    s.readReg 0x000 = BitVec.ofNat 64 (t.pl.phys % 2 ^ 16) ∧
    s.readReg 0x001 = BitVec.ofNat 64 (t.id.vt % 2 ^ 24) ∧
    s.readReg 0x002 = BitVec.ofNat 64 (bit t.gang.det 23 + t.gang.cls.val * 2 ^ 16 + t.id.gid) ∧
    s.readReg 0x003 = BitVec.ofNat 64 (t.gang.asid % 2 ^ 12) ∧ s.readReg 0x005 = BitVec.ofNat 64 t.regs.tvec.toNat ∧
    s.readReg 0x010 = BitVec.ofNat 64 t.regs.fmode.val ∧ s.readReg 0x011 = BitVec.ofNat 64 t.regs.fflags.toNat ∧
    s.readReg 0x019 = 16 ∧ s.readReg 0x01B = 0x1040328080104040 ∧ s.readReg 0x020 = BitVec.ofNat 64 s.tileTime ∧
    s.readReg 0x021 = t.gang.gseed ∧ s.readReg 0x028 = BitVec.ofNat 64 t.ni.step.val ∧ s.readReg 0x029 = BitVec.ofNat 64 t.ni.duty ∧
    s.readReg 0x030 = t.regs.psel ∧ s.readReg 0x041 = BitVec.ofNat 64 t.regs.shbase.toNat ∧
    s.readReg 0x040 = BitVec.ofNat 64 (bit t.regs.mxe 3 + bit t.regs.nanSeen 2 + bit t.regs.ovfSeen 1 + if t.ops.mx = [] then 0 else 1) ∧
    (t.ex.inh = false → s.readReg 0x042 = BitVec.ofNat 64 t.inb.slots.length) ∧
    (t.ex.inh = true → s.readReg 0x042 = BitVec.ofNat 64 ((match t.ex.curSlot with | some c => c.val * 2 ^ 32 | none => 0) +
      (t.inb.slots.countP fun x => decide (x.chan = t.ex.chan)) * 2 ^ 16 + t.inb.slots.length)) ∧
    ((∀ k < 8, t.hcount k < 256) → ∀ k < 8, (s.readReg 0x044).toNat / 2 ^ (8 * k) % 256 = t.hcount k)

/-- R25, R29, R31: the words of the handler table, of the shingles, and of the truss membership. -/
def TableWords : Prop :=
  ∀ s : State,
    let t := s.tile
    let bit (b : Bool) (k : Nat) : Nat := if b then 2 ^ k else 0
    s.readReg 0x106 = BitVec.ofNat 64 (bit t.eng.joined 19 + t.eng.pos.val * 2 ^ 16 + t.eng.plan.toNat) ∧ s.readReg 0x107 = 0 ∧
    (∀ c : Fin 64, let e := t.inb.chans.get c
      e.quota ≤ 256 → e.age ≤ 4095 → e.entry < 2 ^ 17 → t.inb.slots.length ≤ 256 →
      s.readReg (0x200 + c.val) = BitVec.ofNat 64 (bit e.bound 63 + bit e.seq 62 + bit e.mask 61 + e.pri.val * 2 ^ 58 + e.quota * 2 ^ 49 +
        (t.inb.slots.countP fun x => decide (x.chan = c)) * 2 ^ 40 + e.age * 2 ^ 28 + e.entry * 4)) ∧
    ∀ n : Fin 64,
      (t.sh n = none → s.readReg (0x300 + n.val) = 0 ∧ s.readReg (0x340 + n.val) = 0) ∧
      ∀ x, t.sh n = some x → x.wmark ≤ 524288 → x.len ≤ 8192 → x.base < 524288 →
        s.readReg (0x300 + n.val) = BitVec.ofNat 64 (2 ^ 63 +
          (match x.st with | .empty => 0 | .filling => 1 | .ready => 2 | .draining => 3) * 2 ^ 59 + x.wmark * 2 ^ 39 + x.len * 2 ^ 19 + x.base) ∧
        s.readReg (0x340 + n.val) = BitVec.ofNat 64 (x.dctr.toNat * 2 ^ 32 + x.fctr.toNat)

/-- R15 to R18, R20, R21, R31: what MFS reads of the trap record, the status, the vector length, the class counts, the event counts, the
handles and the engine registers. -/
def RegisterWords : Prop :=
  ∀ s : State,
    let t := s.tile
    s.readReg 0x006 = t.regs.trap.tpc ∧ s.readReg 0x007 = t.regs.trap.tcause ∧ s.readReg 0x008 = t.regs.trap.tval ∧
    s.readReg 0x009 = t.regs.trap.tinfo ∧ s.readReg 0x00A = t.regs.trap.tstat ∧
    (s.readReg 0x004).getLsbD 0 = t.ex.prv ∧ (s.readReg 0x004).getLsbD 16 = t.ex.inh ∧
    (t.ex.inh = true → (s.readReg 0x004).toNat / 2 ^ 24 = t.ex.chan.val) ∧ (t.ex.inh = false → (s.readReg 0x004).toNat / 2 ^ 24 = 0) ∧
    s.readReg 0x01A = BitVec.ofNat 64 t.regs.vl.val ∧ s.readReg 0x018 = 16 ∧
    (∀ k : Fin 8, s.readReg (0x031 + k.val) = t.regs.perf.get k ∧ s.readReg (0x050 + 2 * k.val) = (t.regs.h.get k).base ∧
      s.readReg (0x051 + 2 * k.val) = (t.regs.h.get k).len) ∧
    (∀ k : Fin 6, s.readReg (0x100 + k.val) = t.eng.regs.get k) ∧
    (t.ops.loads.length < 256 → t.ops.stores.length < 256 → t.ops.copies.length < 256 → t.ops.mx.length < 256 →
      t.ops.ms.length < 256 →
      (s.readReg 0x043).toNat % 256 = t.ops.loads.length ∧ (s.readReg 0x043).toNat / 2 ^ 8 % 256 = t.ops.stores.length ∧
      (s.readReg 0x043).toNat / 2 ^ 16 % 256 = t.ops.copies.length ∧ (s.readReg 0x043).toNat / 2 ^ 24 % 256 = t.ops.mx.length ∧
      (s.readReg 0x043).toNat / 2 ^ 32 = t.ops.ms.length)

/-- R15 to R21, R25, R29, R31, R123, R124: the words of every state register and of QUERY. -/
def Obligations.StateWords : Prop := QueryWords ∧ StatusWords ∧ TableWords ∧ RegisterWords

/-- R119, R125: IDLE suspends the tile; TLBINV at S removes the entries of the tile's ASID that hold a page, or all of them. -/
def Obligations.IdleAndTlb : Prop :=
  ∀ (s : State) (a : GReg),
    (∃ t, exec .idle s = .next t ∧ SameModule s t ∧ t.tile.id = s.tile.id ∧ t.tile.gang = s.tile.gang ∧ t.tile.inb = s.tile.inb ∧
      t.tile.eng = s.tile.eng ∧ t.tile.ni = s.tile.ni ∧ t.tile.ops = s.tile.ops ∧ s.tile.SamePad t.tile ∧ s.tile.SameRegs t.tile [] ∧
      t.tile.ex = { s.tile.ex with pc := s.tile.ex.pc + 4, branch := none, tvecFetch := false, idle := true } ∧
      t.tile.pl = { s.tile.pl with idleSince := s.fab.time }) ∧
    (s.tile.ex.prv = true →
      let gone (i : Instr) (p : TlbEntry → Prop) : Prop :=
        ∃ t, exec i s = .next t ∧ SameModule s t ∧ t.tile.id = s.tile.id ∧ t.tile.gang = s.tile.gang ∧ t.tile.inb = s.tile.inb ∧
          t.tile.eng = s.tile.eng ∧ t.tile.pl = s.tile.pl ∧ t.tile.ops = s.tile.ops ∧ s.tile.SamePad t.tile ∧
          s.tile.SameRegs t.tile [] ∧ s.tile.NextPc t.tile 1 ∧ t.tile.ni = { s.tile.ni with tlb := t.tile.ni.tlb } ∧
          ∀ e, e ∈ t.tile.ni.tlb ↔ e ∈ s.tile.ni.tlb ∧ ¬p e
      (s.tile.canIssue { regs := [.g a], reads := [.g a] } →
        gone (.tlbinv a) fun e => e.asid = s.tile.gang.asid ∧ e.va ≤ (s.tile.g a).toNat ∧ (s.tile.g a).toNat < e.va + e.size) ∧
      gone .tlbinvAll fun e => e.asid = s.tile.gang.asid)

/-- R195: WAIT issues once every class count is at or below its field, where 15 means no limit; until then nothing issues. -/
def Obligations.Wait : Prop :=
  ∀ (s : State) (ld st cp mx ms : Fin 16),
    let met (c : OpClass) (f : Fin 16) : Prop := f.val = 15 ∨ s.tile.count c ≤ f.val
    let all := met .ld ld ∧ met .st st ∧ met .cp cp ∧ met .mx mx ∧ met .ms ms
    (all → ∃ t, exec (.wait ld st cp mx ms) s = .next t ∧ Frame s t [] 1 ∧ t.tile.iss.writes = s.tile.iss.writes) ∧
    (¬all → exec (.wait ld st cp mx ms) s = .next (s.stall 12))

/-! ## Traps -/

/-- R117, R38: TRAP, SYSC and BREAK take their trap at every privilege, with TVAL the instruction word and TPC the next word, or the
BREAK itself; TINFO holds FSTEP and nothing else. -/
def EnvironmentTraps : Prop :=
  ∀ (s : State) (x : BitVec 12),
    let step : Word := BitVec.ofNat 64 (s.tile.ni.step.val * 2 ^ 14)
    let c := s.tile.iss.cycle + 1
    (∃ t, exec (.trap x) s = .next t ∧ TrapTaken s t 0x0F (0xF0001000 + x.zeroExtend 64) (s.tile.ex.pc + 4) step c) ∧
    (∃ t, exec (.sysc x) s = .next t ∧ TrapTaken s t 0x0E (0xF0002000 + x.zeroExtend 64) (s.tile.ex.pc + 4) step c) ∧
    ∃ t, exec (.brk x) s = .next t ∧ TrapTaken s t 0x0D (0xF0003000 + x.zeroExtend 64) s.tile.ex.pc step c

/-- R40, R118: ERET at U traps PRIV; at S it returns to TPC with the saved privilege and clears NEST, as a taken branch. -/
def ReturnFromTrap : Prop :=
  ∀ s : State,
    (s.tile.ex.prv = false → s.tile.ex.cw = none → s.tile.canIssue {} → ∃ t, exec .eret s = .next t ∧
      TrapTaken s t 0x03 (instrWord .eret) s.tile.ex.pc (BitVec.ofNat 64 (s.tile.ni.step.val * 2 ^ 14)) s.tile.iss.cycle) ∧
    (s.tile.ex.prv = true → ∃ t, exec .eret s = .next t ∧ SameModule s t ∧ s.tile.SameUnits t.tile ∧ t.tile.ops = s.tile.ops ∧ s.tile.SamePad t.tile ∧
      s.tile.SameG t.tile [] ∧ s.tile.SameV t.tile ∧ s.tile.SameM t.tile ∧
      t.tile.regs = { s.tile.regs with
        perf := t.tile.regs.perf
        trap := { s.tile.regs.trap with tstat := s.tile.regs.trap.tstat &&& 3 } } ∧
      t.tile.ex = { s.tile.ex with
        pc := s.tile.regs.trap.tpc, prv := s.tile.regs.trap.tstat.getLsbD 0, branch := some s.tile.ex.pc, tvecFetch := false } ∧
      t.tile.iss.bubble = s.tile.iss.cycle + 3)

/-- R38, R40, R117, R118: the traps that an instruction asks for, and the return from one. -/
def Obligations.TrapsAndReturn : Prop := EnvironmentTraps ∧ ReturnFromTrap

/-- R15, R40, R120, R125, R186, R236: at U, the privileged forms trap PRIV, and the trap record holds the instruction word. -/
def Obligations.PrivilegeTraps : Prop :=
  ∀ (s : State) (a b d : GReg) (n : Fin 64) (x : BitVec 12),
    s.tile.ex.prv = false → s.tile.ex.cw = none →
    let step : Word := BitVec.ofNat 64 (s.tile.ni.step.val * 2 ^ 14)
    let priv (i : Instr) (regs : List RegName) : Prop :=
      s.tile.canIssue { regs := regs, reads := regs } →
        ∃ t, exec i s = .next t ∧ TrapTaken s t 0x03 (instrWord i) s.tile.ex.pc step s.tile.iss.cycle
    priv .eret [] ∧ priv (.tlbinv a) [.g a] ∧ priv .tlbinvAll [] ∧ priv (.gstop a b) [.g a, .g b] ∧
    priv (.gresume a b) [.g a, .g b] ∧
    (s.tile.holds n = false → priv (.shset a b n) [.g a, .g b]) ∧
    (5 ≤ x.toNat → x.toNat ≤ 10 → priv (.mts a x) [.g a] ∧
      (s.tile.canIssue { regs := [.g d] } →
        ∃ t, exec (.mfs d x) s = .next t ∧ TrapTaken s t 0x03 (instrWord (.mfs d x)) s.tile.ex.pc step s.tile.iss.cycle))

/-! ## Scalar memory -/

/-- R105 to R107: LD and LDN of every window and size read their bytes at issue, extend them, and enter class LD; gd is written at
the arrival, never before the fourth cycle. -/
def ScalarLoads : Prop :=
  ∀ (s : State) (d a : GReg) (z : Fin 8) (off : BitVec 13) (w : Window) (o : Nat), z.val ≤ 3 →
    let ea : Word := s.tile.g a + BitVec.ofInt 64 (off.toInt * 2 ^ z.val)
    let n := 2 ^ z.val
    ea.toNat % n = 0 → windowOf ea.toNat = some (w, o) → (w.wide = true → 4 ≤ n) → s.tile.gate true 2 none (w.touch o n) = .ok () →
    s.tile.badLocal w o n = none →
    let load (i : Instr) (v : Word) : Prop :=
      s.tile.canIssue { regs := [.g d, .g a], reads := [.g a], unit := .localPort, cls := some .ld } →
        ∃ t op arrive, exec i s = .next t ∧ SameModule s t ∧ s.tile.SameUnits t.tile ∧ s.tile.SamePad t.tile ∧
          s.tile.SameRegs t.tile [] ∧ s.tile.NextPc t.tile 1 ∧ t.tile.iss.writes = s.tile.iss.writes ∧
          t.tile.ops = { s.tile.ops with stamp := s.tile.ops.stamp + 1, loads := s.tile.ops.loads ++ [op] } ∧
          op.kind = .timed arrive true ∧ s.tile.iss.cycle + 3 ≤ arrive ∧ op.ecc = none ∧ op.regs = [.g d] ∧
          ∃ e, op.elems = [e] ∧ e.reg = .g d ∧ e.val = some v
    let x : BitVec (8 * n) := BitVec.ofNat (8 * n) (s.tile.readLocal w o n)
    load (.ld d a z off) (x.signExtend 64) ∧ load (.ldn d a z off) (x.zeroExtend 64)

/-- R105, R106, R108: ST writes the low bytes of its register at its address in the raw scratchpad, and no other byte. -/
def ScalarStore : Prop :=
  ∀ (s : State) (v a : GReg) (z : Fin 8) (off : BitVec 13), z.val ≤ 3 →
    let ea : Word := s.tile.g a + BitVec.ofInt 64 (off.toInt * 2 ^ z.val)
    let n := 2 ^ z.val
    ea.toNat % n = 0 → ea.toNat < 0x80000 → (s.tile.ex.prv = true ∨ s.tile.regs.shbase.toNat ≤ ea.toNat) →
    s.tile.gate false 3 none (upFrom ea.toNat n) = .ok () → (n < 8 → s.tile.pad.bad.contains (ea.toNat / 8) = false) →
    s.tile.canIssue { regs := [.g v, .g a], reads := [.g v, .g a], unit := .localPort } →
      ∃ t, exec (.st v a z off) s = .next t ∧ SameModule s t ∧ s.tile.SameUnits t.tile ∧ t.tile.ops = s.tile.ops ∧
        s.tile.SameRegs t.tile [] ∧ s.tile.NextPc t.tile 1 ∧ t.tile.iss.writes = s.tile.iss.writes ∧
        ∀ x, Memory.byte t.tile.pad.bytes x =
          if ea.toNat ≤ x ∧ x < ea.toNat + n then BitVec.ofNat 8 ((s.tile.g v).toNat / 2 ^ (8 * (x - ea.toNat)))
          else Memory.byte s.tile.pad.bytes x

/-- R22: the windows, their addresses, and the offset of an address in its window; no other local address is in one. -/
def Windows : Prop :=
  ∀ (ea : Nat) (w : Window) (o : Nat), windowOf ea = some (w, o) ↔ ∃ base last : Nat, base ≤ ea ∧ ea ≤ last ∧ o = ea - base ∧
    (w, base, last) ∈ [(Window.raw, 0, 0x0007FFFF), (.blk .lb4, 0x01000000, 0x013332FF), (.blk .lb6, 0x02000000, 0x022491FF),
      (.blk .lb8, 0x03000000, 0x031C717F), (.blk .lb12, 0x04000000, 0x0413B0FF), (.half bf16, 0x05000000, 0x050FFFFF),
      (.half fp16, 0x06000000, 0x060FFFFF), (.inbox, 0x08000000, 0x08003FFF)]

/-- R4, R23, R59, R60: what a local read of n bytes at an offset of a window gives. In the raw window and in the inbox it gives the n bytes,
the lowest address lowest; in a decode or widen window the FP32 words of its elements, each decoded from its block or widened from its
halfword. -/
def LocalReads : Prop :=
  ∀ (t : Tile) (o n : Nat),
    let plain (w : Window) (m : Memory) : Prop := t.readLocal w o n < 2 ^ (8 * n) ∧
      ∀ k, k < n → t.readLocal w o n / 2 ^ (8 * k) % 256 = (Memory.byte m (o + k)).toNat
    plain .raw t.pad.bytes ∧ plain .inbox t.inb.bytes ∧
    (o % 4 = 0 → n % 4 = 0 → ∀ k, k < n / 4 →
      let e := o / 4 + k
      (∀ f, t.readLocal (.blk f) o n / 2 ^ (32 * k) % 2 ^ 32 =
        (blockElem f (Memory.bytes t.pad.bytes (e / 32 * blkBytes f) (blkBytes f)) (e % 32)).toNat) ∧
      ∀ f, t.readLocal (.half f) o n / 2 ^ (32 * k) % 2 ^ 32 = (widen f (Memory.nat t.pad.bytes (2 * e) 2)).toNat)

/-- R4, R22, R23, R59, R60, R105 to R108: scalar loads and stores of local memory, and what a read of each window gives. -/
def Obligations.LocalAccesses : Prop := ScalarLoads ∧ ScalarStore ∧ Windows ∧ LocalReads

/-- Bytes that an EMPTY shingle k holds, the lowest of them m, and no other EMPTY shingle holds one as low (R28, R393). -/
def EmptyAt (t : Tile) (bytes : List Nat) (k : Fin 64) (m : Nat) : Prop :=
  let holds (j : Fin 64) (b : Nat) : Prop := ∃ sh, t.sh j = some sh ∧ sh.st = .empty ∧ sh.holds b = true
  m ∈ bytes ∧ holds k m ∧ ∀ j, ∀ b ∈ bytes, holds j b → m ≤ b ∧ (j ≠ k → m < b)

/-- What R106 forbids: a narrow load of a decode or widen window, a store to a read-only window, a store at U below SHBASE. -/
def NoPermission (t : Tile) (load : Bool) (ea : Nat) (w : Window) (sz : Nat) : Prop :=
  if load = true then w.wide = true ∧ sz < 4 else w ≠ .raw ∨ (t.ex.prv = false ∧ ea < t.regs.shbase.toNat)

/-- The first condition that a local access of sz bytes meets (R37, R105, R106, R156): its cause code and TVAL. -/
def LocalTrap (t : Tile) (load : Bool) (ea sz cause tval : Nat) : Prop :=
  (ea % sz ≠ 0 ∧ cause = 0x04 ∧ tval = ea) ∨ (ea % sz = 0 ∧ windowOf ea = none ∧ cause = 0x06 ∧ tval = ea) ∨
  ∃ w o, ea % sz = 0 ∧ windowOf ea = some (w, o) ∧
    ((NoPermission t load ea w sz ∧ cause = 0x07 ∧ tval = ea) ∨
     (¬NoPermission t load ea w sz ∧ ∃ k m, EmptyAt t (w.touch o sz) k m ∧ cause = 0x09 ∧ tval = m * 2 ^ 32 + k.val))

/-- A local access of sz bytes that no condition stops: none of LocalTrap, and no uncorrectable word under a store. -/
def Untrapped (t : Tile) (load : Bool) (ea sz : Nat) : Prop :=
  ∃ w o, ea % sz = 0 ∧ windowOf ea = some (w, o) ∧ ¬NoPermission t load ea w sz ∧
    (∀ k sh, t.sh k = some sh → sh.st = .empty → ∀ b ∈ w.touch o sz, sh.holds b = false) ∧
    (load = false → t.pad.bad.contains (ea / 8) = false)

/-- R23, R28, R105, R106, R393: LD, LDN and ST trap with the first condition that they meet; ACLASS is the access class. -/
def ScalarTraps : Prop :=
  ∀ (s : State) (d a : GReg) (z : Fin 8) (off : BitVec 13) (cause tval : Nat), z.val ≤ 3 → s.tile.ex.cw = none →
    let ea : Word := s.tile.g a + BitVec.ofInt 64 (off.toInt * 2 ^ z.val)
    let trap (load : Bool) (i : Instr) (aclass : Nat) : Prop := LocalTrap s.tile load ea.toNat (2 ^ z.val) cause tval →
      ∃ t, exec i s = .next t ∧ TrapTaken s t cause (BitVec.ofNat 64 tval) s.tile.ex.pc
        (BitVec.ofNat 64 (s.tile.ni.step.val * 2 ^ 14 + aclass * 2 ^ 8)) s.tile.iss.cycle
    (s.tile.canIssue { regs := [.g d, .g a], reads := [.g a], unit := .localPort, cls := some .ld } →
      trap true (.ld d a z off) 2 ∧ trap true (.ldn d a z off) 2) ∧
    (s.tile.canIssue { regs := [.g d, .g a], reads := [.g d, .g a], unit := .localPort } → trap false (.st d a z off) 3)

/-- What the checks of a global access ask for (R109, R110, R283, R340): a 56-bit address that no mode change covers, in a page whose
translation the NI holds, whose permissions and mode admit the access. -/
def Reaches (s : State) (k : AccessKind) (va n : Nat) (e : TlbEntry) : Prop :=
  va < 2 ^ 56 ∧ s.modePending s.tile.gang.asid va n = false ∧ s.tile.held va = some e ∧
  permits e.perms s.tile.ex.prv k = true ∧ admits (s.tile.modeFor e va).1 ((s.tile.modeFor e va).2 == s.tile.id.vt) k = true

/-- The translations of a range have been used: they are the most recently used ones of the micro-TLB, each group in its old order, and
what had been fetched for the access alone is let go (R340). -/
def UsesPages (a b : Tile) (va n : Nat) : Prop :=
  let hit (e : TlbEntry) : Bool := decide (e.asid = a.gang.asid ∧ va < e.va + e.size ∧ e.va < va + n)
  b.ni = { a.ni with tlb := (a.ni.tlb.filter fun e => !hit e) ++ a.ni.tlb.filter hit, got := [], noLeaf := [] }

/-- R109 to R112, R340, with log 24: GLD, GLDN and GST issue with their checks passed, and enter class LD or ST with the physical address of
their bytes; a store keeps the low bytes of its register. No byte of memory changes at issue, and the translation is the last one used. -/
def Obligations.GlobalAccesses : Prop :=
  ∀ (s : State) (d a : GReg) (z : Fin 8) (off : BitVec 13) (e : TlbEntry), z.val ≤ 3 →
    let ea : Word := s.tile.g a + BitVec.ofInt 64 (off.toInt * 2 ^ z.val)
    let n := 2 ^ z.val
    let hs := s.tile.handlesOf [(ea.toNat, n)]
    let pa := e.pa + (ea.toNat - e.va)
    ea.toNat % n = 0 →
    (Reaches s .load ea.toNat n e → s.tile.canIssue { regs := [.g d, .g a], reads := [.g a], cls := some .ld, hs := hs } →
      ∀ i ext, (i = .gld d a z off ∧ ext = .signed) ∨ (i = .gldn d a z off ∧ ext = .zero) →
        ∃ t, exec i s = .next t ∧ Enters s t ∧ UsesPages s.tile t.tile ea.toNat n ∧ t.tile.eng = s.tile.eng ∧
          t.tile.ops = { s.tile.ops with
            kept := t.tile.ops.kept
            stamp := s.tile.ops.stamp + 1
            loads := s.tile.ops.loads ++
              [{ stamp := s.tile.ops.stamp, kind := .global ext
                 elems := [{ reg := .g d, lane := 0, va := ea.toNat, pa := pa, bytes := n, val := none }]
                 regs := [.g d], hs := hs, issued := s.tile.iss.cycle, aclass := 4, ecc := none }] }) ∧
    (Reaches s .store ea.toNat n e → s.tile.canIssue { regs := [.g d, .g a], reads := [.g d, .g a], cls := some .st, hs := hs } →
      ∃ t, exec (.gst d a z off) s = .next t ∧ Enters s t ∧ UsesPages s.tile t.tile ea.toNat n ∧ t.tile.eng = s.tile.eng ∧
        t.tile.ops = { s.tile.ops with
          kept := t.tile.ops.kept
          stamp := s.tile.ops.stamp + 1
          stores := s.tile.ops.stores ++
            [{ stamp := s.tile.ops.stamp, vec := false, ecc := none, hs := hs
               elems := [{ lane := 0, va := ea.toNat, pa := pa, data := toBytes (s.tile.g d).toNat n, done := false }] }] })

/-! ## Vector instructions -/

/-- A lane that an instruction under the governing mask k writes (R12, R128): active, and set in the mask. -/
def LaneOn (t : Tile) (k : MReg) (i : Fin 16) : Prop := i.val < t.regs.vl.val ∧ (t.m k).getLsbD i.val = true

/-- The flags of a result are those of the lanes that are on; none where the instruction cannot set a flag (R48, R128). -/
def FlagsOf (on : Fin 16 → Prop) (f : Option (Fin 16 → FFlags)) (w : Option FFlags) : Prop :=
  match f with
  | none => w = none
  | some g => ∃ b, w = some b ∧ ∀ j, b.getLsbD j = true ↔ ∃ i, on i ∧ (g i).getLsbD j = true

/-- vd will receive x in the lanes that are on, and in no other lane; with no lane on, nothing will be written (R128, R129). -/
def LanesAwaited (a b : Tile) (l : Nat) (d : VReg) (on : Fin 16 → Prop) (x : Fin 16 → W32) (f : Option (Fin 16 → FFlags)) : Prop :=
  ((∃ i, on i) → ∃ (lanes : Mask) (y : VVal) (w : Option FFlags), (∀ i : Fin 16, lanes.getLsbD i.val = true ↔ on i) ∧
    (∀ i, on i → y.get i = x i) ∧ FlagsOf on f w ∧ a.Awaiting b l (.v d lanes y) w) ∧
  ((∀ i, ¬on i) → b.iss.writes = a.iss.writes)

/-- A vector instruction issues once its registers and its unit are free, and its lanes are written after its latency (R127 to R131,
R240). -/
def VectorResult (s : State) (i : Instr) (c : VClass) (d : VReg) (k : MReg) (reads : List RegName) (x : Fin 16 → W32)
    (f : Option (Fin 16 → FFlags)) : Prop :=
  s.tile.canIssue { regs := .v d :: .m k :: reads, reads := .m k :: reads, unit := c.unit } →
    ∃ t, exec i s = .next t ∧ Frame s t [] 1 ∧ LanesAwaited s.tile t.tile c.lat d (LaneOn s.tile k) x f

/-- A vector result with the flags of its rounding. -/
def FloatResult (s : State) (i : Instr) (c : VClass) (d : VReg) (k : MReg) (reads : List RegName) (r : Fin 16 → Rounded) : Prop :=
  VectorResult s i c d k reads (fun j => BitVec.ofNat 32 (r j).bits) (some fun j => (r j).flags)

/-- R133, R134: floating-point arithmetic, lane by lane, rounded once by FMODE.RM, with its flags. -/
def FloatLanes : Prop :=
  ∀ (s : State) (d a b : VReg) (k : MReg),
    let m := s.tile.rm
    let x i := (s.tile.v a).get i
    let y i := (s.tile.v b).get i
    let p i := f32 (x i)
    let q i := f32 (y i)
    let z i := f32 ((s.tile.v d).get i)
    let key (w : W32) : Int := if w.msb then 2 ^ 31 - 1 - (w.toNat : Int) else w.toNat
    let pick (c : Prop) [Decidable c] (i : Fin 16) : Rounded :=
      if (p i).isNan || (q i).isNan then fp32.nan ((p i).isSnan || (q i).isSnan) else if c then ⟨(x i).toNat, 0⟩ else ⟨(y i).toNat, 0⟩
    let sign (n : Nat) (i : Fin 16) : Rounded := if (p i).isNan then fp32.nan (p i).isSnan else ⟨n, 0⟩
    FloatResult s (.vaddF d a b k) vfp d k [.v a, .v b] (fun i => fp32.add m (p i) (q i)) ∧
    FloatResult s (.vsubF d a b k) vfp d k [.v a, .v b] (fun i => fp32.add m (p i) (q i).neg) ∧
    FloatResult s (.vmulF d a b k) vfp d k [.v a, .v b] (fun i => fp32.mul m (p i) (q i)) ∧
    FloatResult s (.vdivF d a b k) vdivsq d k [.v a, .v b] (fun i => fp32.div m (p i) (q i)) ∧
    FloatResult s (.vfma d a b k) vfp d k [.v a, .v b, .v d] (fun i => fp32.fma m (p i) (q i) (z i)) ∧
    FloatResult s (.vfms d a b k) vfp d k [.v a, .v b, .v d] (fun i => fp32.fma m (p i) (q i) (z i).neg) ∧
    FloatResult s (.vfnma d a b k) vfp d k [.v a, .v b, .v d] (fun i => fp32.fma m (p i).neg (q i) (z i)) ∧
    FloatResult s (.vsqrt d a k) vdivsq d k [.v a] (fun i => sqrt32 m (p i)) ∧
    FloatResult s (.vminF d a b k) vfp d k [.v a, .v b] (fun i => pick (key (x i) ≤ key (y i)) i) ∧
    FloatResult s (.vmaxF d a b k) vfp d k [.v a, .v b] (fun i => pick (key (x i) > key (y i)) i) ∧
    FloatResult s (.vabsF d a k) vfp d k [.v a] (fun i => sign ((x i).toNat % 2 ^ 31) i) ∧
    FloatResult s (.vnegF d a k) vfp d k [.v a] (fun i => sign (((x i).toNat + 2 ^ 31) % 2 ^ 32) i)

/-- R46 to R48, R133: NaN results, invalid operations, division by zero, infinities, and the sign of an exact zero. -/
def RoundingCorners : Prop :=
  let nan : Rounded := ⟨0x7FC00000, 0⟩
  let invalid : Rounded := ⟨0x7FC00000, 0x10⟩
  let infinity (n : Bool) : Rounded := ⟨if n then 0xFF800000 else 0x7F800000, 0⟩
  ∀ m : RMode,
    (∀ x y : FVal, x.isNan = true ∨ y.isNan = true →
      let r := if x.isSnan || y.isSnan then invalid else nan
      fp32.add m x y = r ∧ fp32.mul m x y = r ∧ fp32.div m x y = r) ∧
    (∀ p q : Bool, fp32.add m (.inf p) (.inf q) = if p = q then infinity p else invalid) ∧
    (∀ p q : Bool, fp32.mul m (.inf p) (.inf q) = infinity (p ^^ q) ∧ fp32.div m (.inf p) (.inf q) = invalid) ∧
    (∀ (p q : Bool) (a b : Nat),
      fp32.add m (.inf p) (.fin q a b) = infinity p ∧ fp32.div m (.inf p) (.fin q a b) = infinity (p ^^ q) ∧
      fp32.mul m (.inf p) (.fin q a b) = (if a = 0 then invalid else infinity (p ^^ q)) ∧
      fp32.div m (.fin q a b) (.inf p) = ⟨if p ^^ q then 0x80000000 else 0, 0⟩) ∧
    (∀ (p q : Bool) (a b c : Nat),
      fp32.div m (.fin p a b) (.fin q 0 c) = if a = 0 then invalid else ⟨if p ^^ q then 0xFF800000 else 0x7F800000, 0x08⟩) ∧
    (∀ (p : Bool) (a b : Nat) (z : FVal), fp32.fma m (.inf p) (.fin false 0 b) z = invalid ∧ fp32.fma m (.fin p 0 b) (.inf p) z = invalid ∧
      (z.isNan = true → fp32.fma m (.fin p a b) (.fin p a b) z = if z.isSnan then invalid else nan)) ∧
    (∀ (p : Bool) (a b : Nat), a ≠ 0 →
      fp32.add m (.fin p a b) (.fin (!p) a b) = ⟨if m = .rdn then 0x80000000 else 0, 0⟩) ∧
    (∀ (p : Bool) (b : Nat), sqrt32 m (.fin p 0 b) = ⟨if p then 0x80000000 else 0, 0⟩) ∧
    (∀ a b : Nat, a ≠ 0 → sqrt32 m (.fin true a b) = invalid) ∧ sqrt32 m (.inf true) = invalid ∧ sqrt32 m (.inf false) = infinity false

/-- R46 to R48, R133, R134: floating-point arithmetic on lanes, and its corners. -/
def Obligations.VectorFloat : Prop := FloatLanes ∧ RoundingCorners

/-- R135 to R140: the approximations, with the results that their rules give to the special inputs. -/
def ApproximationLanes : Prop :=
  (∀ (s : State) (d a : VReg) (k : MReg),
    let one (i : Instr) (f : W32 → Rounded) : Prop := FloatResult s i vapprox d k [.v a] fun j => f ((s.tile.v a).get j)
    one (.vrcp d a k) rcpLane ∧ one (.vrsq d a k) rsqLane ∧ one (.vexp2 d a k) exp2OfLane ∧ one (.vlog2 d a k) log2Lane ∧
    one (.vtanh d a k) tanhLane) ∧
  (∀ x : W32, (f32 x).isNan = true →
    let r : Rounded := ⟨0x7FC00000, if (f32 x).isSnan then 0x10 else 0⟩
    rcpLane x = r ∧ rsqLane x = r ∧ exp2OfLane x = r ∧ log2Lane x = r ∧ tanhLane x = r) ∧
  (∀ x : W32, x.toNat % 2 ^ 31 = 0 →
    rcpLane x = ⟨x.toNat + 0x7F800000, 0x08⟩ ∧ rsqLane x = ⟨x.toNat + 0x7F800000, 0x08⟩ ∧ exp2OfLane x = ⟨0x3F800000, 0⟩ ∧
    log2Lane x = ⟨0xFF800000, 0x08⟩ ∧ tanhLane x = ⟨x.toNat, 0⟩) ∧
  (rcpLane 0x7F800000 = ⟨0, 0⟩ ∧ rcpLane 0xFF800000 = ⟨0x80000000, 0⟩ ∧ rsqLane 0x7F800000 = ⟨0, 0⟩ ∧
    rsqLane 0xFF800000 = ⟨0x7FC00000, 0x10⟩ ∧ exp2OfLane 0x7F800000 = ⟨0x7F800000, 0⟩ ∧ exp2OfLane 0xFF800000 = ⟨0, 0⟩ ∧
    log2Lane 0x7F800000 = ⟨0x7F800000, 0⟩ ∧ log2Lane 0xFF800000 = ⟨0x7FC00000, 0x10⟩ ∧ tanhLane 0x7F800000 = ⟨0x3F800000, 0⟩ ∧
    tanhLane 0xFF800000 = ⟨0xBF800000, 0⟩)

/-- R136 to R139: each entry of RC, RQ, T and IN is an integer nearest to the real that defines it. -/
def TableEntries : Prop :=
  (∀ j, j < 64 →
    (2 * tableRC j - 1) * (129 + 2 * j) ≤ 2 ^ 32 ∧ 2 ^ 32 ≤ (2 * tableRC j + 1) * (129 + 2 * j) ∧
    (2 * tableRQ j - 1) ^ 2 * ((65 + 2 * (j % 32)) * 2 ^ (j / 32)) ≤ 2 ^ 56 ∧
    2 ^ 56 ≤ (2 * tableRQ j + 1) ^ 2 * ((65 + 2 * (j % 32)) * 2 ^ (j / 32))) ∧
  ∀ j, j < 32 →
    (2 * tableT j - 1) ^ 32 ≤ 2 ^ (992 + j) ∧ 2 ^ (992 + j) ≤ (2 * tableT j + 1) ^ 32 ∧
    (2 * tableIN j - 1) * (65 + 2 * j) ≤ 2 ^ 37 ∧ 2 ^ 37 ≤ (2 * tableIN j + 1) * (65 + 2 * j)

/-- R135 to R140: the approximations, and the tables that they use. -/
def Obligations.VectorApproximations : Prop := ApproximationLanes ∧ TableEntries

/-- R143, R144: integer, logical and shift instructions on lanes, for both integer types; they set no flag. -/
def Obligations.VectorIntegers : Prop :=
  ∀ (s : State) (d a b : VReg) (k : MReg) (t : ElemTy), t = .s32 ∨ t = .n32 →
    let one (i : Instr) (f : W32 → W32 → W32) : Prop :=
      VectorResult s i vint d k [.v a, .v b] (fun j => f ((s.tile.v a).get j) ((s.tile.v b).get j)) none
    let val (x : W32) : Int := if t = .s32 then x.toInt else x.toNat
    let bits (p : Bool → Bool → Bool) (x y w : W32) : Prop := ∀ j, j < 32 → w.getLsbD j = p (x.getLsbD j) (y.getLsbD j)
    one (.vaddI d a b k t) (fun x y => BitVec.ofInt 32 (val x + val y)) ∧
    one (.vsubI d a b k t) (fun x y => BitVec.ofInt 32 (val x - val y)) ∧
    one (.vmulI d a b k t) (fun x y => BitVec.ofInt 32 (val x * val y)) ∧
    one (.vminI d a b k t) (fun x y => if val x ≤ val y then x else y) ∧
    one (.vmaxI d a b k t) (fun x y => if val x ≥ val y then x else y) ∧
    (∃ f, one (.vand d a b k) f ∧ ∀ x y, bits (· && ·) x y (f x y)) ∧
    (∃ f, one (.vor d a b k) f ∧ ∀ x y, bits (· || ·) x y (f x y)) ∧
    (∃ f, one (.vxor d a b k) f ∧ ∀ x y, bits (· ^^ ·) x y (f x y)) ∧
    one (.vshl d a b k) (fun x y => if y.toNat ≥ 32 then 0 else BitVec.ofNat 32 (x.toNat * 2 ^ y.toNat)) ∧
    one (.vshr d a b k) (fun x y => if y.toNat ≥ 32 then 0 else BitVec.ofNat 32 (x.toNat / 2 ^ y.toNat)) ∧
    one (.vsra d a b k) (fun x y =>
      if y.toNat ≥ 32 then (if x.msb then BitVec.allOnes 32 else 0) else BitVec.ofInt 32 (x.toInt / 2 ^ y.toNat))

/-- md will receive the bits b in the lanes that are on, and keeps the others (R128). -/
def BitsAwaited (a b : Tile) (l : Nat) (d : MReg) (on : Fin 16 → Prop) (x : Fin 16 → Prop) (f : Option (Fin 16 → FFlags)) : Prop :=
  ((∃ i, on i) → ∃ (y : Mask) (w : Option FFlags),
    (∀ i : Fin 16, (on i → (y.getLsbD i.val = true ↔ x i)) ∧ (¬on i → y.getLsbD i.val = (a.m d).getLsbD i.val)) ∧ FlagsOf on f w ∧
    a.Awaiting b l (.m d y) w) ∧
  ((∀ i, ¬on i) → b.iss.writes = a.iss.writes)

/-- R141: the compares, with their results on NaN and NV; on an integer type they set no flag. -/
def Obligations.VectorCompares : Prop :=
  ∀ (s : State) (d : MReg) (a b : VReg) (k : MReg) (t : ElemTy), t = .s32 ∨ t = .n32 →
    let x i := (s.tile.v a).get i
    let y i := (s.tile.v b).get i
    let one (i : Instr) (c : VClass) (r : Fin 16 → Prop) (f : Option (Fin 16 → FFlags)) : Prop :=
      s.tile.canIssue { regs := [.m d, .m k, .v a, .v b], reads := [.m k, .v a, .v b], unit := c.unit } →
        ∃ t, exec i s = .next t ∧ Frame s t [] 1 ∧ BitsAwaited s.tile t.tile c.lat d (LaneOn s.tile k) r f
    let nan i : Prop := (f32 (x i)).isNan = true ∨ (f32 (y i)).isNan = true
    let quiet : Fin 16 → FFlags := fun i => if (f32 (x i)).isSnan || (f32 (y i)).isSnan then 0x10 else 0
    let loud : Fin 16 → FFlags := fun i => if (f32 (x i)).isNan || (f32 (y i)).isNan then 0x10 else 0
    let eq i : Prop := FVal.eq (f32 (x i)) (f32 (y i)) = true
    let lt i : Prop := FVal.lt (f32 (x i)) (f32 (y i)) = true
    let val (w : W32) : Int := if t = .s32 then w.toInt else w.toNat
    one (.vcmpEqF d a b k) vfp (fun i => ¬nan i ∧ eq i) (some quiet) ∧
    one (.vcmpNeF d a b k) vfp (fun i => nan i ∨ ¬eq i) (some quiet) ∧
    one (.vcmpLtF d a b k) vfp (fun i => ¬nan i ∧ lt i) (some loud) ∧
    one (.vcmpLeF d a b k) vfp (fun i => ¬nan i ∧ (lt i ∨ eq i)) (some loud) ∧
    one (.vcmpUnF d a b k) vfp nan (some quiet) ∧
    one (.vcmpEqI d a b k t) vint (fun i => x i = y i) none ∧
    one (.vcmpNeI d a b k t) vint (fun i => x i ≠ y i) none ∧
    one (.vcmpLtI d a b k t) vint (fun i => val (x i) < val (y i)) none ∧
    one (.vcmpLeI d a b k t) vint (fun i => val (x i) ≤ val (y i)) none

/-- R132, R161, R162: the mask instructions, MPOP and MFIRST, and VSETVL. -/
def Obligations.MasksAndLength : Prop :=
  ∀ (s : State) (d a b : MReg) (g h : GReg),
    let on (i : Fin 16) : Prop := i.val < s.tile.regs.vl.val
    let bit (r : MReg) (i : Fin 16) : Prop := (s.tile.m r).getLsbD i.val = true
    let one (i : Instr) (reads : List RegName) (x : Fin 16 → Prop) : Prop :=
      s.tile.canIssue { regs := .m d :: reads, reads := reads, unit := .vpipe } →
        ∃ t, exec i s = .next t ∧ Frame s t [] 1 ∧ BitsAwaited s.tile t.tile 2 d on x none
    one (.mand d a b) [.m a, .m b] (fun i => bit a i ∧ bit b i) ∧
    one (.mor d a b) [.m a, .m b] (fun i => bit a i ∨ bit b i) ∧
    one (.mxor d a b) [.m a, .m b] (fun i => ¬(bit a i ↔ bit b i)) ∧
    one (.mnot d a) [.m a] (fun i => ¬bit a i) ∧
    one (.mset d g) [.g g] (fun i => (s.tile.g g).getLsbD i.val = true) ∧
    one (.mlane d g) [.g g] (fun i => i.val = (s.tile.g g).toNat) ∧
    LateResult s (.mpop g a) g [.m a] .vpipe 2
      (BitVec.ofNat 64 ((List.finRange 16).countP fun i => decide (i.val < s.tile.regs.vl.val) && (s.tile.m a).getLsbD i.val)) ∧
    (∀ i : Fin 16, LaneOn s.tile a i → (∀ j, LaneOn s.tile a j → i ≤ j) →
      LateResult s (.mfirst g a) g [.m a] .vpipe 2 (BitVec.ofNat 64 i.val)) ∧
    ((∀ i, ¬LaneOn s.tile a i) → LateResult s (.mfirst g a) g [.m a] .vpipe 2 (BitVec.allOnes 64)) ∧
    (s.tile.canIssue { regs := [.g g, .g h], reads := [.g h], unit := .vpipe } →
      ∃ t, exec (.vsetvl g h) s = .next t ∧ SameModule s t ∧ s.tile.SameUnits t.tile ∧ t.tile.ops = s.tile.ops ∧
        s.tile.SamePad t.tile ∧ s.tile.SameG t.tile [] ∧ s.tile.SameV t.tile ∧ s.tile.SameM t.tile ∧ s.tile.NextPc t.tile 1 ∧
        t.tile.regs.vl.val = min (s.tile.g h).toNat 16 ∧
        t.tile.regs = { s.tile.regs with perf := t.tile.regs.perf, vl := t.tile.regs.vl } ∧
        s.tile.Awaiting t.tile 2 (.g g (BitVec.ofNat 64 (min (s.tile.g h).toNat 16))) none)

/-- R142, R145 to R147: selection, broadcast, moves between lanes and scalar registers, shuffle and slide. -/
def Obligations.LaneMoves : Prop :=
  ∀ (s : State) (d a b : VReg) (k : MReg) (g h : GReg) (p : Fin 32),
    (s.tile.canIssue { regs := [.v d, .m k, .v a, .v b], reads := [.m k, .v a, .v b], unit := .vpipe } →
      ∃ t, exec (.vsel d a b k) s = .next t ∧ Frame s t [] 1 ∧
        LanesAwaited s.tile t.tile 2 d (fun i => i.val < s.tile.regs.vl.val)
          (fun i => if (s.tile.m k).getLsbD i.val then (s.tile.v a).get i else (s.tile.v b).get i) none) ∧
    VectorResult s (.vbcast d g k) vint d k [.g g] (fun _ => BitVec.ofNat 32 (s.tile.g g).toNat) none ∧
    (∀ x : Word, (∀ i : Fin 16, i.val = (s.tile.g h).toNat → x = BitVec.ofNat 64 ((s.tile.v a).get i).toNat) →
      ((s.tile.g h).toNat ≥ 16 → x = 0) → LateResult s (.vmovs g a h) g [.v a, .g h] .vpipe 2 x) ∧
    (s.tile.canIssue { regs := [.v d, .g g, .g h], reads := [.g g, .g h], unit := .vpipe } →
      ∃ t, exec (.vins d g h) s = .next t ∧ Frame s t [] 1 ∧
        LanesAwaited s.tile t.tile 2 d (fun i => i.val < s.tile.regs.vl.val ∧ i.val = (s.tile.g h).toNat)
          (fun _ => BitVec.ofNat 32 (s.tile.g g).toNat) none) ∧
    VectorResult s (.vshuf d a p k) vint d k [.v a] (fun i =>
      let n := (s.tile.gang.prog.perms.getD p.val []).getD i.val i.val
      if h : n < 16 then (s.tile.v a).get ⟨n, h⟩ else 0) none ∧
    VectorResult s (.vslide d a g k) vint d k [.v a, .g g] (fun i =>
      let n : Int := i.val + (s.tile.g g).toInt
      if 0 ≤ n ∧ n < (s.tile.regs.vl.val : Int) then (s.tile.v a).get (Fin.ofNat 16 n.toNat) else 0) none

/-- The registers but for the draw counter of R53, which advances by one where the condition holds. -/
def DrawsOnce (s t : State) (c : Prop) : Prop :=
  s.tile.SameG t.tile [] ∧ s.tile.SameV t.tile ∧ s.tile.SameM t.tile ∧
  t.tile.regs = { s.tile.regs with perf := t.tile.regs.perf, draws := t.tile.regs.draws } ∧
  (c → t.tile.regs.draws = s.tile.regs.draws + 1) ∧ (¬c → t.tile.regs.draws = s.tile.regs.draws)

/-- What an instruction that may draw leaves unchanged beside the draw counter. -/
def DrawFrame (s t : State) (c : Prop) : Prop :=
  SameModule s t ∧ s.tile.SameUnits t.tile ∧ t.tile.ops = s.tile.ops ∧ s.tile.SamePad t.tile ∧ s.tile.NextPc t.tile 1 ∧ DrawsOnce s t c

/-- R148, R149: VRNG writes the words of the generator at the draw counter, and draws once where VL is at least 1. -/
def Obligations.RandomLanes : Prop :=
  ∀ (s : State) (d : VReg) (k : MReg),
    s.tile.canIssue { regs := [.v d, .m k], reads := [.m k], unit := .vpipe } →
      ∃ t, exec (.vrng d k) s = .next t ∧ DrawFrame s t (1 ≤ s.tile.regs.vl.val) ∧
        LanesAwaited s.tile t.tile 6 d (LaneOn s.tile k)
          (fun i => rngWord s.tile.gang.gseed s.tile.id.vt s.tile.regs.draws i.val) none

/-- The root of the pairwise tree of R150 over the 16 values. -/
def treeRoot {α : Type} (f : α → α → α) (t : Fin 16 → α) : α :=
  let a (i : Fin 16) (j : Fin 16) := f (t i) (t j)
  f (f (f (a 0 1) (a 2 3)) (f (a 4 5) (a 6 7))) (f (f (a 8 9) (a 10 11)) (f (a 12 13) (a 14 15)))

/-- R150, R151: the root of the fixed tree goes to every enabled lane; a lane that is not enabled enters with the neutral value. The flags
of VREDSUM.F and of VREDMAX on F32 are the union of those of all the operations of the tree; on an integer type there are none. -/
def Obligations.VectorReductions : Prop :=
  ∀ (s : State) (d a : VReg) (k : MReg),
    let one (i : Instr) (fl : Bool) (neutral : Nat) (f : Nat → Nat → Rounded) : Prop :=
      let node (x y : Rounded) : Rounded := ⟨(f x.bits y.bits).bits, x.flags ||| y.flags ||| (f x.bits y.bits).flags⟩
      s.tile.canIssue { regs := [.v d, .m k, .v a], reads := [.m k, .v a], unit := .vpipe } →
        ∃ t, exec i s = .next t ∧ Frame s t [] 1 ∧ ∀ ins : Fin 16 → Nat,
          (∀ i, LaneOn s.tile k i → ins i = ((s.tile.v a).get i).toNat) → (∀ i, ¬LaneOn s.tile k i → ins i = neutral) →
          let root := treeRoot node fun i => ⟨ins i, 0⟩
          ((∃ i, LaneOn s.tile k i) → ∃ (lanes : Mask) (y : VVal), (∀ i : Fin 16, lanes.getLsbD i.val = true ↔ LaneOn s.tile k i) ∧
            (∀ i, LaneOn s.tile k i → y.get i = BitVec.ofNat 32 root.bits) ∧
            s.tile.Awaiting t.tile 10 (.v d lanes y) (if fl then some root.flags else none)) ∧
          ((∀ i, ¬LaneOn s.tile k i) → t.tile.iss.writes = s.tile.iss.writes)
    let exact (f : Nat → Nat → Nat) (x y : Nat) : Rounded := ⟨f x y, 0⟩
    one (.vredsumF d a k) true 0 (fun x y => fp32.add s.tile.rm (fp32.decode x) (fp32.decode y)) ∧
    one (.vredsumI d a k .s32) false 0 (exact fun x y => (x + y) % 2 ^ 32) ∧
    one (.vredsumI d a k .n32) false 0 (exact fun x y => (x + y) % 2 ^ 32) ∧
    one (.vredmax d a k .f32) true 0xFF800000 (fun x y => minMax true (BitVec.ofNat 32 x) (BitVec.ofNat 32 y)) ∧
    one (.vredmax d a k .s32) false 0x80000000
      (exact fun x y => if (BitVec.ofNat 32 x).toInt ≥ (BitVec.ofNat 32 y).toInt then x else y) ∧
    one (.vredmax d a k .n32) false 0 (exact fun x y => if x % 2 ^ 32 ≥ y % 2 ^ 32 then x else y)

/-- R126, R152 to R154: VCVT and VPACK.LB, which draw once under RM = 4, and VUNPK.LB. -/
def Obligations.VectorConversions : Prop :=
  ∀ (s : State) (d a : VReg) (k : MReg) (src dst : ElemTy) (f : BlkFmt),
    let rand (e : Nat) : Nat := (s.tile.rng (e % 16)).toNat / 2 ^ (16 * (e / 16)) % 65536
    let draws : Prop := s.tile.regs.fmode.val = 4 ∧ 1 ≤ s.tile.regs.vl.val
    let cvt (i : Fin 16) := convertElem (RMode.conv s.tile.regs.fmode (rand i.val)) dst (readElem src ((s.tile.v a).get i))
    let blk := packBlock f s.tile.regs.fmode rand (((s.tile.v a).toList ++ (s.tile.v (a + 1)).toList).map f32)
    let bytes := (s.tile.v a).toList.flatMap fun w => toBytes w.toNat 4
    (s.tile.canIssue { regs := [.v d, .m k, .v a], reads := [.m k, .v a], unit := .vpipe } →
      ∃ t, exec (.vcvt d a k src dst) s = .next t ∧ DrawFrame s t draws ∧
        LanesAwaited s.tile t.tile 4 d (LaneOn s.tile k) (fun i => BitVec.ofNat 32 (cvt i).bits)
          (if isFp src || isFp dst then some fun i => (cvt i).flags else none)) ∧
    (s.tile.canIssue { regs := [.v d, .m k, .v a, .v (a + 1)], reads := [.m k, .v a, .v (a + 1)], unit := .vpipe } →
      ∃ t, exec (.vpackLb d a f k) s = .next t ∧ DrawFrame s t draws ∧
        LanesAwaited s.tile t.tile 6 d (LaneOn s.tile k) (fun i => BitVec.ofNat 32 (blk.1 / 2 ^ (32 * i.val)))
          (some fun i => (blk.2.getD i.val 0) ||| (blk.2.getD (i.val + 16) 0))) ∧
    (s.tile.canIssue { regs := [.v d, .v (d + 1), .m k, .v a], reads := [.m k, .v a], unit := .vpipe } →
      ∃ t, exec (.vunpkLb d a f k) s = .next t ∧ Frame s t [] 1 ∧
        ((∀ i, ¬LaneOn s.tile k i) → t.tile.iss.writes = s.tile.iss.writes) ∧
        ((∃ i, LaneOn s.tile k i) → ∃ (lanes : Mask) (x y : VVal),
          (∀ i : Fin 16, lanes.getLsbD i.val = true ↔ LaneOn s.tile k i) ∧
          (∀ i : Fin 16, x.get i = blockElem f bytes i.val ∧ y.get i = blockElem f bytes (i.val + 16)) ∧
          t.tile.iss.writes = s.tile.iss.writes ++
            [⟨s.tile.iss.cycle + 5, .v d lanes x, none⟩, ⟨s.tile.iss.cycle + 5, .v (d + 1) lanes y, none⟩]))

/-- What R156 asks of an element of a local load, at its window and offset; its bytes are correctable. -/
def LoadableAt (t : Tile) (sz : Nat) (e : VElem) (w : Window) (o : Nat) : Prop :=
  e.ea.toNat % sz = 0 ∧ windowOf e.ea.toNat = some (w, o) ∧ (w.wide = true → sz = 4) ∧ t.gate true 2 none (w.touch o sz) = .ok () ∧
  t.badLocal w o sz = none

/-- A local vector load of the elements that P names (R155 to R158): one operation of class LD that holds the value of every element,
of the type and of the bytes at issue; with no element it performs nothing. -/
def LocalVectorLoad (s : State) (i : Instr) (dst reads : List RegName) (ty : ElemTy) (P : VElem → Prop) : Prop :=
  (∀ e, P e → ∃ w o, LoadableAt s.tile (elemSize ty) e w o) →
  ((∃ e, P e) → s.tile.canIssue { regs := dst ++ reads, reads := reads, unit := .localPort, cls := some .ld } →
    ∃ t op arrive, exec i s = .next t ∧ SameModule s t ∧ s.tile.SameUnits t.tile ∧ s.tile.SamePad t.tile ∧ s.tile.SameRegs t.tile [] ∧
      s.tile.NextPc t.tile 1 ∧ t.tile.iss.writes = s.tile.iss.writes ∧
      t.tile.ops = { s.tile.ops with stamp := s.tile.ops.stamp + 1, loads := s.tile.ops.loads ++ [op] } ∧
      op.kind = .timed arrive true ∧ s.tile.iss.cycle + 4 ≤ arrive ∧ op.ecc = none ∧ op.regs = dst ∧ op.hs = 0 ∧
      ∀ x, x ∈ op.elems ↔ ∃ e w o, P e ∧ LoadableAt s.tile (elemSize ty) e w o ∧
        x = { reg := .v e.reg, lane := e.lane, va := e.ea.toNat, pa := 0, bytes := elemSize ty
              val := some ((fillElem ty (s.tile.readLocal w o (elemSize ty))).zeroExtend 64) }) ∧
  ((∀ e, ¬P e) → s.tile.canIssue { regs := dst ++ reads, reads := reads, unit := .localPort } →
    ∃ t, exec i s = .next t ∧ Frame s t [] 1 ∧ t.tile.iss.writes = s.tile.iss.writes)

/-- R155 to R158: VLD, VLDS, VLDG and VLDX, with the addresses of their lanes. -/
def VectorLoads : Prop :=
  ∀ (s : State) (d v : VReg) (a b : GReg) (k : MReg) (ty : ElemTy),
    let sz := elemSize ty
    let lanes (f : Fin 16 → Word) (e : VElem) : Prop := ∃ i : Fin 16, LaneOn s.tile k i ∧ e = ⟨Fin.ofNat 64 i.val, d, f i⟩
    LocalVectorLoad s (.vld d a k ty) [.v d] [.m k, .g a] ty (lanes fun i => s.tile.g a + BitVec.ofNat 64 (i.val * sz)) ∧
    LocalVectorLoad s (.vlds d a b k ty) [.v d] [.m k, .g a, .g b] ty
      (lanes fun i => s.tile.g a + BitVec.ofInt 64 (i.val * (s.tile.g b).toInt)) ∧
    LocalVectorLoad s (.vldg d a v k ty) [.v d] [.m k, .g a, .v v] ty
      (lanes fun i => s.tile.g a + BitVec.ofInt 64 ((s.tile.v v).get i).toInt) ∧
    (sz = 4 → LocalVectorLoad s (.vldx d a b k ty) ((List.range s.tile.regs.vl.val).map fun c => .v (d + Fin.ofNat 32 c))
      [.m k, .g a, .g b] ty fun e => ∃ (i : Fin 16) (c : Nat), LaneOn s.tile k i ∧ c < s.tile.regs.vl.val ∧
        e = ⟨Fin.ofNat 64 i.val, d + Fin.ofNat 32 c, s.tile.g a + BitVec.ofInt 64 (i.val * (s.tile.g b).toInt) + BitVec.ofNat 64 (4 * c)⟩)

/-- A local vector store to the addresses ea of the enabled lanes (R155 to R157): every byte that some enabled lane covers holds the
byte of the highest such lane, and no other byte changes. -/
def LocalVectorStore (s : State) (i : Instr) (d : VReg) (k : MReg) (reads : List RegName) (ty : ElemTy) (ea : Fin 16 → Word) : Prop :=
  let sz := elemSize ty
  let covers (j : Fin 16) (x : Nat) : Prop := LaneOn s.tile k j ∧ (ea j).toNat ≤ x ∧ x < (ea j).toNat + sz
  (∀ j, LaneOn s.tile k j → (ea j).toNat % sz = 0 ∧ (ea j).toNat < 0x80000 ∧
    (s.tile.ex.prv = true ∨ s.tile.regs.shbase.toNat ≤ (ea j).toNat) ∧
    s.tile.gate false 3 none (upFrom (ea j).toNat sz) = .ok () ∧ s.tile.pad.bad.contains ((ea j).toNat / 8) = false) →
  s.tile.canIssue { regs := .v d :: .m k :: reads, reads := .v d :: .m k :: reads, unit := .localPort } →
    ∃ t, exec i s = .next t ∧ SameModule s t ∧ s.tile.SameUnits t.tile ∧ t.tile.ops = s.tile.ops ∧ s.tile.SameRegs t.tile [] ∧
      s.tile.NextPc t.tile 1 ∧ t.tile.iss.writes = s.tile.iss.writes ∧
      ∀ x, (∀ j, covers j x → (∀ l, j < l → ¬covers l x) →
          Memory.byte t.tile.pad.bytes x = BitVec.ofNat 8 (((s.tile.v d).get j).toNat / 2 ^ (8 * (x - (ea j).toNat)))) ∧
        ((∀ j, ¬covers j x) → Memory.byte t.tile.pad.bytes x = Memory.byte s.tile.pad.bytes x)

/-- R155 to R157: VST, VSTS and VSTG. -/
def VectorStores : Prop :=
  ∀ (s : State) (d v : VReg) (a b : GReg) (k : MReg) (ty : ElemTy),
    LocalVectorStore s (.vst d a k ty) d k [.g a] ty (fun i => s.tile.g a + BitVec.ofNat 64 (i.val * elemSize ty)) ∧
    LocalVectorStore s (.vsts d a b k ty) d k [.g a, .g b] ty (fun i => s.tile.g a + BitVec.ofInt 64 (i.val * (s.tile.g b).toInt)) ∧
    LocalVectorStore s (.vstg d a v k ty) d k [.g a, .v v] ty (fun i => s.tile.g a + BitVec.ofInt 64 ((s.tile.v v).get i).toInt)

/-- Bit k of the lane that holds an element (R126): a bit of the element, and above it a copy of the sign of S16 and S8, or 0. -/
def fillBit (ty : ElemTy) (x k : Nat) : Bool :=
  if k < 8 * elemSize ty then x.testBit k
  else match ty with
    | .s16 => x.testBit 15
    | .s8 => x.testBit 7
    | .f32 | .s32 | .n32 | .bf16 | .fp16 | .n8 => false

/-- R126: the width of each element type, and the lane that receives an element. -/
def LaneFill : Prop :=
  (∀ ty : ElemTy, elemSize ty = if ty = .f32 ∨ ty = .s32 ∨ ty = .n32 then 4 else if ty = .s8 ∨ ty = .n8 then 1 else 2) ∧
  ∀ (ty : ElemTy) (x k : Nat), x < 2 ^ (8 * elemSize ty) → k < 32 → (fillElem ty x).getLsbD k = fillBit ty x k

/-- R126, R155 to R158: vector loads and stores of local memory, and what a lane receives. -/
def Obligations.LocalVectors : Prop := VectorLoads ∧ VectorStores ∧ LaneFill

/-- A local vector access whose element e meets a condition that none of the elements before it meets traps with it, and with its lane
(R156). -/
def LaneTrap (s : State) (load : Bool) (x : Instr) (sz : Nat) (before : VElem → Prop) (e : VElem) : Prop :=
  ∀ cause tval, LocalTrap s.tile load e.ea.toNat sz cause tval → (∀ y, before y → Untrapped s.tile load y.ea.toNat sz) →
    ∃ t, exec x s = .next t ∧ TrapTaken s t cause (BitVec.ofNat 64 tval) s.tile.ex.pc
      (BitVec.ofNat 64 (s.tile.ni.step.val * 2 ^ 14 + (if load = true then 2 else 3) * 2 ^ 8 + 128 + e.lane.val)) s.tile.iss.cycle

/-- R23, R28, R155, R156, R158: a local vector instruction traps on the lowest enabled lane that meets a condition, with its first
condition; in VLDX on the lowest column of that lane. Nothing is read, written or counted. -/
def LaneTraps : Prop :=
  ∀ (s : State) (d v : VReg) (a b : GReg) (k : MReg) (ty : ElemTy) (i : Fin 16), s.tile.ex.cw = none → LaneOn s.tile k i →
    let sz := elemSize ty
    let reg (r : RegName) : List RegName := [.m k, .g a, r]
    let at_ (f : Fin 16 → Word) (j : Fin 16) : VElem := ⟨Fin.ofNat 64 j.val, d, f j⟩
    let lanes (load : Bool) (x : Instr) (f : Fin 16 → Word) : Prop :=
      LaneTrap s load x sz (fun y => ∃ j, j < i ∧ LaneOn s.tile k j ∧ y = at_ f j) (at_ f i)
    let loads (reads : List RegName) (x : Instr) (f : Fin 16 → Word) : Prop :=
      s.tile.canIssue { regs := .v d :: reads, reads := reads, unit := .localPort, cls := some .ld } → lanes true x f
    let stores (reads : List RegName) (x : Instr) (f : Fin 16 → Word) : Prop :=
      s.tile.canIssue { regs := .v d :: reads, reads := .v d :: reads, unit := .localPort } → lanes false x f
    let unit (j : Fin 16) : Word := s.tile.g a + BitVec.ofNat 64 (j.val * sz)
    let stride (j : Fin 16) : Word := s.tile.g a + BitVec.ofInt 64 (j.val * (s.tile.g b).toInt)
    let index (j : Fin 16) : Word := s.tile.g a + BitVec.ofInt 64 ((s.tile.v v).get j).toInt
    loads [.m k, .g a] (.vld d a k ty) unit ∧ loads (reg (.g b)) (.vlds d a b k ty) stride ∧ loads (reg (.v v)) (.vldg d a v k ty) index ∧
    stores [.m k, .g a] (.vst d a k ty) unit ∧ stores (reg (.g b)) (.vsts d a b k ty) stride ∧ stores (reg (.v v)) (.vstg d a v k ty) index ∧
    (∀ c, c < s.tile.regs.vl.val → sz = 4 →
      let word (j : Fin 16) (c : Nat) : VElem := ⟨Fin.ofNat 64 j.val, d + Fin.ofNat 32 c, stride j + BitVec.ofNat 64 (4 * c)⟩
      s.tile.canIssue { regs := ((List.range s.tile.regs.vl.val).map fun c => .v (d + Fin.ofNat 32 c)) ++ reg (.g b)
                        reads := reg (.g b), unit := .localPort, cls := some .ld } →
      LaneTrap s true (.vldx d a b k ty) 4
        (fun y => ∃ j n, LaneOn s.tile k j ∧ n < s.tile.regs.vl.val ∧ (j < i ∨ (j = i ∧ n < c)) ∧ y = word j n) (word i c))

/-- R155, R156, R159: VGLD and VGST issue with the checks of every enabled lane passed, as one operation with an element for each; a
store keeps the low bytes of each lane, and no byte of memory changes at issue. -/
def Obligations.GlobalVectors : Prop :=
  ∀ (s : State) (d : VReg) (a : GReg) (k : MReg) (ty : ElemTy) (hs : BitVec 8) (page : Fin 16 → TlbEntry),
    let sz := elemSize ty
    let ea (i : Fin 16) : Word := s.tile.g a + BitVec.ofNat 64 (i.val * sz)
    let pa (i : Fin 16) : Nat := (page i).pa + ((ea i).toNat - (page i).va)
    let ready (kind : AccessKind) : Prop := ∀ i, LaneOn s.tile k i → (ea i).toNat % sz = 0 ∧ Reaches s kind (ea i).toNat sz (page i)
    (∀ j : Fin 8, hs.getLsbD j.val = true ↔ ∃ i, LaneOn s.tile k i ∧ (s.tile.regs.h.get j).overlaps (ea i).toNat sz = true) →
    (∃ i, LaneOn s.tile k i) →
    (ready .load → s.tile.canIssue { regs := [.v d, .m k, .g a], reads := [.m k, .g a], cls := some .ld, hs := hs } →
      ∃ t op, exec (.vgld d a k ty) s = .next t ∧ Enters s t ∧ t.tile.eng = s.tile.eng ∧
        t.tile.ops = { s.tile.ops with stamp := s.tile.ops.stamp + 1, loads := s.tile.ops.loads ++ [op], kept := t.tile.ops.kept } ∧
        op.stamp = s.tile.ops.stamp ∧ op.kind = .global (.elem ty) ∧ op.regs = [.v d] ∧ op.hs = hs ∧ op.aclass = 4 ∧ op.ecc = none ∧
        ∀ x, x ∈ op.elems ↔ ∃ i : Fin 16, LaneOn s.tile k i ∧
          x = { reg := .v d, lane := Fin.ofNat 64 i.val, va := (ea i).toNat, pa := pa i, bytes := sz, val := none }) ∧
    (ready .store → s.tile.canIssue { regs := [.v d, .m k, .g a], reads := [.v d, .m k, .g a], cls := some .st, hs := hs } →
      ∃ t op, exec (.vgst d a k ty) s = .next t ∧ Enters s t ∧ t.tile.eng = s.tile.eng ∧
        t.tile.ops = { s.tile.ops with stamp := s.tile.ops.stamp + 1, stores := s.tile.ops.stores ++ [op], kept := t.tile.ops.kept } ∧
        op.stamp = s.tile.ops.stamp ∧ op.vec = true ∧ op.hs = hs ∧ op.ecc = none ∧
        ∀ x, x ∈ op.elems ↔ ∃ i : Fin 16, LaneOn s.tile k i ∧
          x = { lane := Fin.ofNat 64 i.val, va := (ea i).toNat, pa := pa i, data := toBytes ((s.tile.v d).get i).toNat sz, done := false })

/-! ## Matrix engine and shingles -/

/-- A form whose traps record an access class: on a condition, it takes the precise trap of a cause and a TVAL. -/
def TrapsWith (s : State) (i : Instr) (aclass : Nat) (cause : Nat) (tval : Word) : Prop :=
  ∃ t, exec i s = .next t ∧
    TrapTaken s t cause tval s.tile.ex.pc (BitVec.ofNat 64 (s.tile.ni.step.val * 2 ^ 14 + aclass * 2 ^ 8)) s.tile.iss.cycle

/-- An instruction of one word that changes nothing but the engine, the shingles and the outstanding operations of the tile. -/
def IssuesHere (s t : State) : Prop :=
  SameModule s t ∧ t.tile.id = s.tile.id ∧ t.tile.gang = s.tile.gang ∧ t.tile.inb = s.tile.inb ∧ t.tile.ni = s.tile.ni ∧
  t.tile.pl = s.tile.pl ∧ s.tile.SamePad t.tile ∧ s.tile.SameRegs t.tile [] ∧ s.tile.NextPc t.tile 1 ∧
  t.tile.iss.writes = s.tile.iss.writes

/-- R31, R168: MCFG writes an engine register whose fields are in range, without its reserved bits; it traps ILLEGAL otherwise. -/
def Obligations.EngineRegisters : Prop :=
  ∀ (s : State) (r : Fin 8) (a : GReg),
    let x := (s.tile.g a).toNat
    let ok (k : Nat) : Prop :=
      (k = 0 → x % 16 ≤ 3 ∧ x / 16 % 16 ≤ 2) ∧ (k = 1 → 1 ≤ x % 128 ∧ x % 128 ≤ 64) ∧ (k = 2 → 1 ≤ x % 256 ∧ x % 256 ≤ 128)
    let kept (k : Nat) : Nat :=
      if k = 0 then x % 256 else if k = 1 then x % 128 else if k = 2 then x % 256
      else if k = 3 then x % 128 + x / 256 % 128 * 256 else if k = 4 then x % 2 ^ 19 else x % 64
    s.tile.canIssue { regs := [.g a], reads := [.g a] } →
    (r.val < 6 → ok r.val → ∃ t, exec (.mcfg r a) s = .next t ∧ IssuesHere s t ∧ t.tile.ops = s.tile.ops ∧
      t.tile.eng = { s.tile.eng with regs := t.tile.eng.regs } ∧
      ∀ j : Fin 6, t.tile.eng.regs.get j = if j.val = r.val then BitVec.ofNat 64 (kept r.val) else s.tile.eng.regs.get j) ∧
    ((r.val ≥ 6 ∨ ¬ok r.val) → s.tile.ex.cw = none → ∃ t, exec (.mcfg r a) s = .next t ∧
      TrapTaken s t 0x01 (instrWord (.mcfg r a)) s.tile.ex.pc (BitVec.ofNat 64 (s.tile.ni.step.val * 2 ^ 14)) s.tile.iss.cycle)

/-- An operation of class MX has been entered under the next stamp. -/
def EntersMx (s t : State) (k : MxKind) (g : Geom) (sh : Option (Fin 64)) (off : Nat) : Prop :=
  t.tile.ops = { s.tile.ops with
    stamp := s.tile.ops.stamp + 1
    mx := s.tile.ops.mx ++ [{ stamp := s.tile.ops.stamp, kind := k, geom := g, sh := sh, off := off, doneAt := none, rows := none, recv := none }] }

/-- A READY shingle holds n bytes from an offset. -/
def ReadyExtent (t : Tile) (a : Word) (n : Nat) : Prop := ∃ x, t.sh (refSh a) = some x ∧ x.st = .ready ∧ refOff a + n ≤ x.len * 64

/-- R31, R163, R170: the geometry that an engine operation reads at issue, and the formats that the codes of MFMT name. -/
def GeomRead (t : Tile) (b : Word) (g : Geom) : Prop :=
  let names (c : Nat) (f : BlkFmt) : Prop := (c = 0 → f = .lb4) ∧ (c = 1 → f = .lb6) ∧ (c = 2 → f = .lb8) ∧ (c = 3 → f = .lb12)
  names ((t.eng.regs.get 0).toNat % 16) g.afmt ∧ names ((t.eng.regs.get 0).toNat / 16 % 16) g.bfmt ∧
  g.kb = (t.eng.regs.get 1).toNat ∧ g.n = (t.eng.regs.get 2).toNat ∧ g.row0 = (t.eng.regs.get 3).toNat % 128 ∧
  g.col0 = (t.eng.regs.get 3).toNat / 256 % 128 ∧ g.stride = (t.eng.regs.get 4).toNat ∧ g.kbase = (t.eng.regs.get 5).toNat ∧
  g.m = b.toNat % 256 ∧ g.c0 = b.toNat / 256 % 128

/-- What stops the shingle that an engine instruction names, with the TVAL of its trap (R35, R166, R170): it is undefined, or EMPTY, or it
ends before the last byte that the instruction names. -/
def ShingleTrap (t : Tile) (a : Word) (bytes tval : Nat) : Prop :=
  let n := refSh a
  let code (st : ShState) : Nat := match st with | .empty => 0 | .filling => 1 | .ready => 2 | .draining => 3
  (t.sh n = none ∧ tval = 1024 + n.val) ∨ ∃ x, t.sh n = some x ∧
    ((x.st = .empty ∧ tval = n.val) ∨
     (x.st ≠ .empty ∧ x.len * 64 < refOff a + bytes ∧ tval = (x.base + x.len * 64) * 2 ^ 32 + code x.st * 256 + n.val))

/-- R35, R37, R166, R170 to R172, R176, R178 to R180: where MLOADB, MZERO, MMA, MMAT, MACC2S and MS2ACC trap: ILLEGAL for a geometry that the
CIM or the accumulator does not hold, MISALIGN of MACC2S and MS2ACC ahead of every condition of their shingle, SHINGLE, and MXERR for the
lowest bad K-row. A member of a truss that is not the source of its row names no shingle. -/
def EngineTraps : Prop :=
  ∀ (s : State) (a b : GReg) (clr : Bool) (f : AccFmt) (tval : Nat), s.tile.ex.cw = none →
    let t := s.tile
    let x := t.g a
    let g := t.geom (t.g b)
    let cim : Prop := g.kbase + g.kb ≤ 64 ∧ g.c0 + g.n ≤ 128
    let acc : Prop := 1 ≤ g.m ∧ g.m ≤ 128 ∧ g.row0 + g.m ≤ 128 ∧ g.col0 + g.n ≤ 128
    let rs (packed : Nat) : Nat := if g.stride ≠ 0 then g.stride else packed
    let bytes (n row : Nat) : Nat := (n - 1) * rs row + row
    let arow := bytes g.m (g.kb * blkBytes g.afmt)
    let badRow (k : Nat) : Prop := 32 * g.kbase ≤ k ∧ k < 32 * (g.kbase + g.kb) ∧ t.eng.badRows.contains k = true
    let lowest : Prop := ∃ k, badRow k ∧ (∀ j, badRow j → k ≤ j) ∧ tval = k % 128 * 256 + k / 128
    let es := if f = .f32 then 4 else 2
    let base := (t.sh (refSh x)).elim 0 Shingle.base
    let illegal (i : Instr) : Prop := TrapsWith s i 0 0x01 (instrWord i)
    let traps (i : Instr) (cause : Nat) : Prop := TrapsWith s i 9 cause (BitVec.ofNat 64 tval)
    let free : Prop := t.canIssue { regs := [.g a, .g b], reads := [.g a, .g b], cls := some .mx }
    let multiply (i : Instr) : Prop := (¬(cim ∧ acc) → illegal i) ∧ (cim → acc →
      (ShingleTrap t x arow tval → traps i 0x09) ∧ ((∀ v, ¬ShingleTrap t x arow v) → lowest → traps i 0x0C))
    let copy (i : Instr) : Prop := (¬acc → illegal i) ∧ (acc →
      (refOff x % es ≠ 0 → tval = base + refOff x → traps i 0x04) ∧
      (refOff x % es = 0 → rs (g.n * es) % es ≠ 0 → tval = base + refOff x + rs (g.n * es) → traps i 0x04) ∧
      (refOff x % es = 0 → rs (g.n * es) % es = 0 → ShingleTrap t x (bytes g.m (g.n * es)) tval → traps i 0x09))
    (t.canIssue { regs := [.g b], reads := [.g b], cls := some .mx } → ¬acc → illegal (.mzero b)) ∧
    (free → (¬cim → illegal (.mloadb a b)) ∧
      (cim → ShingleTrap t x (bytes g.n (g.kb * blkBytes g.bfmt)) tval → traps (.mloadb a b) 0x09) ∧
      multiply (.mma a b) ∧ copy (.macc2s a b clr f) ∧ copy (.ms2acc a b f) ∧
      (t.eng.joined = false ∨ t.eng.pos.val % 3 = 0 → multiply (.mmat a b)) ∧
      (t.eng.joined = true → t.eng.pos.val % 3 ≠ 0 →
        (¬(cim ∧ acc) → illegal (.mmat a b)) ∧ (cim → acc → lowest → traps (.mmat a b) 0x0C)))

/-- R163 to R180: MLOADB, MZERO, MMA, MMAT, MACC2S and MS2ACC enter class MX with the geometry of their issue, when their shingle is
READY, their extents lie inside it, and the store and the accumulator hold them. -/
def OperationsEnter : Prop :=
  ∀ (s : State) (a b : GReg) (clr : Bool) (f : AccFmt),
    let x := s.tile.g a
    let g := s.tile.geom (s.tile.g b)
    let cim : Prop := g.kbase + g.kb ≤ 64 ∧ g.c0 + g.n ≤ 128
    let acc : Prop := 1 ≤ g.m ∧ g.m ≤ 128 ∧ g.row0 + g.m ≤ 128 ∧ g.col0 + g.n ≤ 128
    let rs (packed : Nat) : Nat := if g.stride ≠ 0 then g.stride else packed
    let rows (n row : Nat) : Nat := (n - 1) * rs row + row
    let arow := g.kb * blkBytes g.afmt
    let good : Prop := ∀ k, 32 * g.kbase ≤ k → k < 32 * (g.kbase + g.kb) → s.tile.eng.badRows.contains k = false
    let es := if f = .f32 then 4 else 2
    let free : Prop := s.tile.canIssue { regs := [.g a, .g b], reads := [.g a, .g b], cls := some .mx }
    let enters (i : Instr) (k : MxKind) (sh : Option (Fin 64)) (off : Nat) : Prop :=
      ∃ t, exec i s = .next t ∧ IssuesHere s t ∧ t.tile.eng = s.tile.eng ∧ EntersMx s t k g sh off
    let multiply : Prop := cim ∧ acc ∧ good ∧ ReadyExtent s.tile x (rows g.m arow)
    let copy : Prop := acc ∧ refOff x % es = 0 ∧ rs (g.n * es) % es = 0 ∧ ReadyExtent s.tile x ((g.m - 1) * rs (g.n * es) + g.n * es)
    GeomRead s.tile (s.tile.g b) g ∧
    (free → cim → ReadyExtent s.tile x (rows g.n (g.kb * blkBytes g.bfmt)) →
      enters (.mloadb a b) .mloadb (some (refSh x)) (refOff x)) ∧
    (s.tile.canIssue { regs := [.g b], reads := [.g b], cls := some .mx } → acc → enters (.mzero b) .mzero none 0) ∧
    (free → multiply → enters (.mma a b) .mma (some (refSh x)) (refOff x)) ∧
    (free → s.tile.eng.joined = false → multiply → enters (.mmat a b) (.mmat false true 0) (some (refSh x)) (refOff x)) ∧
    (free → s.tile.eng.joined = true → s.tile.eng.pos.val % 3 = 0 → multiply →
      ∃ t, exec (.mmat a b) s = .next t ∧ IssuesHere s t ∧ t.tile.eng = { s.tile.eng with mmats := s.tile.eng.mmats + 1 } ∧
        EntersMx s t (.mmat true true s.tile.eng.mmats) g (some (refSh x)) (refOff x)) ∧
    (free → s.tile.eng.joined = true → s.tile.eng.pos.val % 3 ≠ 0 → cim → acc → good →
      ∃ t, exec (.mmat a b) s = .next t ∧ IssuesHere s t ∧ t.tile.eng = { s.tile.eng with mmats := s.tile.eng.mmats + 1 } ∧
        EntersMx s t (.mmat true false s.tile.eng.mmats) g none 0) ∧
    (free → copy → enters (.macc2s a b clr f) (.macc2s clr f s.tile.regs.fmode.val) (some (refSh x)) (refOff x)) ∧
    (free → copy → enters (.ms2acc a b f) (.ms2acc f) (some (refSh x)) (refOff x))

/-- R35, R37, R163 to R180: the engine operations at issue: where they enter class MX, and where they trap. -/
def Obligations.EngineOperations : Prop := OperationsEnter ∧ EngineTraps

/-- Notices have been sent (R175, R177): each has left for where its sender's NI finds its member, under a serial number of its own. -/
def Notifies (s t : State) (told : List Notice) : Prop :=
  let bare (x : Notice) : Notice := { x with serial := 0, phys := none }
  t.fab = { s.fab with serial := t.fab.serial, flits := t.fab.flits, moves := t.fab.moves, notices := t.fab.notices } ∧
  ∃ new, t.fab.notices = s.fab.notices ++ new ∧ new.map bare = told

/-- R174, R175, R177, R182: MSWAP takes its READY shingle to FILLING and counts the exchange; MJOIN joins the tile to its plan and MLEAVE
leaves it once MX is 0, each with a notice to every member; MLEAVE has no effect outside a truss. -/
def TrussesEnter : Prop :=
  ∀ (s : State) (a b : GReg) (p : Plan) (pos : Nat) (x : Shingle),
    let n := refSh (s.tile.g a)
    let q := (s.tile.g b).toNat % 2 ^ 24
    let k := (s.tile.g a).toNat % 2 ^ 16
    let member (k : Nat) : Nat := (p.row0 + k / p.cols) * 4096 + (p.col0 + k % p.cols)
    let told (plan : Nat) (leave : Bool) : List Notice :=
      (List.range (p.rows * p.cols)).map fun k => ⟨0, { s.tile.id with vt := member k }, none, s.tile.id.vt, plan, leave⟩
    (s.tile.canIssue { regs := [.g a, .g b], reads := [.g a, .g b], cls := some .mx } →
      inGrid s.tile.gang.rows s.tile.gang.cols q = true → s.tile.sh n = some x → x.st = .ready → s.tile.holds n = false →
      ∃ t, exec (.mswap a b) s = .next t ∧ IssuesHere s t ∧
        EntersMx s t (.mswap q (tget 0 s.tile.eng.mswaps q)) (s.tile.geom 0) (some n) 0 ∧
        t.tile.eng = { s.tile.eng with shingles := t.tile.eng.shingles, mswaps := t.tile.eng.mswaps } ∧
        (∀ r, tget 0 t.tile.eng.mswaps r = tget 0 s.tile.eng.mswaps r + if r = q then 1 else 0) ∧
        ∀ j, t.tile.sh j = if j = n then some { x with st := .filling, wmark := 0, fctr := 0 } else s.tile.sh j) ∧
    (s.tile.canIssue { regs := [.g a], reads := [.g a], cls := some .mx } → s.tile.eng.joined = false →
      s.tile.gang.prog.plans[k]? = some p → p.posOf s.tile.id.vt = some pos → pos < 6 →
      ∃ t, exec (.mjoin a) s = .next t ∧ IssuesHere { s with fab := t.fab } t ∧ EntersMx s t (.mjoin k) (s.tile.geom 0) none 0 ∧
        t.tile.eng = { s.tile.eng with joined := true, pos := t.tile.eng.pos, plan := BitVec.ofNat 16 k, joinSerial := s.fab.serial, mmats := 0 } ∧
        t.tile.eng.pos.val = pos ∧ Notifies s t (told k false)) ∧
    (s.tile.eng.joined = false → ∃ t, exec .mleave s = .next t ∧ Frame s t [] 1 ∧ t.tile.iss.writes = s.tile.iss.writes) ∧
    (s.tile.eng.joined = true → s.tile.ops.mx = [] → s.tile.gang.prog.plans[s.tile.eng.plan.toNat]? = some p →
      ∃ t, exec .mleave s = .next t ∧ IssuesHere { s with fab := t.fab } t ∧ t.tile.ops = s.tile.ops ∧
        t.tile.eng = { s.tile.eng with joined := false, pos := 0, plan := 0 } ∧ Notifies s t (told s.tile.eng.plan.toNat true)) ∧
    (s.tile.eng.joined = true → s.tile.ops.mx ≠ [] → exec .mleave s = .next (s.stall 22))

/-- R35, R166, R175, R182: MSWAP traps XLATE for a partner outside the grid, then SHINGLE for a shingle that is undefined or EMPTY; MJOIN
traps ILLEGAL in a truss already, for a plan that is not there, and outside the plan's rectangle. -/
def TrussTraps : Prop :=
  ∀ (s : State) (a b : GReg), s.tile.ex.cw = none →
    let t := s.tile
    let n := refSh (t.g a)
    let inside : Prop := inGrid t.gang.rows t.gang.cols ((t.g b).toNat % 2 ^ 24) = true
    (t.canIssue { regs := [.g a, .g b], reads := [.g a, .g b], cls := some .mx } →
      (¬inside → TrapsWith s (.mswap a b) 9 0x06 (t.g b)) ∧
      (inside → t.sh n = none → TrapsWith s (.mswap a b) 9 0x09 (BitVec.ofNat 64 (1024 + n.val))) ∧
      (inside → ∀ x, t.sh n = some x → x.st = .empty → TrapsWith s (.mswap a b) 9 0x09 (BitVec.ofNat 64 n.val))) ∧
    (t.canIssue { regs := [.g a], reads := [.g a], cls := some .mx } →
      (t.eng.joined = true ∨ ∀ p, t.gang.prog.plans[(t.g a).toNat % 2 ^ 16]? = some p → ∀ r c, r < p.rows → c < p.cols →
        t.id.vt ≠ (p.row0 + r) * 4096 + (p.col0 + c)) → TrapsWith s (.mjoin a) 0 0x01 (instrWord (.mjoin a)))

/-- R35, R166, R174, R175, R177, R182: MSWAP, MJOIN and MLEAVE at issue. -/
def Obligations.Trusses : Prop := TrussesEnter ∧ TrussTraps

/-- An instruction of one word whose only effect is the entry of shingle n. -/
def SetsShingle (s t : State) (n : Fin 64) (x : Option Shingle) : Prop :=
  IssuesHere s t ∧ t.tile.ops = s.tile.ops ∧ t.tile.eng = { s.tile.eng with shingles := t.tile.eng.shingles } ∧
  ∀ j, t.tile.sh j = if j = n then x else s.tile.sh j

/-- Base and length satisfy R26 for shingle n. -/
def FitsShingle (t : Tile) (n : Fin 64) (base len : Nat) : Prop :=
  base % 64 = 0 ∧ 1 ≤ len ∧ len ≤ 8192 ∧ base + len * 64 ≤ 0x80000 ∧ t.regs.shbase.toNat ≤ base ∧
  ∀ (m : Fin 64) (x : Shingle), m ≠ n → t.sh m = some x → base + len * 64 ≤ x.base ∨ x.base + x.len * 64 ≤ base

/-- R25 to R27, R166, R183 to R186: the shingle instructions, with the conditions under which each has its effect, and the traps of SHDEF,
SHFREE and SHRDY. -/
def Obligations.Shingles : Prop :=
  ∀ (s : State) (d a b : GReg) (n : Fin 64) (x : Shingle),
    let w := (s.tile.g a).toNat
    let y := (s.tile.g b).toNat
    let r := refSh (s.tile.g a)
    let step : Word := BitVec.ofNat 64 (s.tile.ni.step.val * 2 ^ 14)
    let base := y % 2 ^ 19
    let len := y / 2 ^ 19 % 2 ^ 14
    let code (st : ShState) : Nat := match st with | .empty => 0 | .filling => 1 | .ready => 2 | .draining => 3
    (s.tile.canIssue { regs := [.g a, .g b], reads := [.g a, .g b] } →
      (FitsShingle s.tile r base len → s.tile.sh r = none →
        ∃ t, exec (.shdef a b) s = .next t ∧ SetsShingle s t r (some ⟨.empty, 0, len, base, 0, 0⟩)) ∧
      (s.tile.ex.cw = none → ¬FitsShingle s.tile r base len →
        ∃ t, exec (.shdef a b) s = .next t ∧ TrapTaken s t 0x07 (BitVec.ofNat 64 base) s.tile.ex.pc step s.tile.iss.cycle) ∧
      (s.tile.ex.cw = none → FitsShingle s.tile r base len → s.tile.sh r = some x →
        ∃ t, exec (.shdef a b) s = .next t ∧
          TrapTaken s t 0x09 (BitVec.ofNat 64 (code x.st * 256 + r.val)) s.tile.ex.pc step s.tile.iss.cycle) ∧
      (s.tile.ex.prv = true → s.tile.holds n = false →
        (w < 2 ^ 63 → ∃ t, exec (.shset a b n) s = .next t ∧ SetsShingle s t n none) ∧
        (2 ^ 63 ≤ w → code x.st = w / 2 ^ 59 % 4 → x.base = w % 2 ^ 19 → x.len = w / 2 ^ 19 % 2 ^ 14 →
          x.wmark = w / 2 ^ 39 % 2 ^ 20 → x.fctr.toNat = y % 2 ^ 32 → x.dctr.toNat = y / 2 ^ 32 → FitsShingle s.tile n x.base x.len →
          x.wmark ≤ x.len * 64 → ∃ t, exec (.shset a b n) s = .next t ∧ SetsShingle s t n (some x)))) ∧
    (s.tile.canIssue { regs := [.g a], reads := [.g a] } → s.tile.sh r = some x → x.st = .empty ∨ x.st = .ready →
      (s.tile.holds r = false → ∃ t, exec (.shfree a) s = .next t ∧ SetsShingle s t r none) ∧
      ∃ t, exec (.shrdy a) s = .next t ∧
        SetsShingle s t r (some (if x.st = .empty then { x with st := .ready, wmark := x.len * 64 } else x))) ∧
    (s.tile.canIssue { regs := [.g a], reads := [.g a] } → s.tile.ex.cw = none → s.tile.sh r = none →
      ∀ i ∈ [Instr.shfree a, .shrdy a], TrapsWith s i 0 0x09 (BitVec.ofNat 64 (1024 + r.val))) ∧
    (s.tile.sh r = none → ∀ w1, LateResult s (.shstat d a w1) d [.g a] .other 2 0) ∧
    (s.tile.sh r = some x → x.base < 2 ^ 19 → x.len < 2 ^ 14 → x.wmark < 2 ^ 20 →
      LateResult s (.shstat d a false) d [.g a] .other 2
        (BitVec.ofNat 64 (2 ^ 63 + code x.st * 2 ^ 59 + x.wmark * 2 ^ 39 + x.len * 2 ^ 19 + x.base)) ∧
      LateResult s (.shstat d a true) d [.g a] .other 2 (BitVec.ofNat 64 (x.dctr.toNat * 2 ^ 32 + x.fctr.toNat)))

/-! ## Copies -/

/-- What R187 asks of the global range of a copy: mapped by the given translations, which the NI has at hand (R284, R340), with no mode
change pending, and the permissions and modes of every page. -/
def RangeReaches (s : State) (k : AccessKind) (va n : Nat) (l : List TlbEntry) : Prop :=
  s.tile.handPages va n = (l, none) ∧ (n ≠ 0 → s.modePending s.tile.gang.asid va n = false) ∧
  ∀ e, e ∈ l → permits e.perms s.tile.ex.prv k = true ∧
    admits (s.tile.modeFor e (e.lowest va)).1 ((s.tile.modeFor e (e.lowest va)).2 == s.tile.id.vt) k = true

/-- A counter that an instruction may name: none, or one that is no system counter and whose home the partition is not denied (R210,
R219). -/
def CtrFree (s : State) (id : W32) : Prop :=
  id = 0 ∨ (id.toNat < 0xFFFFF000 ∧ s.tile.denied 0 ((s.part s.tile.id.part).ctrHome id) = false)

/-- What the issue of a copy changes: the tile, the flits and the remote fills that leave it, and a credit of pending bytes. In the tile,
one more copy, entered under the next stamp; the fills and the shingles are given by each form. -/
def EntersCopy (s u : State) (c : OutCopy) : Prop :=
  u = { s with
    tile := u.tile, sync := u.sync
    fab := { s.fab with serial := u.fab.serial, flits := u.fab.flits, moves := u.fab.moves, remotes := u.fab.remotes } } ∧
  u.tile.id = s.tile.id ∧ u.tile.gang = s.tile.gang ∧ u.tile.inb = s.tile.inb ∧ u.tile.pl = s.tile.pl ∧ s.tile.SamePhys u.tile ∧
  s.tile.SamePad u.tile ∧ s.tile.SameRegs u.tile [] ∧ s.tile.NextPc u.tile 1 ∧ u.tile.iss.writes = s.tile.iss.writes ∧
  u.tile.ops = { s.tile.ops with
    stamp := s.tile.ops.stamp + 1, copies := s.tile.ops.copies ++ [c], fills := u.tile.ops.fills, kept := u.tile.ops.kept } ∧
  s.tile.Keeps u.tile ∧
  u.tile.eng = { s.tile.eng with shingles := u.tile.eng.shingles } ∧ c.stamp = s.tile.ops.stamp ∧ c.units = [] ∧ c.visible = false

/-- R187 to R193: the copies as they issue. CPIN takes its shingle to FILLING; CPOUT takes it to DRAINING and keeps the bytes that it
drains; CPDEAL and CPT send a remote fill to each recipient; with XP, the total is expected at the counter. -/
def Obligations.Copies : Prop :=
  ∀ (s : State) (a b : GReg) (sc : Scope) (acq rel xp : Bool) (x : Shingle) (l : List TlbEntry) (dl : Deal),
    let w := (s.tile.g a).toNat
    let y := (s.tile.g b).toNat
    let va := w % 2 ^ 56
    let n : Fin 64 := Fin.ofNat 64 (w / 2 ^ 56)
    let id : W32 := BitVec.ofNat 32 y
    let id2 : W32 := BitVec.ofNat 32 (y / 2 ^ 32)
    let free (hs : BitVec 8) : Prop := s.tile.canIssue { regs := [.g a, .g b], reads := [.g a, .g b], cls := some .cp, hs := hs }
    let expects (total : Nat) (t : State) : Prop :=
      if xp = true ∧ id ≠ 0 then
        ∃ k, t.sync = { s.sync with credits := s.sync.credits ++ [⟨k, s.tile.gang.asid, s.tile.id.gid, id, 0, total⟩] }
      else t.sync = s.sync
    (∀ len, len = (if y / 2 ^ 32 % 2 ^ 20 ≠ 0 then y / 2 ^ 32 % 2 ^ 20 else x.len * 64) →
      free (s.tile.handlesOf [(va, len)]) → CtrFree s id → RangeReaches s .copyIn va len l → s.tile.sh n = some x →
      x.st = .empty ∨ x.st = .ready → s.tile.holds n = false → len ≤ x.len * 64 →
      ∃ t c, exec (.cpin a b sc acq xp) s = .next t ∧ expects len t ∧ EntersCopy s t c ∧ t.fab.remotes = s.fab.remotes ∧
        c.kind = .cpin ∧ c.sh = n ∧ c.va = va ∧ c.len = len ∧ c.pages = pageBases l va len ∧ c.ctr = id ∧ c.left = len ∧
        t.tile.ops.fills = s.tile.ops.fills ++ [⟨.copy s.tile.id.vt s.tile.ops.stamp 0, n, len, len, []⟩] ∧
        ∀ j, t.tile.sh j = if j = n then some { x with st := .filling, wmark := 0, fctr := id } else s.tile.sh j) ∧
    (free (s.tile.handlesOf [(va, x.wmark)]) → CtrFree s id → CtrFree s id2 → RangeReaches s .copyOut va x.wmark l →
      s.tile.sh n = some x → x.st = .ready → s.tile.holds n = false →
      (∀ k, x.base ≤ k → k < x.base + x.wmark + 8 → s.tile.pad.bad.contains (k / 8) = false) →
      ∃ t c, exec (.cpout a b sc rel) s = .next t ∧ t.sync = s.sync ∧ EntersCopy s t c ∧ t.fab.remotes = s.fab.remotes ∧ c.kind = .cpout ∧ c.sh = n ∧ c.va = va ∧
        c.len = x.wmark ∧ c.pages = pageBases l va x.wmark ∧ c.ctr = id ∧ c.vis = id2 ∧ c.flag = rel ∧ c.bad = [] ∧
        (∀ k, k < x.wmark → Memory.byte c.buf k = Memory.byte s.tile.pad.bytes (x.base + k)) ∧
        t.tile.ops.fills = s.tile.ops.fills ∧
        ∀ j, t.tile.sh j = if j = n then some { x with st := .draining, dctr := id } else s.tile.sh j) ∧
    (∀ total, total = y / 2 ^ 40 → s.tile.gang.prog.deals[y / 2 ^ 32 % 2 ^ 8]? = some dl →
      (total = 0 → s.tile.canIssue { regs := [.g a, .g b], reads := [.g a, .g b] } →
        ∃ t, exec (.cpdeal a b sc acq xp) s = .next t ∧ Frame s t [] 1 ∧ t.tile.iss.writes = s.tile.iss.writes) ∧
      (total ≠ 0 → free (s.tile.handlesOf [(va, total)]) → CtrFree s id → RangeReaches s .copyIn va total l →
        ∃ t c new, exec (.cpdeal a b sc acq xp) s = .next t ∧ expects total t ∧ EntersCopy s t c ∧ c.kind = .cpdeal dl ∧ c.sh = n ∧
          c.va = va ∧ c.len = total ∧ c.pages = pageBases l va total ∧ c.ctr = id ∧ c.left = total ∧
          t.tile.ops.fills = s.tile.ops.fills ∧ t.tile.eng = s.tile.eng ∧ t.fab.remotes = s.fab.remotes ++ new ∧
          (∀ (r : Nat), (∃ m ∈ new, m.recip = r) ↔ r < dl.rows * dl.cols ∧ dl.share total r ≠ 0) ∧
          ∀ m ∈ new, m.dst = { s.tile.id with vt := dl.recipient m.recip } ∧ m.issuer = s.tile.id.vt ∧
            m.stamp = s.tile.ops.stamp ∧ m.sh = n ∧ m.len = dl.share total m.recip ∧ m.ctr = id ∧ m.parked = false)) ∧
    (s.tile.canIssue { regs := [.g a, .g b], reads := [.g a, .g b], cls := some .cp } → CtrFree s id →
      ∀ src : Fin 64, src = Fin.ofNat 64 (w / 2 ^ 32) → inGrid s.tile.gang.rows s.tile.gang.cols (w % 2 ^ 24) = true →
      s.tile.sh src = some x → x.st = .ready →
      (∀ k, x.base ≤ k → k < x.base + x.wmark + 8 → s.tile.pad.bad.contains (k / 8) = false) →
      ∃ t c phys, exec (.cpt a b xp) s = .next t ∧ expects x.wmark t ∧ EntersCopy s t c ∧ c.kind = .cpt ∧ c.sh = src ∧
        c.len = x.wmark ∧ c.ctr = id ∧ c.left = x.wmark ∧ c.pages = [] ∧ c.released = decide (x.wmark = 0) ∧
        t.tile.ops.fills = s.tile.ops.fills ∧ t.tile.eng = s.tile.eng ∧ t.fab.remotes = s.fab.remotes ++
          [⟨s.fab.serial, { s.tile.id with vt := w % 2 ^ 24 }, s.tile.id.vt, s.tile.ops.stamp, 0, Fin.ofNat 64 (w / 2 ^ 24), x.wmark,
            id, phys, false⟩])

/-! ## Messages and channels -/

/-- A message has been issued (R198, R200, R307): one operation of class MS, and in the fabric one message more, numbered for its
destination and channel; nothing else has changed but which messages have left their source. -/
def Sends (s t : State) (rel : Bool) (dst : Nat) (c : Fin 64) (kind : MsgKind) (payload : List Byte) : Prop :=
  let q := (s.tile.inb.outSeqs.find? fun o => decide (o.dst = dst ∧ o.chan = c)).elim 0 OutSeq.next
  let here (m : Msg) : Msg := { m with sent := false, phys := none }
  t = { s with tile := t.tile, fab := { s.fab with
    serial := s.fab.serial + 1, flight := t.fab.flight, flits := t.fab.flits, moves := t.fab.moves } } ∧
  t.tile.id = s.tile.id ∧ t.tile.gang = s.tile.gang ∧ t.tile.eng = s.tile.eng ∧ t.tile.ni = s.tile.ni ∧ t.tile.pl = s.tile.pl ∧
  s.tile.SamePad t.tile ∧ s.tile.SameRegs t.tile [] ∧ s.tile.NextPc t.tile 1 ∧ t.tile.iss.writes = s.tile.iss.writes ∧
  t.tile.inb = { s.tile.inb with outSeqs := t.tile.inb.outSeqs } ∧
  (t.tile.inb.outSeqs.find? fun o => decide (o.dst = dst ∧ o.chan = c)) = some ⟨dst, c, q + 1⟩ ∧
  t.tile.ops = { s.tile.ops with
    stamp := s.tile.ops.stamp + 1
    ms := s.tile.ops.ms ++ [{ stamp := s.tile.ops.stamp, kind := .msg, rel := rel, hs := 0, done := false }] } ∧
  t.fab.flight.map here = s.fab.flight.map here ++
    [{ serial := s.fab.serial, part := s.tile.id.part, gid := s.tile.id.gid, origin := .op s.tile.id.vt s.tile.ops.stamp, dst := dst
       chan := c, kind := kind, rfs := false, seqno := q, src := BitVec.ofNat 24 s.tile.id.vt, payload := payload, sent := false
       phys := none, parked := false }]

/-- R199 to R201: SEND reads its 64 bytes at issue, SENDV its 16 lanes whatever VL is, CALLAT its target and four arguments; each sends
one message to a virtual tile of the grid. -/
def Obligations.Messages : Prop :=
  ∀ (s : State) (a b : GReg) (v : VReg) (sc : Scope) (rel : Bool) (w : Window) (o : Nat),
    let x := (s.tile.g a).toNat
    let dst := x % 2 ^ 24
    let c : Fin 64 := Fin.ofNat 64 (x / 2 ^ 24)
    inGrid s.tile.gang.rows s.tile.gang.cols dst = true →
    ((s.tile.g b).toNat % 64 = 0 → windowOf (s.tile.g b).toNat = some (w, o) → s.tile.gate true 10 none (w.touch o 64) = .ok () →
      s.tile.badLocal w o 64 = none → s.tile.canIssue { regs := [.g a, .g b], reads := [.g a, .g b], cls := some .ms } →
      ∃ t, exec (.send a b sc rel) s = .next t ∧ Sends s t rel dst c .send (toBytes (s.tile.readLocal w o 64) 64)) ∧
    (s.tile.canIssue { regs := [.g a, .v v], reads := [.g a, .v v], cls := some .ms } →
      ∃ t, exec (.sendv a v sc rel) s = .next t ∧
        Sends s t rel dst c .sendv ((s.tile.v v).toList.flatMap fun l => toBytes l.toNat 4)) ∧
    (b.val ≤ 28 → let rs : List RegName := [.g a, .g b, .g (b + 1), .g (b + 2), .g (b + 3)]
      s.tile.canIssue { regs := rs, reads := rs, cls := some .ms } →
      ∃ t, exec (.callat a b sc rel) s = .next t ∧ Sends s t rel dst 63 .call
        (toBytes (x / 2 ^ 32 % 2 ^ 19) 8 ++ toBytes (s.tile.g b).toNat 8 ++ toBytes (s.tile.g (b + 1)).toNat 8 ++
          toBytes (s.tile.g (b + 2)).toNat 8 ++ toBytes (s.tile.g (b + 3)).toNat 8 ++
          toBytes (s.tile.id.vt % 2 ^ 24 + x / 2 ^ 24 % 64 * 2 ^ 24) 4 ++ toBytes 0 20))

/-- An instruction of one word that changes nothing but the handler table. -/
def SetsChans (s t : State) : Prop :=
  SameModule s t ∧ t.tile.id = s.tile.id ∧ t.tile.gang = s.tile.gang ∧ t.tile.eng = s.tile.eng ∧ t.tile.ni = s.tile.ni ∧
  t.tile.pl = s.tile.pl ∧ t.tile.ops = s.tile.ops ∧ s.tile.SamePad t.tile ∧ s.tile.SameRegs t.tile [] ∧ s.tile.NextPc t.tile 1 ∧
  t.tile.iss.writes = s.tile.iss.writes ∧ t.tile.inb = { s.tile.inb with chans := t.tile.inb.chans }

/-- The overflow allocation of a partition holds what the queues of its virtual tiles and the tables of the engines take (R302, R346, with
log 21). -/
def OverflowFits (s : State) (part : Nat) : Prop :=
  (s.tiles.filter fun t => decide (t.id.part = part ∧ t.id.gid ≠ 0)).foldl (fun n t => n + t.overflowBytes) 0 + s.engineOverflow part ≤
    (s.part part).gov.ovfalloc

/-- R29, R203 to R205: BIND, UNBIND and CHMASK; BIND traps PERM for an entry outside the code segment. For BIND, no message of the channel
is held in the reorder window, no mailbox write waits at a port, and the overflow allocation of the partition holds what it must (R302). -/
def TableChanges : Prop :=
  ∀ (s : State) (c : Fin 64) (a b : GReg),
    let x := (s.tile.g a).toNat
    let e := s.tile.inb.chans.get c
    (s.tile.canIssue { regs := [.g a], reads := [.g a] } → x % 2 ^ 19 / 4 * 4 < s.tile.regs.shbase.toNat →
      (∀ m ∈ s.tile.inb.window, m.chan ≠ c) → (s.part s.tile.id.part).held = [] → OverflowFits s s.tile.id.part →
      ∃ t, exec (.bind c a) s = .next t ∧ SetsChans s t ∧ ∀ j, t.tile.inb.chans.get j = if j = c then
        { bound := true, seq := x / 2 ^ 62 % 2 == 1, mask := x / 2 ^ 61 % 2 == 1, pri := Fin.ofNat 8 (x / 2 ^ 58)
          quota := min (x / 2 ^ 49 % 2 ^ 9) 256, age := e.age, entry := x % 2 ^ 19 / 4 } else s.tile.inb.chans.get j) ∧
    (s.tile.ex.cw = none → s.tile.canIssue { regs := [.g a], reads := [.g a] } → s.tile.regs.shbase.toNat ≤ x % 2 ^ 19 / 4 * 4 →
      TrapsWith s (.bind c a) 10 0x07 (BitVec.ofNat 64 (x % 2 ^ 19 / 4 * 4))) ∧
    (∃ t, exec (.unbind c) s = .next t ∧ SetsChans s t ∧
      ∀ j, t.tile.inb.chans.get j = if j = c then { e with bound := false } else s.tile.inb.chans.get j) ∧
    (s.tile.canIssue { regs := [.g a, .g b], reads := [.g a, .g b] } →
      ∃ t, exec (.chmask a b) s = .next t ∧ SetsChans s t ∧
        ∀ j : Fin 64, t.tile.inb.chans.get j =
          { s.tile.inb.chans.get j with
            mask := if (s.tile.g b).getLsbD j.val then (s.tile.g a).getLsbD j.val else (s.tile.inb.chans.get j).mask })

/-- The table entries after a message has been freed: AGE becomes 0 where no message of its channel is left (R264). -/
def AgesAfter (s u : State) (x : Slot) (left : List Slot) : Prop :=
  ∀ j, u.tile.inb.chans.get j =
    if j = x.chan ∧ (∀ y ∈ left, y.chan ≠ x.chan) then { s.tile.inb.chans.get j with age := 0 } else s.tile.inb.chans.get j

/-- R206, R207, R209, R264: DONE ends the activation, frees the current message unless KEEP, finishes the virtual tile with FINAL, and then
the selector chooses; it traps ILLEGAL outside an activation, and for KEEP with FINAL. INSKIP frees the current message and makes the
channel's next one current. -/
def ActivationEnds : Prop :=
  ∀ (s : State) (d a : GReg) (keep fin : Bool) (x : Slot),
    let without : List Slot := s.tile.inb.slots.filter fun y => decide (y.slot ≠ x.slot)
    let held : Prop := s.tile.ex.curSlot = some x.slot ∧ s.tile.current = some x
    let ended (u : State) : Prop :=
      SameModule s u ∧ u.tile.id = s.tile.id ∧ u.tile.gang = s.tile.gang ∧
      u.tile.eng = s.tile.eng ∧ u.tile.ni = s.tile.ni ∧ u.tile.ops = s.tile.ops ∧ s.tile.SamePad u.tile ∧ s.tile.SameRegs u.tile [] ∧
      u.tile.iss.writes = s.tile.iss.writes ∧
      u.tile.ex = { s.tile.ex with pc := s.tile.ex.pc + 4, branch := none, tvecFetch := false, inh := false, chan := 0, prv := false, curSlot := none } ∧
      u.tile.pl = { s.tile.pl with
        idleSince := s.fab.time, finished := s.tile.pl.finished || fin, status := if fin then (s.tile.g a).truncate 32 else s.tile.pl.status }
    (s.tile.canIssue { regs := [.g a], reads := [.g a] } → s.tile.ex.inh = true → (fin && keep) = false →
      (held → ∃ u, exec (.done a fin keep) s = .next (u.select true) ∧ ended u ∧
        (keep = true → u.tile.inb = s.tile.inb) ∧
        (keep = false → u.tile.inb = { s.tile.inb with slots := without, chans := u.tile.inb.chans } ∧ AgesAfter s u x without)) ∧
      (s.tile.current = none → ∃ u, exec (.done a fin keep) s = .next (u.select true) ∧ ended u ∧ u.tile.inb = s.tile.inb)) ∧
    (s.tile.ex.cw = none → s.tile.canIssue { regs := [.g a], reads := [.g a] } → s.tile.ex.inh = false ∨ (fin = true ∧ keep = true) →
      TrapsWith s (.done a fin keep) 0 0x01 (instrWord (.done a fin keep))) ∧
    (s.tile.canIssue { regs := [.g d] } → held →
      ∃ t, exec (.inskip d) s = .next t ∧ SameModule s t ∧ t.tile.id = s.tile.id ∧ t.tile.gang = s.tile.gang ∧ t.tile.eng = s.tile.eng ∧
        t.tile.ni = s.tile.ni ∧ t.tile.pl = s.tile.pl ∧ t.tile.ops = s.tile.ops ∧ s.tile.SamePad t.tile ∧ s.tile.SameRegs t.tile [] ∧
        t.tile.inb = { s.tile.inb with slots := without, chans := t.tile.inb.chans } ∧ AgesAfter s t x without ∧
        (let next := without.find? fun y => decide (y.chan = s.tile.ex.chan)
         t.tile.ex = { s.tile.ex with pc := s.tile.ex.pc + 4, branch := none, tvecFetch := false, curSlot := next.map Slot.slot } ∧
         s.tile.Awaiting t.tile 2 (.g d (if next.isSome then 1 else 0)) none)) ∧
    (s.tile.canIssue { regs := [.g d] } → s.tile.current = none → ∃ t, exec (.inskip d) s = .next t ∧ Frame s t [] 1 ∧
      s.tile.Awaiting t.tile 2 (.g d 0) none)

/-- R208, R386, with log 82 for the address of a slot: INRD reads the metadata of a slot, or of the current message with CUR, into class LD,
zero where there is no message; where the metadata is uncorrectable, ECC follows; a CUR with a slot field traps ILLEGAL. -/
def MetadataRead : Prop :=
  ∀ (s : State) (d a : GReg) (cur : Bool),
    let x := if cur then s.tile.current else s.tile.inb.slots.find? fun y => decide (y.slot.val = (s.tile.g a).toNat % 256)
    let k := if cur then (s.tile.current.map fun y => y.slot.val) else some ((s.tile.g a).toNat % 256)
    let code (y : Slot) : Nat := match y.kind with | .send => 0 | .sendv => 1 | .call => 2 | .host => 3
    let word : Nat := match x with
      | none => 0
      | some y => 2 ^ 63 + code y * 2 ^ 61 + (if y.rfs then 2 ^ 60 else 0) + y.seqno.toNat * 2 ^ 32 + y.chan.val * 2 ^ 24 + y.src.toNat
    let bad : Prop := ∃ j, k = some j ∧ s.tile.inb.bad.contains (2048 + j) = true
    s.tile.canIssue { regs := [.g d, .g a], reads := [.g a], cls := some .ld } →
    (cur = true → a = 0) →
      ∃ t op, exec (.inrd d a cur) s = .next t ∧ s.tile.SamePad t.tile ∧ s.tile.SameRegs t.tile [] ∧ s.tile.NextPc t.tile 1 ∧
        t.tile.iss.writes = s.tile.iss.writes ∧ t.tile.inb = s.tile.inb ∧ t.mem = s.mem ∧
        t.tile.ops = { s.tile.ops with stamp := s.tile.ops.stamp + 1, loads := s.tile.ops.loads ++ [op] } ∧
        op.kind = .timed (s.tile.iss.cycle + 3) false ∧ op.regs = [.g d] ∧
        (∃ e, op.elems = [e] ∧ e.reg = .g d ∧ e.val = some (BitVec.ofNat 64 word)) ∧
        (¬bad → op.ecc = none ∧ SameModule s t ∧ s.tile.SameUnits t.tile) ∧
        (∀ j, k = some j → s.tile.inb.bad.contains (2048 + j) = true →
          op.ecc = some (0, BitVec.ofNat 64 (2 ^ 60 + 0x08000000 + 64 * j), none))

/-- R208: INRD with CUR and a register of a slot traps ILLEGAL. -/
def MetadataTrap : Prop :=
  ∀ (s : State) (d a : GReg), s.tile.ex.cw = none → s.tile.canIssue { regs := [.g d, .g a], reads := [.g a], cls := some .ld } → a ≠ 0 →
    TrapsWith s (.inrd d a true) 0 0x01 (instrWord (.inrd d a true))

/-- R203 to R209, R264, with log 82: the handler table, the end of an activation, and the metadata of a message. -/
def Obligations.Handlers : Prop := TableChanges ∧ ActivationEnds ∧ MetadataRead ∧ MetadataTrap

/-! ## Counters, atomics, reductions -/

/-- An instruction that enters one operation of class MS and sends its request; c counts its handles. -/
def EntersMs (s t : State) (k : MsKind) (rel : Bool) (hs : BitVec 8) : Prop :=
  Enters s t ∧ t.tile.eng = s.tile.eng ∧ t.tile.ops = { s.tile.ops with
    stamp := s.tile.ops.stamp + 1
    ms := s.tile.ops.ms ++ [{ stamp := s.tile.ops.stamp, kind := k, rel := rel, hs := hs, done := false }]
    epoch := t.tile.ops.epoch, redSeq := t.tile.ops.redSeq, kept := t.tile.ops.kept }

/-- R361, R268: at a CWAIT of the barrier that its shedding gang waits for, as it arrives or while it holds, a tile begins the gang's stop
and stops before the instruction, whatever deny bit its counter's home has. -/
def BarrierStops : Prop :=
  ∀ (s : State) (a b : GReg) (sc : Scope) (acq nopend : Bool) (texp : Fin 32) (g : Gang),
    let id : W32 := BitVec.ofNat 32 (s.tile.g a).toNat
    let arrives : Prop := s.tile.ex.cw = none ∧ g.barrier = id ∧ s.tile.canIssue { regs := [.g a, .g b], reads := [.g a, .g b] }
    let holds : Prop := ∃ c, s.tile.ex.cw = some c ∧ c.ctr = g.barrier
    s.gang s.tile.id.part s.tile.id.gid = some g → g.shedWait = true → g.barrier ≠ 0 → s.tile.pl.stopped = false → arrives ∨ holds →
      ∃ t h, exec (.cwait a b sc acq nopend texp) s = .next t ∧ t.gang s.tile.id.part s.tile.id.gid = some h ∧ h.byShed = true ∧
        h.shedWait = false ∧ t.tile.pl.stopped = true ∧ t.tile.ex.cw = none ∧ t.tile.ex.pc = s.tile.ex.pc ∧ s.tile.SameRegs t.tile []

/-- R210 to R217: CADD, CEXP and CSET enter class MS with their counter and operand, CRD enters class LD; CWAIT, where no shedding gang waits
for its barrier, holds the tile at its instruction, and lets it go on once its release has been acquired. -/
def CounterInstructions : Prop :=
  ∀ (s : State) (d a b : GReg) (sc : Scope) (rel acq nopend pend : Bool) (texp : Fin 32),
    let id : W32 := BitVec.ofNat 32 (s.tile.g a).toNat
    let x := s.tile.g b
    let two : List RegName := [.g a, .g b]
    (s.tile.canIssue { regs := two, reads := two, cls := some .ms } → id ≠ 0 → CtrFree s id →
      (∃ t, exec (.cadd a b sc rel) s = .next t ∧ EntersMs s t (.cadd id x) rel 0 ∧ t.tile.ops.epoch = s.tile.ops.epoch ∧
        t.tile.ops.redSeq = s.tile.ops.redSeq) ∧
      (∃ t, exec (.cexp a b) s = .next t ∧ EntersMs s t (.cexp id (BitVec.ofNat 32 x.toNat)) false 0 ∧
        t.tile.ops.epoch = s.tile.ops.epoch ∧ t.tile.ops.redSeq = s.tile.ops.redSeq) ∧
      ∃ t, exec (.cset a b) s = .next t ∧ EntersMs s t (.cset id x) false 0 ∧ t.tile.ops.epoch = s.tile.ops.epoch ∧
        t.tile.ops.redSeq = s.tile.ops.redSeq) ∧
    (s.tile.canIssue { regs := [.g d, .g a], reads := [.g a], cls := some .ld } → id ≠ 0 →
      ∃ t op, exec (.crd d a pend) s = .next t ∧ Enters s t ∧ t.tile.eng = s.tile.eng ∧
        t.tile.ops = { s.tile.ops with stamp := s.tile.ops.stamp + 1, loads := s.tile.ops.loads ++ [op], kept := t.tile.ops.kept } ∧
        op.kind = .crd id pend ∧
        op.regs = [.g d] ∧ op.ecc = none ∧ ∃ e, op.elems = [e] ∧ e.reg = .g d ∧ e.val = none) ∧
    (s.tile.canIssue { regs := two, reads := two } → s.tile.ex.cw = none → id ≠ 0 →
      s.tile.denied 1 ((s.part s.tile.id.part).ctrHome id) = false → s.atShedBarrier id = false →
      ∃ t c, exec (.cwait a b sc acq nopend texp) s = .next t ∧ SameButFlits s t ∧ t.tile.id = s.tile.id ∧ t.tile.gang = s.tile.gang ∧
        t.tile.inb = s.tile.inb ∧ t.tile.eng = s.tile.eng ∧ t.tile.ni = s.tile.ni ∧ t.tile.regs = s.tile.regs ∧ t.tile.pad = s.tile.pad ∧
        t.tile.ops = { s.tile.ops with stamp := s.tile.ops.stamp + 1, kept := t.tile.ops.kept } ∧ s.tile.Keeps t.tile ∧
        t.tile.ex = { s.tile.ex with cw := some c, withdrawn := none } ∧
        t.tile.iss = { s.tile.iss with stall := some 14 } ∧ t.tile.pl = { s.tile.pl with idleSince := s.fab.time } ∧
        c.ctr = id ∧ c.thr = x ∧ c.nopend = nopend ∧ c.released = false ∧ c.acquired = none ∧
        c.deadline = if texp = 0 then none else some (s.tileTime + 2 ^ texp.val)) ∧
    (∀ c l, s.tile.ex.cw = some c → s.atShedBarrier c.ctr = false →
      (c.acquired = none → exec (.cwait a b sc acq nopend texp) s = .next (s.stall 14)) ∧
      (c.acquired = some l → ((acq && decide (sc = .host) && s.hostPending l) = true →
          exec (.cwait a b sc acq nopend texp) s = .next (s.stall 14)) ∧
        ((acq && decide (sc = .host) && s.hostPending l) = false →
          ∃ t, exec (.cwait a b sc acq nopend texp) s = .next t ∧ SameModule s t ∧ s.tile.SameUnits t.tile ∧ t.tile.ops = s.tile.ops ∧
            s.tile.SamePad t.tile ∧ s.tile.SameRegs t.tile [] ∧ t.tile.iss.writes = s.tile.iss.writes ∧
            t.tile.ex = { s.tile.ex with pc := s.tile.ex.pc + 4, branch := none, tvecFetch := false, cw := none })))

/-- R210 to R217, R268, R361: the counter instructions at issue, CWAIT as it holds and goes on, and the stop of a shedding gang at its
barrier. -/
def Obligations.Counters : Prop := CounterInstructions ∧ BarrierStops

/-- What R219 and R220 ask of an atomic or a reduction: an aligned address in a REDUCE page, and no deny bit of its home. -/
def LineReaches (s : State) (k : AccessKind) (va n : Nat) (e : TlbEntry) : Prop :=
  let home := (s.part s.tile.id.part).lineHome (e.pa + (va - e.va))
  va % n = 0 ∧ Reaches s k va n e ∧ s.tile.denied 2 home = false ∧ (k = .red → s.tile.gang.det = true → s.tile.denied 3 home = false)

/-- R219 to R221: an atomic enters class LD with its operands; its register will receive the old value, sign-extended, or
zero-extended with NAT. No byte of memory changes at issue. -/
def AtomicsEnter : Prop :=
  ∀ (s : State) (a b c : GReg) (dw nat : Bool) (e : TlbEntry),
    let va := (s.tile.g a).toNat
    let n := if dw then 8 else 4
    let hs := s.tile.handlesOf [(va, n)]
    let pa := e.pa + (va - e.va)
    LineReaches s .atomic va n e →
    let enters (i : Instr) (k : LoadKind) : Prop :=
      ∃ t, exec i s = .next t ∧ Enters s t ∧ t.tile.eng = s.tile.eng ∧ t.tile.ops = { s.tile.ops with
        kept := t.tile.ops.kept
        stamp := s.tile.ops.stamp + 1
        loads := s.tile.ops.loads ++
          [{ stamp := s.tile.ops.stamp, kind := k
             elems := [{ reg := .g b, lane := 0, va := va, pa := pa, bytes := n, val := none }]
             regs := [.g b], hs := hs, issued := s.tile.iss.cycle, aclass := 6, ecc := none }] }
    let ext (nat : Bool) : LoadExt := if nat then .zero else .signed
    (s.tile.canIssue { regs := [.g a, .g b], reads := [.g a, .g b], cls := some .ld, hs := hs } →
      enters (.axchg a b dw) (.atomic .axchg (s.tile.g b) 0 false .signed) ∧
      enters (.aadd a b dw) (.atomic .aadd (s.tile.g b) 0 false .signed) ∧
      enters (.amin a b dw nat) (.atomic .amin (s.tile.g b) 0 nat (ext nat)) ∧
      enters (.amax a b dw nat) (.atomic .amax (s.tile.g b) 0 nat (ext nat))) ∧
    (s.tile.canIssue { regs := [.g a, .g b, .g c], reads := [.g a, .g b, .g c], cls := some .ld, hs := hs } →
      enters (.acas a b c dw) (.atomic .acas (s.tile.g b) (s.tile.g c) false .signed))

/-- R134, R221, R223: the new value that an atomic or a reduction gives to n bytes. -/
def AtomicResults : Prop :=
  ∀ (dw nat : Bool) (old x y : Nat),
    let n := if dw then 8 else 4
    let num (sgn : Bool) (z : Nat) : Int := if sgn && decide (z ≥ 2 ^ (8 * n - 1)) then (z : Int) - 2 ^ (8 * n) else z
    let ty (sgn : Bool) : RedTy := if dw then (if sgn then .s64 else .n64) else if sgn then .s32 else .n32
    atomicNew .axchg nat n old x y = x ∧ atomicNew .acas nat n old x y = (if old = x then y else old) ∧
    atomicNew .aadd nat n old x y = (old + x) % 2 ^ (8 * n) ∧
    num (!nat) (atomicNew .amin nat n old x y) = min (num (!nat) old) (num (!nat) x) ∧
    num (!nat) (atomicNew .amax nat n old x y) = max (num (!nat) old) (num (!nat) x) ∧
    reduceNew .radd (ty nat) old x = (old + x) % 2 ^ (8 * n) ∧
    num nat (reduceNew .rmin (ty nat) old x) = min (num nat old) (num nat x) ∧
    num nat (reduceNew .rmax (ty nat) old x) = max (num nat old) (num nat x) ∧
    reduceNew .radd .f32 old x = (fp32.add .rne (fp32.decode old) (fp32.decode x)).bits ∧
    (old < 2 ^ 32 → x < 2 ^ 32 →
      let nan (z : Nat) : Prop := z / 2 ^ 23 % 256 = 255 ∧ z % 2 ^ 23 ≠ 0
      let key (z : Nat) : Int := if 2 ^ 31 ≤ z then 2 ^ 31 - 1 - (z : Int) else z
      (nan old ∨ nan x → reduceNew .rmin .f32 old x = 0x7FC00000 ∧ reduceNew .rmax .f32 old x = 0x7FC00000) ∧
      (¬nan old → ¬nan x → reduceNew .rmin .f32 old x = (if key old ≤ key x then old else x) ∧
        reduceNew .rmax .f32 old x = if key x ≤ key old then old else x))

/-- R134, R220, R221, R223: atomics enter class LD; what an atomic or a reduction gives. -/
def Obligations.Atomics : Prop := AtomicsEnter ∧ AtomicResults

/-- R223 to R226: RADD, RMIN and RMAX enter class MS with their address, operand, epoch and issue sequence, which advances; RSEAL enters
class MS with its epoch, and begins the next one. -/
def Obligations.ReductionsEnter : Prop :=
  ∀ (s : State) (a b : GReg) (ty : RedTy) (e : TlbEntry),
    let va := (s.tile.g a).toNat
    let n := match ty with | .f32 | .s32 | .n32 => 4 | .s64 | .n64 => 8
    let hs := s.tile.handlesOf [(va, n)]
    let two : List RegName := [.g a, .g b]
    let id : W32 := BitVec.ofNat 32 (s.tile.g a).toNat
    let p := (s.tile.g b).toNat % 2 ^ 32
    (LineReaches s .red va n e → s.tile.canIssue { regs := two, reads := two, cls := some .ms, hs := hs } →
      ∀ i op, (i = .radd a b ty ∧ op = .radd) ∨ (i = .rmin a b ty ∧ op = .rmin) ∨ (i = .rmax a b ty ∧ op = .rmax) →
        ∃ t, exec i s = .next t ∧ t.tile.ops.epoch = s.tile.ops.epoch ∧ t.tile.ops.redSeq = s.tile.ops.redSeq + 1 ∧
          EntersMs s t (.red op ty va (e.pa + (va - e.va)) (s.tile.g b) s.tile.ex.prv s.tile.ops.epoch s.tile.ops.redSeq) false hs) ∧
    (s.tile.canIssue { regs := two, reads := two, cls := some .ms } → id ≠ 0 → p ≠ 0 → CtrFree s id →
      ∃ t, exec (.rseal a b) s = .next t ∧ EntersMs s t (.seal id p s.tile.ops.epoch) false 0 ∧
        t.tile.ops.epoch = s.tile.ops.epoch + 1 ∧ t.tile.ops.redSeq = s.tile.ops.redSeq)

/-! ## Traps of what reaches beyond the tile -/

/-- A form is denied issue (R219): THROTTLE for a table and a counter, 0 for a line; the throttle event counter of the partition gains 1, or
its SAT is set, and global memory is as before. -/
def Throttles (s : State) (i : Instr) (aclass table ctr : Nat) : Prop :=
  let p := s.tile.id.part
  ∃ t, exec i s = .next t ∧
    s.tile.Traps t.tile 0x0A (BitVec.ofNat 64 (table * 2 ^ 32 + ctr)) s.tile.ex.pc
      (BitVec.ofNat 64 (s.tile.ni.step.val * 2 ^ 14 + aclass * 2 ^ 8)) s.tile.iss.cycle ∧
    (t.part p).throttle.toNat = min ((s.part p).throttle.toNat + 1) (2 ^ 64 - 1) ∧ t.mem = s.mem

/-- The first condition that a global access of n bytes meets (R37, R109, R110, R155, R220), of those that set TVAL to its address; no mode
change of the bytes is pending. That no leaf maps an address, the walk of R340 has said. -/
def GlobalTrap (s : State) (k : AccessKind) (va n cause : Nat) : Prop :=
  let t := s.tile
  (va % n ≠ 0 ∧ cause = 0x04) ∨ (va % n = 0 ∧ 2 ^ 56 ≤ va ∧ cause = 0x06) ∨
  (va % n = 0 ∧ va < 2 ^ 56 ∧ s.modePending t.gang.asid va n = false ∧
    ((t.held va = none ∧ va ∈ t.ni.noLeaf ∧ s.walk t.gang.asid va = none ∧ cause = 0x06) ∨
     ∃ e, t.held va = some e ∧
      ((permits e.perms t.ex.prv k = false ∧ cause = 0x07) ∨
       (permits e.perms t.ex.prv k = true ∧ admits (t.modeFor e va).1 ((t.modeFor e va).2 == t.id.vt) k = false ∧ cause = 0x08))))

/-- No deny bit of the home of a line is set that the access checks (R219). -/
def LineFree (s : State) (k : AccessKind) (va : Nat) : Prop :=
  ∀ pa, s.linePa va = some pa → let home := (s.part s.tile.id.part).lineHome pa
    s.tile.denied 2 home = false ∧ (k = .red → s.tile.gang.det = true → s.tile.denied 3 home = false)

/-- R37, R109, R110, R155, R159: GLD, GLDN and GST trap with the first condition that they meet; VGLD and VGST with that of the lowest
enabled lane that meets one, and with its lane. -/
def GlobalTraps : Prop :=
  ∀ (s : State) (d a : GReg) (v : VReg) (z : Fin 8) (off : BitVec 13) (k : MReg) (ty : ElemTy) (i : Fin 16) (cause : Nat),
    s.tile.ex.cw = none →
    let ea : Word := s.tile.g a + BitVec.ofInt 64 (off.toInt * 2 ^ z.val)
    let hs := s.tile.handlesOf [(ea.toNat, 2 ^ z.val)]
    let sz := elemSize ty
    let at_ (j : Fin 16) : Word := s.tile.g a + BitVec.ofNat 64 (j.val * sz)
    let first (kind : AccessKind) : Prop := LaneOn s.tile k i ∧ GlobalTrap s kind (at_ i).toNat sz cause ∧
      ∀ j, j < i → LaneOn s.tile k j → (at_ j).toNat % sz = 0 ∧ ∃ e, Reaches s kind (at_ j).toNat sz e
    let traps (x : Instr) (aclass : Nat) : Prop := ∃ t, exec x s = .next t ∧ TrapTaken s t cause (at_ i) s.tile.ex.pc
      (BitVec.ofNat 64 (s.tile.ni.step.val * 2 ^ 14 + aclass * 2 ^ 8 + 128 + i.val)) s.tile.iss.cycle
    let free (n : Need) : Prop := ∀ hs : BitVec 8,
      (∀ j : Fin 8, hs.getLsbD j.val = true ↔ ∃ i, LaneOn s.tile k i ∧ (s.tile.regs.h.get j).overlaps (at_ i).toNat sz = true) →
      s.tile.canIssue { n with hs := hs }
    (z.val ≤ 3 → s.tile.canIssue { regs := [.g d, .g a], reads := [.g a], cls := some .ld, hs := hs } →
      GlobalTrap s .load ea.toNat (2 ^ z.val) cause → TrapsWith s (.gld d a z off) 4 cause ea ∧ TrapsWith s (.gldn d a z off) 4 cause ea) ∧
    (z.val ≤ 3 → s.tile.canIssue { regs := [.g d, .g a], reads := [.g d, .g a], cls := some .st, hs := hs } →
      GlobalTrap s .store ea.toNat (2 ^ z.val) cause → TrapsWith s (.gst d a z off) 5 cause ea) ∧
    (free { regs := [.v v, .m k, .g a], reads := [.m k, .g a], cls := some .ld } → first .load → traps (.vgld v a k ty) 4) ∧
    (free { regs := [.v v, .m k, .g a], reads := [.v v, .m k, .g a], cls := some .st } → first .store → traps (.vgst v a k ty) 5)

/-- R197, R210, R219, R220, R226: atomics and reductions trap THROTTLE for a deny bit of their line's home, the line of a held translation
(log 23 where none is held), and then as R109 says; RSEAL traps as the counter instructions do. -/
def LineTraps : Prop :=
  ∀ (s : State) (a b c : GReg) (dw nat : Bool) (ty : RedTy) (cause : Nat) (e : TlbEntry), s.tile.ex.cw = none →
    let x := s.tile.g a
    let home := (s.part s.tile.id.part).lineHome (e.pa + (x.toNat - e.va))
    let n := if dw then 8 else 4
    let m := match ty with | .f32 | .s32 | .n32 => 4 | .s64 | .n64 => 8
    let two : List RegName := [.g a, .g b]
    let line (k : AccessKind) (i : Instr) (aclass n : Nat) : Prop :=
      (s.tile.held x.toNat = some e → s.tile.denied 2 home = true → Throttles s i aclass 2 0) ∧
      (LineFree s k x.toNat → GlobalTrap s k x.toNat n cause → TrapsWith s i aclass cause x)
    (∀ i, i = .axchg a b dw ∨ i = .aadd a b dw ∨ i = .amin a b dw nat ∨ i = .amax a b dw nat →
      s.tile.canIssue { regs := two, reads := two, cls := some .ld, hs := s.tile.handlesOf [(x.toNat, n)] } → line .atomic i 6 n) ∧
    (s.tile.canIssue { regs := [.g a, .g b, .g c], reads := [.g a, .g b, .g c], cls := some .ld, hs := s.tile.handlesOf [(x.toNat, n)] } →
      line .atomic (.acas a b c dw) 6 n) ∧
    (∀ i, i = .radd a b ty ∨ i = .rmin a b ty ∨ i = .rmax a b ty →
      s.tile.canIssue { regs := two, reads := two, cls := some .ms, hs := s.tile.handlesOf [(x.toNat, m)] } → line .red i 7 m ∧
      (s.tile.held x.toNat = some e → s.tile.denied 2 home = false → s.tile.gang.det = true → s.tile.denied 3 home = true →
        Throttles s i 7 3 0))

/-- R197, R210, R216, R219, R226: the counter instructions trap ILLEGAL for counter 0, THROTTLE for a deny bit of the counter's home, and
PERM for a system counter; CRD and CWAIT may name one. -/
def CounterTraps : Prop :=
  ∀ (s : State) (d a b : GReg) (sc : Scope) (rel acq nopend pend : Bool) (texp : Fin 32), s.tile.ex.cw = none →
    let id := (s.tile.g a).toNat % 2 ^ 32
    let home := (s.part s.tile.id.part).ctrHome (BitVec.ofNat 32 id)
    let p := (s.tile.g b).toNat % 2 ^ 32
    let two : List RegName := [.g a, .g b]
    let free (cls : Option OpClass) : Prop := s.tile.canIssue { regs := two, reads := two, cls := cls }
    (free (some .ms) → ∀ i, i = .cadd a b sc rel ∨ i = .cexp a b ∨ i = .cset a b ∨ i = .rseal a b →
      (id = 0 ∨ (i = .rseal a b ∧ p = 0) → TrapsWith s i 0 0x01 (instrWord i)) ∧
      (id ≠ 0 → (i = .rseal a b → p ≠ 0) →
        (s.tile.denied 0 home = true → Throttles s i 10 0 id) ∧
        (s.tile.denied 0 home = false → 0xFFFFF000 ≤ id → TrapsWith s i 10 0x07 (BitVec.ofNat 64 id)))) ∧
    (s.tile.canIssue { regs := [.g d, .g a], reads := [.g a], cls := some .ld } → id = 0 →
      TrapsWith s (.crd d a pend) 0 0x01 (instrWord (.crd d a pend))) ∧
    (free none → let i := Instr.cwait a b sc acq nopend texp
      (id = 0 → TrapsWith s i 0 0x01 (instrWord i)) ∧ (id ≠ 0 → s.tile.denied 1 home = true → s.atShedBarrier (BitVec.ofNat 32 id) = false → Throttles s i 10 1 id))

/-- No translation is at hand for an address because no leaf maps it, as the walk of R340 has said. -/
def Unmapped (s : State) (x : Nat) : Prop := 2 ^ 56 ≤ x ∨ (x ∈ s.tile.ni.noLeaf ∧ s.walk s.tile.gang.asid x = none)

/-- The first condition that the range of a copy meets (R187, R210), for the counters that it names: XLATE at the lowest address that no leaf
maps, PERM of a system counter, then PERM and MMODEL, each at its lowest address. -/
def RangeTrap (s : State) (k : AccessKind) (ids : List W32) (va n cause : Nat) (tval : Nat) : Prop :=
  let t := s.tile
  let open_ (e : TlbEntry) : Bool := admits (t.modeFor e (e.lowest va)).1 ((t.modeFor e (e.lowest va)).2 == t.id.vt) k
  (n ≠ 0 → s.modePending t.gang.asid va n = false) ∧ ∃ l gap, t.handPages va n = (l, gap) ∧
    ((∃ x, gap = some x ∧ Unmapped s x ∧ cause = 0x06 ∧ tval = x) ∨
     (gap = none ∧ ∃ id, ids.find? (fun i => decide (0xFFFFF000 ≤ i.toNat)) = some id ∧ cause = 0x07 ∧ tval = id.toNat) ∨
     (gap = none ∧ (∀ i ∈ ids, i.toNat < 0xFFFFF000) ∧ ∃ l1 e l2, l = l1 ++ e :: l2 ∧ tval = e.lowest va ∧
      (((∀ q ∈ l1, permits q.perms t.ex.prv k = true) ∧ permits e.perms t.ex.prv k = false ∧ cause = 0x07) ∨
       ((∀ q ∈ l, permits q.perms t.ex.prv k = true) ∧ (∀ q ∈ l1, open_ q = true) ∧ open_ e = false ∧ cause = 0x08))))

/-- No deny bit of table 0 is set at the home of a counter, or there is none (R219). -/
def CtrUndenied (s : State) (id : W32) : Prop := id = 0 ∨ s.tile.denied 0 ((s.part s.tile.id.part).ctrHome id) = false

/-- R166, R187, R189 to R193, R210, R219: CPIN, CPOUT, CPDEAL and CPT trap THROTTLE for the first of their counters whose home denies it, as
their range says, XLATE for a recipient outside the grid, SHINGLE for an undefined shingle, and ILLEGAL for a pattern that is not there. -/
def CopyTraps : Prop :=
  ∀ (s : State) (a b : GReg) (sc : Scope) (acq rel xp : Bool) (cause tval : Nat), s.tile.ex.cw = none →
    let w := (s.tile.g a).toNat
    let y := (s.tile.g b).toNat
    let va := w % 2 ^ 56
    let n : Fin 64 := Fin.ofNat 64 (w / 2 ^ 56)
    let id : W32 := BitVec.ofNat 32 y
    let id2 : W32 := BitVec.ofNat 32 (y / 2 ^ 32)
    let denied (c : W32) : Prop := ¬CtrUndenied s c
    let free (va len : Nat) : Prop := s.tile.canIssue
      { regs := [.g a, .g b], reads := [.g a, .g b], cls := some .cp, hs := s.tile.handlesOf [(va, len)] }
    let deal := Instr.cpdeal a b sc acq xp
    let undefined (k : Fin 64) : Word := BitVec.ofNat 64 (1024 + k.val)
    let size : Nat := (s.tile.sh n).elim 0 fun x => x.len * 64
    let inLen := if y / 2 ^ 32 % 2 ^ 20 ≠ 0 then y / 2 ^ 32 % 2 ^ 20 else size
    let outLen : Nat := (s.tile.sh n).elim 0 Shingle.wmark
    (free va inLen → let i := Instr.cpin a b sc acq xp
      (denied id → Throttles s i 8 0 id.toNat) ∧
      (CtrUndenied s id → RangeTrap s .copyIn [id] va inLen cause tval → TrapsWith s i 8 cause (BitVec.ofNat 64 tval)) ∧
      (CtrFree s id → (∃ l, RangeReaches s .copyIn va inLen l) → s.tile.sh n = none → TrapsWith s i 8 0x09 (undefined n))) ∧
    (free va outLen → let i := Instr.cpout a b sc rel
      (denied id → Throttles s i 8 0 id.toNat) ∧ (CtrUndenied s id → denied id2 → Throttles s i 8 0 id2.toNat) ∧
      (CtrUndenied s id → CtrUndenied s id2 → RangeTrap s .copyOut [id, id2] va outLen cause tval →
        TrapsWith s i 8 cause (BitVec.ofNat 64 tval)) ∧
      (CtrFree s id → CtrFree s id2 → (∃ l, RangeReaches s .copyOut va outLen l) → s.tile.sh n = none →
        TrapsWith s i 8 0x09 (undefined n))) ∧
    ((s.tile.gang.prog.deals[y / 2 ^ 32 % 2 ^ 8]? = none → s.tile.canIssue { regs := [.g a, .g b], reads := [.g a, .g b] } →
        TrapsWith s deal 0 0x01 (instrWord deal)) ∧
      (∀ dl, s.tile.gang.prog.deals[y / 2 ^ 32 % 2 ^ 8]? = some dl → y / 2 ^ 40 ≠ 0 → free va (y / 2 ^ 40) →
        (denied id → Throttles s deal 8 0 id.toNat) ∧
        (CtrUndenied s id → RangeTrap s .copyIn [id] va (y / 2 ^ 40) cause tval → TrapsWith s deal 8 cause (BitVec.ofNat 64 tval)))) ∧
    (s.tile.canIssue { regs := [.g a, .g b], reads := [.g a, .g b], cls := some .cp } → let i := Instr.cpt a b xp
      let src : Fin 64 := Fin.ofNat 64 (w / 2 ^ 32)
      let inside : Prop := inGrid s.tile.gang.rows s.tile.gang.cols (w % 2 ^ 24) = true
      (denied id → Throttles s i 8 0 id.toNat) ∧
      (CtrUndenied s id → ¬inside → TrapsWith s i 8 0x06 (s.tile.g a)) ∧
      (CtrUndenied s id → inside → 0xFFFFF000 ≤ id.toNat → TrapsWith s i 8 0x07 (BitVec.ofNat 64 id.toNat)) ∧
      (CtrFree s id → inside → s.tile.sh src = none → TrapsWith s i 8 0x09 (undefined src)))

/-- R199, R201: SEND traps MISALIGN or XLATE for its payload's address; SEND, SENDV and CALLAT trap XLATE for a destination outside the grid,
and CALLAT ILLEGAL for arguments past the last register. -/
def MessageTraps : Prop :=
  ∀ (s : State) (a b : GReg) (v : VReg) (sc : Scope) (rel : Bool), s.tile.ex.cw = none →
    let ea := s.tile.g b
    let outside : Prop := inGrid s.tile.gang.rows s.tile.gang.cols ((s.tile.g a).toNat % 2 ^ 24) = false
    let args : List RegName := [.g a, .g b, .g (b + 1), .g (b + 2), .g (b + 3)]
    (s.tile.canIssue { regs := [.g a, .g b], reads := [.g a, .g b], cls := some .ms } →
      (ea.toNat % 64 ≠ 0 → TrapsWith s (.send a b sc rel) 10 0x04 ea) ∧
      (ea.toNat % 64 = 0 → windowOf ea.toNat = none → TrapsWith s (.send a b sc rel) 10 0x06 ea) ∧
      (ea.toNat % 64 = 0 → windowOf ea.toNat ≠ none → outside → TrapsWith s (.send a b sc rel) 10 0x06 (s.tile.g a))) ∧
    (s.tile.canIssue { regs := [.g a, .v v], reads := [.g a, .v v], cls := some .ms } → outside →
      TrapsWith s (.sendv a v sc rel) 10 0x06 (s.tile.g a)) ∧
    (s.tile.canIssue { regs := args, reads := args, cls := some .ms } →
      (28 < b.val → TrapsWith s (.callat a b sc rel) 0 0x01 (instrWord (.callat a b sc rel))) ∧
      (b.val ≤ 28 → outside → TrapsWith s (.callat a b sc rel) 10 0x06 (s.tile.g a)))

/-- R210, R219, R229: HANDOVER, with no mode change of its range pending, traps THROTTLE, and then on the first row of R229's table that
holds, the PERM of a system counter ahead of that of a page (R210). -/
def HandoverTraps : Prop :=
  ∀ (s : State) (h : HReg) (a b : GReg) (read : Bool) (l : List TlbEntry) (gap : Option Nat), s.tile.ex.cw = none →
    let t := s.tile
    let r := t.regs.h.get h
    let base := r.base.toNat
    let len := min (base + r.len.toNat) (2 ^ 56) - base
    let id : W32 := BitVec.ofNat 32 (t.g b).toNat
    let i := Instr.handover h a b read
    let traps (cause : Nat) (tval : Word) : Prop := TrapsWith s i 10 cause tval
    let inside : Prop := read = true ∨ inGrid t.gang.rows t.gang.cols ((t.g a).toNat % 2 ^ 24) = true
    let whole (e : TlbEntry) : Prop := base ≤ e.va ∧ e.va + e.size ≤ base + len
    let writes (e : TlbEntry) : Prop := permits e.perms t.ex.prv .handover = true
    s.tile.canIssue { regs := [.g a, .g b], reads := [.g a, .g b], cls := some .ms, hs := t.handlesOf [(base, r.len.toNat)] } →
    (len ≠ 0 → s.modePending t.gang.asid base len = false) → t.handPages base len = (l, gap) →
    (¬CtrUndenied s id → Throttles s i 10 0 id.toNat) ∧
    (CtrUndenied s id →
      (base % 65536 ≠ 0 ∨ r.len.toNat % 65536 ≠ 0 → traps 0x04 (BitVec.ofNat 64 base)) ∧
      (base % 65536 = 0 → r.len.toNat % 65536 = 0 →
        (∀ x, gap = some x → Unmapped s x → traps 0x06 (BitVec.ofNat 64 x)) ∧
        (gap = none → ¬inside → traps 0x06 (t.g a)) ∧
        (gap = none → inside →
          (0xFFFFF000 ≤ id.toNat → traps 0x07 (BitVec.ofNat 64 id.toNat)) ∧
          (id.toNat < 0xFFFFF000 → ∀ l1 e l2, l = l1 ++ e :: l2 →
            ((∀ q ∈ l1, whole q) → ¬whole e → traps 0x07 (BitVec.ofNat 64 e.va)) ∧
            ((∀ q ∈ l, whole q) → (∀ q ∈ l1, writes q) → ¬writes e → traps 0x07 (BitVec.ofNat 64 e.va)) ∧
            ((∀ q ∈ l, whole q) → (∀ q ∈ l, writes q) → (∀ q ∈ l1, t.modeFor q q.va = (0, t.id.vt)) →
              t.modeFor e e.va ≠ (0, t.id.vt) → traps 0x08 (BitVec.ofNat 64 e.va))))))

/-- R23, R28, R37, R105, R106, R109, R110, R155, R156, R158, R159, R166, R187, R189 to R193, R197, R199, R201, R210, R216, R219, R220, R226,
R229, with logs 23, 24, 70: the precise traps of accesses to local memory, and of those that reach beyond the tile: global accesses, atomics
and reductions, counters, copies, messages and HANDOVER. -/
def Obligations.MemoryTraps : Prop :=
  ScalarTraps ∧ LaneTraps ∧ GlobalTraps ∧ LineTraps ∧ CounterTraps ∧ CopyTraps ∧ MessageTraps ∧ HandoverTraps

/-! ## Ownership, fences, gang control -/

/-- R14, R229 to R233: HANDOVER of a range whose pages the tile owns enters class MS, the range cut at the end of the address space; HSET
sets a handle whose count is zero, and waits otherwise. -/
def Obligations.Ownership : Prop :=
  ∀ (s : State) (h : HReg) (a b : GReg) (read : Bool) (l : List TlbEntry),
    let r := s.tile.regs.h.get h
    let len := min (r.base.toNat + r.len.toNat) (2 ^ 56) - r.base.toNat
    let id : W32 := BitVec.ofNat 32 (s.tile.g b).toNat
    let owner := (s.tile.g a).toNat % 2 ^ 24
    let hs := s.tile.handlesOf [(r.base.toNat, r.len.toNat)]
    let two : List RegName := [.g a, .g b]
    (s.tile.canIssue { regs := two, reads := two, cls := some .ms, hs := hs } → CtrFree s id →
      r.base.toNat % 65536 = 0 → r.len.toNat % 65536 = 0 → (read = true ∨ inGrid s.tile.gang.rows s.tile.gang.cols owner = true) →
      s.tile.handPages r.base.toNat len = (l, none) → (len ≠ 0 → s.modePending s.tile.gang.asid r.base.toNat len = false) →
      (∀ e ∈ l, r.base.toNat ≤ e.va ∧ e.va + e.size ≤ r.base.toNat + len ∧ permits e.perms s.tile.ex.prv .handover = true ∧
        s.tile.modeFor e e.va = (0, s.tile.id.vt)) →
      ∃ t, exec (.handover h a b read) s = .next t ∧
        EntersMs s t (.handover h r.base.toNat len owner read id) false hs ∧ t.tile.ops.epoch = s.tile.ops.epoch ∧
        t.tile.ops.redSeq = s.tile.ops.redSeq) ∧
    (s.tile.canIssue { regs := two, reads := two } →
      (s.tile.hcount h.val ≠ 0 → exec (.hset h a b) s = .next (s.stall 22)) ∧
      (s.tile.hcount h.val = 0 → ∃ t, exec (.hset h a b) s = .next t ∧ SameModule s t ∧ s.tile.SameUnits t.tile ∧
        t.tile.ops = s.tile.ops ∧ s.tile.SamePad t.tile ∧ s.tile.SameG t.tile [] ∧ s.tile.SameV t.tile ∧ s.tile.SameM t.tile ∧
        s.tile.NextPc t.tile 1 ∧ t.tile.iss.writes = s.tile.iss.writes ∧
        t.tile.regs = { s.tile.regs with perf := t.tile.regs.perf, h := t.tile.regs.h } ∧
        ∀ j, t.tile.regs.h.get j = if j = h then ⟨s.tile.g a, s.tile.g b⟩ else s.tile.regs.h.get j))

/-- R234, R235, R292: a fence waits, with a release, until the counts of its handles are zero, FENCEA until every count is; an acquire
at HOST scope then waits for the host writes queued at its acquire point; role 0 and an empty handle set trap ILLEGAL. -/
def Obligations.Fences : Prop :=
  ∀ (s : State) (acq rel : Bool) (sc : Scope) (hs : BitVec 8),
    let step : Word := BitVec.ofNat 64 (s.tile.ni.step.val * 2 ^ 14)
    let clear : Prop := ∀ k : Fin 8, hs.getLsbD k.val = true → s.tile.hcount k.val = 0
    let zero : Prop := s.tile.ops.loads = [] ∧ s.tile.ops.stores = [] ∧ s.tile.ops.copies = [] ∧ s.tile.ops.mx = [] ∧ s.tile.ops.ms = []
    let host : Prop := acq = true ∧ sc = .host
    let waits := s.tile.ex.acqWait.getD (s.hostQueue s.tile.gang.asid)
    let passes (i : Instr) : Prop := ∃ t, exec i s = .next t ∧ SameModule s t ∧ s.tile.SameUnits t.tile ∧ t.tile.ops = s.tile.ops ∧
      s.tile.SamePad t.tile ∧ s.tile.SameRegs t.tile [] ∧ t.tile.iss.writes = s.tile.iss.writes ∧
      t.tile.ex = { s.tile.ex with
        pc := s.tile.ex.pc + 4, branch := none, tvecFetch := false, acqWait := if acq && decide (sc = .host) then none else s.tile.ex.acqWait }
    let awaits (i : Instr) : Prop :=
      exec i s = .next ((s.upd fun t => { t with ex := { t.ex with acqWait := some waits } }).stall 13)
    let illegal (i : Instr) : Prop :=
      ∃ t, exec i s = .next t ∧ TrapTaken s t 0x01 (instrWord i) s.tile.ex.pc step s.tile.iss.cycle
    (acq = true ∨ rel = true → hs ≠ 0 → (rel = true → clear) →
      (¬(host ∧ s.hostPending waits = true) → passes (.fence acq rel sc hs)) ∧
      (host → s.hostPending waits = true → awaits (.fence acq rel sc hs))) ∧
    (rel = true → hs ≠ 0 → ¬clear → exec (.fence acq rel sc hs) s = .next (s.stall 13)) ∧
    (acq = true ∨ rel = true → zero →
      (¬(host ∧ s.hostPending waits = true) → passes (.fencea acq rel sc)) ∧
      (host → s.hostPending waits = true → awaits (.fencea acq rel sc))) ∧
    (acq = true ∨ rel = true → ¬zero → exec (.fencea acq rel sc) s = .next (s.stall 13)) ∧
    (s.tile.ex.cw = none → (acq = false → rel = false → illegal (.fence acq rel sc hs) ∧ illegal (.fencea acq rel sc)) ∧
      (hs = 0 → illegal (.fence acq rel sc hs)))

/-- Every table of every engine has room for one more entry of a partition within its quota (R346), so that none goes to the overflow
allocation. -/
def Roomy (s : State) (part : Nat) : Prop :=
  ∀ table engine, s.tableUse part table engine < (s.part part).gov.quota.get (Fin.ofNat 4 table)

/-- Every table of every engine has room for n more entries of a partition within its quota (R346). -/
def RoomFor (s : State) (part n : Nat) : Prop :=
  ∀ table engine, s.tableUse part table engine + n ≤ (s.part part).gov.quota.get (Fin.ofNat 4 table)

/-- R236, R334, R335, R347, with logs 58, 76: at S, GSTOP of a running gang records the stop of the gang and its counter, and of a gang that
something stops already its counter; GRESUME of a gang that is able to run, or that nothing but firmware or repair stops, signals its
counter at once, and of any other hands it to firmware; a name that no live gang has only signals the counter. A counter that the signal
creates needs room (R346): where the tables have it, the signal adds 1 to the counter and does nothing else. -/
def Obligations.GangControl : Prop :=
  ∀ (s : State) (a b : GReg) (g : Gang),
    let gid := (s.tile.g a).toNat % 2 ^ 16
    let id : W32 := BitVec.ofNat 32 (s.tile.g b).toNat
    let part := s.tile.id.part
    let asid := s.tile.gang.asid
    let signal : GangSignal := ⟨asid, id, s.tile.id.gid⟩
    let signals (i : Instr) : Prop := ∃ u, exec i s = .next (State.gangSignal part u signal) ∧ Frame s u [] 1 ∧
      u.tile.iss.writes = s.tile.iss.writes ∧ (Roomy s part → s.sync.bad.contains (ctrKey asid id) = false →
        State.gangSignal part u signal = u.ctrSignal asid id s.tile.id.gid)
    let waits : Prop := g.byGstop = true ∨ g.byShed = true ∨ g.resumeCtrs ≠ []
    s.tile.ex.prv = true → (id = 0 ∨ s.tile.denied 0 ((s.part part).ctrHome id) = false) →
    s.tile.canIssue { regs := [.g a, .g b], reads := [.g a, .g b] } →
    (s.gang part gid = none → ∀ i, i = .gstop a b ∨ i = .gresume a b → signals i) ∧
    (s.gang part gid = some g →
      (g.stopping = false → ∃ t h, exec (.gstop a b) s = .next t ∧ t.gang part gid = some h ∧ h.byGstop = true ∧ h.stopWork = true ∧
        h.stopDone = false ∧ h.stopCtrs = g.stopCtrs ++ [signal] ∧ t.mem = s.mem ∧
        t.fab = { s.fab with flits := t.fab.flits, moves := t.fab.moves } ∧ t.host = s.host ∧ t.power = s.power ∧ t.svc = s.svc ∧
        (∀ p, t.part p = { s.part p with denyBits := (t.part p).denyBits }) ∧ s.tile.SameRegs t.tile []) ∧
      (g.stopping = true → ∃ u, exec (.gstop a b) s =
          .next (u.updGang part gid fun g => { g with byGstop := true, stopCtrs := g.stopCtrs ++ [signal] }) ∧ Frame s u [] 1) ∧
      ((g.stopping = false ∧ g.stopWork = false ∧ g.stopDone = false) ∨ ¬waits →
        signals (.gresume a b)) ∧
      (g.stopping = true ∨ g.stopWork = true ∨ g.stopDone = true → waits →
        ∃ u, exec (.gresume a b) s =
            .next (u.gangFree part gid fun g => { g with byGstop := false, resumeCtrs := g.resumeCtrs ++ [signal] }) ∧ Frame s u [] 1))

/-! ## Events of a tile -/

/-- BRT and BPC of TINFO for a trap at the target of a branch (R17, R36). -/
def branchInfo (b : Option Word) : Nat := match b with
  | some x => 2 ^ 16 + x.toNat % 2 ^ 19 * 2 ^ 32
  | none => 0

/-- What the MTS of a register that its privilege may write does (R6, R7, R15 to R21), field by field; every other register keeps its
value. A TCAUSE.CODE that R35 does not list and a TINFO.ACLASS that R17 does not list keep their old value (R8). That a CODE of 0 is
written is the model's reading (log 62). -/
def MtsWrites (t : Tile) (x : Nat) (a : Word) (r : Regs) : Prop :=
  let old := t.regs
  (x = 0x005 → let v := a.toNat % 2 ^ 19 / 4 * 4
    r = { old with tvec := r.tvec } ∧ r.tvec.toNat = if old.shbase.toNat ≤ v then old.tvec.toNat else v) ∧
  (x = 0x006 → r = { old with trap := { old.trap with tpc := a } }) ∧
  (x = 0x007 → r = if a.toNat % 256 ≤ 0x11 then { old with trap := { old.trap with tcause := BitVec.ofNat 64 (a.toNat % 256) } } else old) ∧
  (x = 0x008 → r = { old with trap := { old.trap with tval := a } }) ∧
  (x = 0x009 → r = { old with trap := { old.trap with tinfo := r.trap.tinfo } } ∧ ∀ k < 64, r.trap.tinfo.getLsbD k =
    if 8 ≤ k ∧ k ≤ 11 ∧ 10 < a.toNat / 2 ^ 8 % 16 then old.trap.tinfo.getLsbD k
    else (a.getLsbD k && decide (k ≤ 5 ∨ 7 ≤ k ∧ k ≤ 11 ∨ 14 ≤ k ∧ k ≤ 17 ∨ 32 ≤ k ∧ k ≤ 50))) ∧
  (x = 0x00A → r = { old with trap := { old.trap with tstat := BitVec.ofNat 64 (a.toNat / 4 % 2 * 4 +
    if a.toNat % 4 < 2 then a.toNat % 4 else old.trap.tstat.toNat % 4) } }) ∧
  (x = 0x010 → r = { old with fmode := r.fmode } ∧ r.fmode.val = if a.toNat % 8 < 5 then a.toNat % 8 else old.fmode.val) ∧
  (x = 0x011 → r = { old with fflags := BitVec.ofNat 5 a.toNat }) ∧
  (x = 0x01A → r = { old with vl := r.vl } ∧ r.vl.val = min a.toNat 16) ∧
  (x = 0x030 → r = { old with psel := a }) ∧
  (∀ k : Fin 8, x = 0x031 + k.val → r = { old with perf := r.perf } ∧ ∀ j, r.perf.get j = if j = k then a else old.perf.get j) ∧
  (x = 0x040 → r = { old with
    mxe := old.mxe && !a.getLsbD 3, nanSeen := old.nanSeen && !a.getLsbD 2, ovfSeen := old.ovfSeen && !a.getLsbD 1 }) ∧
  (x = 0x041 → let v := a.toNat % 2 ^ 19 / 64 * 64
    r = { old with shbase := r.shbase } ∧
    ((∃ n y, t.sh n = some y ∧ y.base < v) ∨ v ≤ old.tvec.toNat → r.shbase = old.shbase) ∧
    ((∀ n y, t.sh n = some y → v ≤ y.base) → old.tvec.toNat < v → r.shbase.toNat = v))

/-- R6, R7, R15 to R18, R20, R21, R24, R36 to R39, R238, R239, R249 to R251, with logs 6, 62: the steps of a tile beside its instructions. A
pending trap is taken at a boundary at U; a word that is no instruction traps ILLEGAL or ILLEGAL_TAIL; a word that cannot be fetched traps
FETCH, and ends the virtual tile where it is the first at TVEC; a result is written when it is due; a cycle is counted; fetch duty and
clock step change. -/
def Obligations.CycleEvents : Prop :=
  ∀ s : State,
    let t := s.tile
    let step := t.ni.step.val * 2 ^ 14
    (∀ p rest, t.ex.pends = p :: rest → t.mayRun = true → t.ni.paused = false → t.ex.inh = true → t.ex.prv = false →
      t.iss.tail = none → t.iss.ending = false → t.ex.cw = none → p.aclass ≠ 1 → p.cause ≠ 0x02 → p.cause ≠ 0x0A →
      ∃ u, exec .asynchronousTrap s = .next u ∧
        TrapTaken { s with tile := { t with ex := { t.ex with pends := rest } } } u p.cause p.val t.ex.pc
          (BitVec.ofNat 64 ((if p.apend = true ∨ rest ≠ [] then 2 ^ 17 else 0) + step + p.aclass % 16 * 2 ^ 8 +
            (match p.lane with | some l => 128 + l.val | none => 0))) t.iss.cycle) ∧
    (∀ w second, t.atIssue = true → t.fetch s.drawn = .unassigned w second → t.ex.cw = none →
      let tval : Word := BitVec.ofNat 64 (w.toNat + (second.getD 0).toNat * 2 ^ 32)
      (w.toNat / 2 ^ 26 ≠ 0x3F → ∃ u, exec (.unassignedEncoding w second) s = .next u ∧
        TrapTaken s u 0x01 tval t.ex.pc (BitVec.ofNat 64 step) t.iss.cycle) ∧
      (w.toNat / 2 ^ 26 = 0x3F → ∃ u, exec (.unassignedEncoding w second) s = .next u ∧
        TrapTaken s u 0x02 tval t.ex.pc (BitVec.ofNat 64 (branchInfo t.ex.branch + step)) t.iss.cycle)) ∧
    (∀ a, t.atIssue = true → t.fetch s.drawn = .fault a false →
      (t.ex.tvecFetch = false → t.ex.cw = none → ∃ u, exec (.fetchFault a false) s = .next u ∧
        TrapTaken s u 0x05 a t.ex.pc (BitVec.ofNat 64 (branchInfo t.ex.branch + step + 2 ^ 8)) t.iss.cycle) ∧
      (t.ex.tvecFetch = true → ∃ u, exec (.fetchFault a false) s = .next u ∧ SameModule s u ∧ u.tile.ex.inh = false ∧
        u.tile.ex.curSlot = none ∧ u.tile.pl.finished = true ∧ u.tile.pl.status = 5 ∧ u.tile.regs = t.regs)) ∧
    (∀ n w, t.iss.writes[n]? = some w → t.iss.ending = true → w.due ≤ t.iss.cycle →
      ∃ u, exec (.registerToRegisterWrite n) s = .next u ∧ SameModule s u ∧ t.SameUnits u.tile ∧ u.tile.ops = t.ops ∧ u.tile.pad = t.pad ∧
        u.tile.ex = t.ex ∧ u.tile.iss = { t.iss with writes := dropNth t.iss.writes n } ∧
        (∀ d x, w.write = .g d x → u.tile.Has d x ∧ t.SameG u.tile [d] ∧ t.SameV u.tile ∧ t.SameM u.tile) ∧
        (∀ d l x, w.write = .v d l x → t.SameG u.tile [] ∧ t.SameM u.tile ∧ ∀ r i, (u.tile.v r).get i =
          if r = d ∧ l.getLsbD i.val = true then x.get i else (t.v r).get i) ∧
        (∀ d x, w.write = .m d x → t.SameG u.tile [] ∧ t.SameV u.tile ∧ ∀ r, u.tile.m r = if r = d ∧ d ≠ 0 then x else t.m r) ∧
        ((∀ x a, w.write ≠ .sr x a) →
          u.tile.regs = { t.regs with g := u.tile.regs.g, v := u.tile.regs.v, m := u.tile.regs.m, fflags := t.regs.fflags ||| w.flags.getD 0 }) ∧
        (∀ x a, w.write = .sr x a → w.flags = none → MtsWrites t x a u.tile.regs)) ∧
    (t.counts = true → t.iss.ending = false → t.iss.stall = none →
      ∃ u, exec .tileCycle s = .next u ∧ u.tile.iss = { t.iss with ending := true, refused := t.iss.refused - 1 } ∧ u.tile.ni.allCycles = t.ni.allCycles + 1 ∧
        u.tile.ex = t.ex ∧ u.tile.ops = { t.ops with kept := u.tile.ops.kept } ∧ u.tile.pad = t.pad ∧ t.SameRegs u.tile [] ∧
        ∀ k : Fin 8, t.regs.psel.toNat / 2 ^ (8 * k.val) % 256 = 0 → u.tile.regs.perf.get k = t.regs.perf.get k + 1) ∧
    (∀ d, t.ni.dutyNext = some d → t.iss.cycle % 16 = 0 → t.iss.ending = false →
      exec .fetchdutyUpdate s = .next { s with tile := { t with ni := { t.ni with duty := d, dutyNext := none } } }) ∧
    (∀ k, t.ni.stepNext = some k → t.counts = true → t.iss.tail = none → t.iss.ending = false →
      ∃ u, exec .stepChange s = .next u ∧ SameModule s u ∧ u.tile.ni = { t.ni with step := k, stepNext := none, paused := true } ∧
        u.tile.ex = t.ex ∧ u.tile.ops = t.ops ∧ u.tile.iss = t.iss ∧ t.SameRegs u.tile []) ∧
    exec .stepPauseEnd s = .next (({ s with tile := { t with ni := { t.ni with paused := false } } } : State).select false)

/-- R34, R155, R215, R221, R241: a load arrives, leaves its counts, and writes its registers and no others: a scalar load; a vector load
of any lanes; a global load or an atomic no earlier than 24 cycles after its issue, CRD no earlier than 16, once their home has answered. -/
def Arrivals : Prop :=
  ∀ (s : State) (n : Nat) (o : OutLoad),
    let t := s.tile
    let due : Prop :=
      (∃ a b, o.kind = .timed a b ∧ a ≤ t.iss.cycle) ∧ t.iss.ending = true ∧ t.firstDue = some n ∨
      ((∃ ext, o.kind = .global ext) ∨ (∃ op x y nat ext, o.kind = .atomic op x y nat ext)) ∧ t.counts = true ∧ t.iss.ending = false ∧
        o.issued + 24 ≤ t.iss.cycle ∧ s.answering o.stamp = false ∨
      (∃ c p, o.kind = .crd c p) ∧ t.counts = true ∧ t.iss.ending = false ∧ o.issued + 16 ≤ t.iss.cycle ∧ s.answering o.stamp = false
    let left (u : State) : Prop := SameModule s u ∧ t.SameUnits u.tile ∧ u.tile.ex = t.ex ∧ u.tile.iss = t.iss ∧ u.tile.pad = t.pad ∧
      u.tile.ops = { t.ops with loads := dropNth t.ops.loads n } ∧ t.SameM u.tile ∧ t.SameSpecial u.tile
    t.ops.loads[n]? = some o → o.ecc = none → due →
    (∀ e d v, o.elems = [e] → e.reg = .g d → e.val = some v →
      ∃ u, exec (.loadArrival n) s = .next u ∧ left u ∧ u.tile.Has d v ∧ t.SameG u.tile [d] ∧ t.SameV u.tile) ∧
    ((∀ e ∈ o.elems, ∃ r v, e.reg = .v r ∧ e.val = some v) → (∀ e ∈ o.elems, ∀ f ∈ o.elems, e.reg = f.reg → e.lane = f.lane → e = f) →
      (∀ e ∈ o.elems, e.lane.val < 16) →
      ∃ u, exec (.loadArrival n) s = .next u ∧ left u ∧ t.SameG u.tile [] ∧ ∀ (r : VReg) (i : Fin 16),
        (∀ e v, e ∈ o.elems → e.reg = .v r → e.lane.val = i.val → e.val = some v → (u.tile.v r).get i = BitVec.ofNat 32 v.toNat) ∧
        ((∀ e ∈ o.elems, e.reg ≠ .v r ∨ e.lane.val ≠ i.val) → (u.tile.v r).get i = (t.v r).get i))

/-- R107, R126, R221: the word that a register receives of n loaded bytes that make the number x: x as a signed number, x with zeros above
it, or the lane of an element. -/
def LoadedWords : Prop :=
  (∀ n x, n = 1 ∨ n = 2 ∨ n = 4 ∨ n = 8 → x < 2 ^ (8 * n) →
    (LoadExt.signed.value n x).toInt = (if 2 ^ (8 * n - 1) ≤ x then (x : Int) - 2 ^ (8 * n) else x) ∧ (LoadExt.zero.value n x).toNat = x) ∧
  ∀ (ty : ElemTy) (x k : Nat), x < 2 ^ (8 * elemSize ty) →
    ((LoadExt.elem ty).value (elemSize ty) x).getLsbD k = (decide (k < 32) && fillBit ty x k)

/-- R34, R112, R278, R290, R296, R340, R200, R216 to R218, R250, with log 51: accesses are performed at their homes, which answer, and leave
their counts, a translation that an access waits for is fetched or found not to exist, an operation that its destination has taken leaves
MS, a deny bit of the NI becomes that of the partition once the engine's last packet has come, and a CWAIT is released or times out. -/
def HomeEvents : Prop :=
  ∀ s : State,
    let t := s.tile
    (∀ n o, t.ops.stores[n]? = some o → o.ecc = none → (∀ e ∈ o.elems, e.done = true) → s.answering o.stamp = false →
      exec (.globalStoreVisible n) s =
        .next { s with tile := { t with ops := { t.ops with stores := dropNth t.ops.stores n } } }) ∧
    (∀ n k o e ext, t.ops.loads[n]? = some o → o.kind = .global ext → o.elems[k]? = some e → e.val = none →
      s.reqComingTo o.stamp (stackOf e.pa) = false → s.lineHeld o.stamp e.pa true = false →
      t.readsFirst o.stamp e.pa e.bytes = false → s.badHbm e.pa e.bytes = false →
      ∃ u, exec (.accessPerformedAtHome false n k) s = .next u ∧ SameButFlits s u ∧ u.tile = { t with ops := { t.ops with
        loads := mapNth (fun o => { o with elems := mapNth (fun e => { e with
          val := some (ext.value e.bytes (Memory.nat s.mem.hbm e.pa e.bytes)) }) o.elems k }) t.ops.loads n } } ∧
        (o.elems = [e] → u.answering o.stamp = true)) ∧
    (∀ n o e c pend x, t.ops.loads[n]? = some o → o.kind = .crd c pend → o.elems = [e] → e.val = none → s.reqComing o.stamp = false →
      s.numberedBefore o.stamp (s.ctrEngine t.gang.asid c) (some c) = false → s.sync.bad.contains (ctrKey t.gang.asid c) = false →
      c ≠ 0xFFFFFFFF → s.counter t.gang.asid c = some x →
      ∃ u, exec (.accessPerformedAtHome false n 0) s = .next u ∧ SameButFlits s u ∧ u.answering o.stamp = true ∧
        u.tile = { t with ops := { t.ops with loads := mapNth (fun o => { o with elems := o.elems.map fun e => { e with
          val := some (if pend then BitVec.ofNat 64 (x.pend.toNat + (if x.psat then 2 ^ 32 else 0) + (if x.sat then 2 ^ 33 else 0) +
            if x.waiters = [] then 0 else 2 ^ 34) else x.value) } }) t.ops.loads n } }) ∧
    (∀ n k o e, t.ops.stores[n]? = some o → o.elems[k]? = some e → e.done = false →
      (∀ j x, j < k → o.elems[j]? = some x → x.done = true ∨ x.pa / 64 ≠ e.pa / 64) →
      s.reqComingTo o.stamp (stackOf e.pa) = false → s.lineHeld o.stamp e.pa false = false →
      s.badPartial e.pa (e.data.map some) = [] →
      ∃ u, exec (.accessPerformedAtHome true n k) s = .next u ∧ SameButFlits { s with mem := u.mem } u ∧
        u.mem = { s.mem with hbm := u.mem.hbm, bad := u.mem.bad } ∧ (o.elems = [e] → u.answering o.stamp = true) ∧
        (∀ x, Memory.byte u.mem.hbm x =
          if e.pa ≤ x ∧ x < e.pa + e.data.length then e.data.getD (x - e.pa) 0 else Memory.byte s.mem.hbm x) ∧
        u.tile = { t with ops := { t.ops with stores := mapNth (fun o => { o with
          elems := mapNth (fun e => { e with done := true }) o.elems k }) t.ops.stores n } }) ∧
    (∀ va e, t.ni.misses.contains va = true → t.ni.paused = false → s.walk t.gang.asid va = some e →
      let f := fieldOf t.pl.phys
      let mine := s.mem.unitTlb.filter fun x => decide (x.1 = f ∧ x ≠ (f, e))
      let kept := t.ni.tlb.filter fun x => decide (x ≠ e)
      kept.length ≤ 32 → mine.length ≤ 4096 →
      ∃ u, exec (.translationWalk va) s = .next u ∧
        u = { s with tile := u.tile, mem := { s.mem with unitTlb := u.mem.unitTlb }, svc := u.svc } ∧ (s.mem.bad = [] → u.svc = s.svc) ∧
        u.tile.ni = { t.ni with tlb := (if kept.length < 32 then kept else kept.drop 1) ++ [e]
                                got := u.tile.ni.got, misses := u.tile.ni.misses } ∧ e ∈ u.tile.ni.got ∧
        (∀ x, x ∈ u.tile.ni.misses ↔ x ∈ t.ni.misses ∧ x ≠ va ∧ ¬(e.va ≤ x ∧ x < e.va + e.size)) ∧
        u.tile.ops = t.ops ∧ u.tile.ex = t.ex ∧ t.SameRegs u.tile [] ∧
        u.mem.unitTlb = (s.mem.unitTlb.filter fun x => decide (x.1 ≠ f)) ++ (if mine.length < 4096 then mine else mine.drop 1) ++ [(f, e)]) ∧
    (∀ va, t.ni.misses.contains va = true → t.ni.paused = false → s.walk t.gang.asid va = none →
      ∃ u, exec (.translationWalk va) s = .next u ∧ u = { s with tile := u.tile, svc := u.svc } ∧ (s.mem.bad = [] → u.svc = s.svc) ∧
        u.tile.ni = { t.ni with noLeaf := u.tile.ni.noLeaf, misses := u.tile.ni.misses } ∧ va ∈ u.tile.ni.noLeaf ∧
        va ∉ u.tile.ni.misses ∧ u.tile.ops = t.ops ∧ u.tile.ex = t.ex ∧ t.SameRegs u.tile []) ∧
    (∀ va, t.ni.misses.contains va = false ∨ t.ni.paused = true → exec (.translationWalk va) s = .next s) ∧
    (∀ n o, t.ops.ms[n]? = some o → o.done = true → s.answering o.stamp = false →
      exec (.msAcknowledgement n) s = .next { s with tile := { t with ops := { t.ops with ms := dropNth t.ops.ms n } } }) ∧
    (∀ table engine, s.travelling (.deny t.id.part table engine t.pl.phys) = true → exec (.denyBitUpdate table engine) s = .next s) ∧
    (∀ table engine, s.travelling (.deny t.id.part table engine t.pl.phys) = false → ∃ u, exec (.denyBitUpdate table engine) s = .next u ∧
      u = { s with tile := { t with ni := { t.ni with deny := u.tile.ni.deny } } } ∧
      (u.tile.denied table engine = (s.part t.id.part).denyBits.contains (table, engine)) ∧
      ∀ a b, (a, b) ≠ (table, engine) → u.tile.denied a b = t.denied a b) ∧
    (∀ c, t.ex.cw = some c → c.released = true → c.acquired = none → s.answering c.stamp = false →
      ((∃ d, c.deadline = some d ∧ d < s.tileTime) → exec .cwaitRelease s = .next s) ∧
      ((∀ d, c.deadline = some d → s.tileTime ≤ d) → exec .cwaitRelease s =
        .next { s with tile := { t with ex := { t.ex with cw := some { c with acquired := some (s.hostQueue t.gang.asid) } } } })) ∧
    (∀ c d, t.ex.cw = some c → c.deadline = some d → d < s.tileTime → c.acquired = none → t.ni.paused = false → t.iss.ending = false →
      (t.ex.prv = true ∨ t.ex.pends = []) →
      ∃ u, exec .cwtimeout s = .next u ∧ u.tile.ex.cw = none ∧ u.tile.ex.prv = true ∧ u.tile.ex.pc = t.regs.tvec.zeroExtend 64 ∧
        u.tile.regs.trap = { tpc := t.ex.pc, tcause := 0x11, tval := c.ctr.zeroExtend 64
                             tinfo := BitVec.ofNat 64 (t.ni.step.val * 2 ^ 14 + 10 * 2 ^ 8), tstat := if t.ex.prv then 5 else 0 } ∧
        (∀ k ∈ u.sync.ctrs, k.asid = t.gang.asid → k.id = c.ctr → ∀ w ∈ k.waiters, w.tile = t.id → w.proxy = true))

/-- R34, R107, R112, R126, R155, R200, R215 to R218, R221, R241, R250, R278, R290, R296, R340, with log 51: accesses at their homes and what
they give, translations and their replacement, arrivals, CWAIT and the deny bits of the NI. -/
def Obligations.MemoryEvents : Prop := LoadedWords ∧ Arrivals ∧ HomeEvents

/-- R200, R211 to R230, R280, R302, R308, R343, R346, R386, R387, with logs 22, 57: a message is accepted into a free slot; queued messages
move into the inbox; the engines apply counter operations, waiters, atomics, reductions and seals, and bring lines in; faults expire; a
hand-over is performed. -/
def Obligations.SyncEvents : Prop :=
  ∀ s : State,
    let t := s.tile
    let asid := t.gang.asid
    let takes (u : State) (m : Msg) (x : Slot) : Prop :=
      u.tile.inb.slots = t.inb.slots ++ [x] ∧ x.chan = m.chan ∧ x.kind = m.kind ∧ x.rfs = m.rfs ∧ x.seqno = m.seqno ∧ x.src = m.src ∧
      (∀ y ∈ t.inb.slots, y.slot ≠ x.slot) ∧
      ∀ k, k < m.payload.length → Memory.byte u.tile.inb.bytes (64 * x.slot.val + k) = m.payload.getD k 0
    let arrived (stamp : Nat) : Prop := s.reqComing stamp = false ∧ Roomy s t.id.part
    let sound (id : W32) : Prop := s.sync.bad.contains (ctrKey asid id) = false ∧ id ≠ 0xFFFFFFFF
    (∀ n m p, s.fab.flight[n]? = some m → m.sent = true → s.travelling (.msg m.serial) = false → t.id = ⟨m.part, m.gid, m.dst⟩ →
      m.phys = some p → s.seen t.id p = some p → m.seqno = (t.expected m).next → (t.expected m).taken = [] → t.inb.window = [] →
      t.inb.overflow = [] → t.admits m.chan = true → t.ex.inh = true → t.ni.paused = false → OverflowFits s m.part → (s.part m.part).held = [] →
      ∃ u x, exec (.messageArrival n) s = .next u ∧ takes u m x) ∧
    (∀ m, t.pl.res = .resident → t.ni.paused = false → t.inb.overflow = [m] → t.inb.window = [] → m.parked = false → t.admits m.chan = true → t.ex.inh = true →
      (s.part t.id.part).held = [] → OverflowFits s t.id.part →
      ∃ u x, exec .overflowMove s = .next u ∧ takes u m x ∧ u.tile.inb.overflow = [] ∧ u.fab = s.fab ∧ u.sync = s.sync) ∧
    (∀ c k, t.ex.cw = some c → c.sent = true → c.queued = false → c.released = false → c.acquired = none → arrived c.stamp →
      s.numberedBefore c.stamp (s.ctrEngine asid c.ctr) (some c.ctr) = false → sound c.ctr → s.counter asid c.ctr = some k →
      k.waiters = [] →
      let met : Prop := c.thr.toNat ≤ k.value.toNat ∧ (c.nopend = true ∨ (k.pend = 0 ∧ k.psat = false))
      ∃ u, exec .waiterRequest s = .next u ∧
        (met → u.tile.ex.cw = some { c with released := true } ∧ u.counter asid c.ctr = some k) ∧
        (¬met → u.tile.ex.cw = some { c with queued := true } ∧
          u.counter asid c.ctr = some { k with waiters := [⟨t.id, c.thr, c.nopend, false⟩] })) ∧
    (∀ n o c k, t.ops.ms[n]? = some o → o.done = false → arrived o.stamp → (o.rel = true → t.releasedBefore o.stamp = true) →
      s.numberedBefore o.stamp (s.ctrEngine asid c) (some c) = false → sound c → s.counter asid c = some k → k.waiters = [] →
      let applies (f : Counter) : Prop := ∃ u, exec (.counterOperation (.msOp n)) s = .next u ∧ u.counter asid c = some f ∧
        u.tile.ops = { t.ops with ms := mapNth (fun o => { o with done := true }) t.ops.ms n }
      (∀ x : Word, o.kind = .cadd c x → applies { k with
        value := BitVec.ofNat 64 (min (k.value.toNat + x.toNat) (2 ^ 64 - 1)), sat := k.sat || decide (2 ^ 64 ≤ k.value.toNat + x.toNat) }) ∧
      (∀ x : BitVec 32, o.kind = .cexp c x → let v := k.pend.toInt + x.toInt
        applies { k with
          pend := BitVec.ofInt 32 (max (-2 ^ 31) (min v (2 ^ 31 - 1))), psat := k.psat || decide (v < -2 ^ 31 ∨ 2 ^ 31 - 1 < v) }) ∧
      (∀ x : Word, o.kind = .cset c x → applies { k with value := x, pend := 0, sat := false, psat := false })) ∧
    (∀ n r k, s.sync.credits[n]? = some r → s.travelling (.pkt r.serial) = false → s.sync.bad.contains (ctrKey r.asid r.ctr) = false → r.ctr ≠ 0xFFFFFFFF →
      s.counter r.asid r.ctr = some k → k.waiters = [] → Roomy s (s.asidPart r.asid) →
      ∃ u, exec (.counterOperation (.credit n)) s = .next u ∧ u.tile = t ∧ u.sync.credits = dropNth s.sync.credits n ∧
        u.counter r.asid r.ctr = some ((k.addValue r.value).addPend r.pend)) ∧
    (∀ n o e op x y nat ext, t.ops.loads[n]? = some o → o.kind = .atomic op x y nat ext → o.elems = [e] → e.val = none → arrived o.stamp →
      s.numberedBefore o.stamp (s.lineEngine asid e.pa) none = false → (∃ l ∈ s.sync.lines, l.pa = e.pa / 64 * 64) →
      s.sync.bad.contains (e.pa / 8) = false →
      let m := 2 ^ (8 * e.bytes)
      let old := Memory.nat s.sync.lineMem e.pa e.bytes
      let new := atomicNew op nat e.bytes old (x.toNat % m) (y.toNat % m)
      ∃ u, exec (.atomicApply n) s = .next u ∧
        (∀ a, Memory.byte u.sync.lineMem a =
          if e.pa ≤ a ∧ a < e.pa + e.bytes then BitVec.ofNat 8 (new / 2 ^ (8 * (a - e.pa))) else Memory.byte s.sync.lineMem a) ∧
        u.tile.ops = { t.ops with loads := mapNth (fun o => { o with
          elems := o.elems.map fun e => { e with val := some (ext.value e.bytes old) } }) t.ops.loads n }) ∧
    (∀ n o e op x y nat ext, t.ops.loads[n]? = some o → o.kind = .atomic op x y nat ext → o.elems = [e] → e.val = none → arrived o.stamp →
      o.ecc = none → s.numberedBefore o.stamp (s.lineEngine asid e.pa) none = false → (∀ l ∈ s.sync.lines, l.pa ≠ e.pa / 64 * 64) →
      s.mem.bad.contains (e.pa / 8) = true →
      ∃ u, exec (.atomicApply n) s = .next u ∧ (∃ l ∈ u.sync.lines, l.pa = e.pa / 64 * 64) ∧
        (∀ a, a / 64 = e.pa / 64 → Memory.byte u.sync.lineMem a = Memory.byte s.mem.hbm a) ∧
        ∃ p, u.tile.ops.loads[n]? = some p ∧ (p.ecc.map fun q => q.2.1) = some (BitVec.ofNat 64 (3 * 2 ^ 60 + e.va))) ∧
    (∀ n o op ty va pa x atS epoch seq, t.ops.ms[n]? = some o → o.kind = .red op ty va pa x atS epoch seq → o.done = false →
      arrived o.stamp → s.numberedBefore o.stamp (s.lineEngine asid pa) none = false →
      (t.gang.det = true → ∃ u, exec (.reductionAccept n) s = .next u ∧
        u.sync.holds = s.sync.holds ++ [⟨t.id, asid, epoch, seq, op, ty, va, pa, x, atS, none⟩] ∧
        u.tile.ops = { t.ops with ms := mapNth (fun o => { o with done := true }) t.ops.ms n } ∧
        ∀ e, s.walk asid va = some e → permits e.perms atS .red = true → e.mode = 2 → pa = e.pa + (va - e.va) →
          (∃ l ∈ u.sync.lines, l.pa = pa / 64 * 64) ∧
          ((∃ l ∈ s.sync.lines, l.pa = pa / 64 * 64) → u.sync.lineMem = s.sync.lineMem) ∧
          ((∀ l ∈ s.sync.lines, l.pa ≠ pa / 64 * 64) → ∀ a, Memory.byte u.sync.lineMem a =
            if a / 64 = pa / 64 then Memory.byte s.mem.hbm a else Memory.byte s.sync.lineMem a)) ∧
      (∀ e, t.gang.det = false → s.walk asid va = some e → permits e.perms atS .red = true → e.mode = 2 → pa = e.pa + (va - e.va) →
        (∃ l ∈ s.sync.lines, l.pa = pa / 64 * 64) → s.sync.bad.contains (pa / 8) = false →
        let k := redSize ty
        let new := reduceNew op ty (Memory.nat s.sync.lineMem pa k) (x.toNat % 2 ^ (8 * k))
        ∃ u, exec (.reductionAccept n) s = .next u ∧
          (∀ a, Memory.byte u.sync.lineMem a =
            if pa ≤ a ∧ a < pa + k then BitVec.ofNat 8 (new / 2 ^ (8 * (a - pa))) else Memory.byte s.sync.lineMem a) ∧
          u.tile.ops = { t.ops with ms := mapNth (fun o => { o with done := true }) t.ops.ms n })) ∧
    (∀ n o c p epoch, t.ops.ms[n]? = some o → o.kind = .seal c p epoch → o.done = false → arrived o.stamp → s.sealWaits o.stamp = false →
      s.numberedBefore o.stamp (s.ctrEngine asid c) (some c) = false → s.sync.rounds = [] →
      (∀ k, t.gang.det = false → sound c → s.counter asid c = some k → k.waiters = [] → k.value.toNat + 1 < 2 ^ 64 →
        ∃ u, exec (.sealAccept n) s = .next u ∧ u.counter asid c = some { k with value := k.value + 1 }) ∧
      (t.gang.det = true → 1 < p → sound c → ∃ u, exec (.sealAccept n) s = .next u ∧
        (∀ k, s.counter asid c = some k → k.waiters = [] → u.counter asid c = some k) ∧
        (s.counter asid c = none → u.counter asid c = some ⟨asid, c, 0, 0, false, false, []⟩) ∧
        u.sync.rounds = [⟨t.id.part, t.id.gid, asid, c, p, [(t.id.vt, epoch)], false⟩])) ∧
    (∀ a idx f g, s.faultOf a idx = some f → f.written = true → f.behind = [] →
      (let w := (s.part f.hold.tile.part).gov.faultwait; f.time + (if w = 0 then 1000 else w) * 10 ^ 6 ≤ s.fab.time) →
      s.gang f.hold.tile.part f.hold.tile.gid = some g →
      ∃ u, exec (.faultwaitExpiry a idx) s = .next u ∧ u.faultOf a idx = none ∧ u.sync.lineMem = s.sync.lineMem ∧
        u.gang f.hold.tile.part f.hold.tile.gid = some { g with redLost := true }) ∧
    (∀ n o h va len owner read e a, t.ops.ms[n]? = some o → o.kind = .handover h va len owner read 0 → o.done = false →
      t.handleBusy h.val o.stamp = false → t.rangeBusy va len o.stamp = false → s.pagesOf asid va len = ([e], none) → s.leafAddr asid e.va = some a →
      s.mem.bad.contains (a / 8) = false → Roomy s t.id.part →
      ∃ u, exec (.handoverPerform n) s = .next u ∧ u.tile.ops = { t.ops with ms := dropNth t.ops.ms n } ∧
        Memory.nat u.mem.hbm a 8 = leafWith (Memory.nat s.mem.hbm a 8) (if read then 1 else 0) (if read then 0 else owner) ∧
        ∀ y ∈ u.tile.ni.tlb, y.asid = asid → meets y.va y.size va len = false)

/-- A counter that is named and sound gains 1 (R190, R211): VALUE, where no waiter stands at it. -/
def Gains1 (s u : State) (asid : Nat) (id : W32) : Prop :=
  ∀ k, id ≠ 0 → sysCtr id = false → s.sync.bad.contains (ctrKey asid id) = false → s.counter asid id = some k → k.waiters = [] →
    k.value.toNat + 1 < 2 ^ 64 → u.counter asid id = some { k with value := k.value + 1 }

/-- R27, R182, R188 to R194, R387, with log 26: fills land, a CPOUT passes its release and visibility points, a copy fails at its lowest
failing address (of a CPIN or CPDEAL an unread byte that it cannot read, of a CPOUT a word that it could not write, or the unit at which it
fails): its fills end, a shingle that one of them was filling is EMPTY, and every other shingle, one that it drains among them, keeps its
state; a remote fill starts with its first flit, two MSWAPs exchange their bytes. -/
def Obligations.CopyEvents : Prop :=
  ∀ s : State,
    let t := s.tile
    let asid := t.gang.asid
    (∀ n f x off len (data : Nat → Byte), t.ni.paused = false → t.ops.fills[n]? = some f → f.complete = false → t.sh f.sh = some x →
      x.st = .filling → 1 ≤ len → len ≤ 64 → off + len ≤ f.cut → (∀ a, off ≤ a → a < off + len → f.has a = false ∧ s.fillByte f a = some (some (data a))) →
      let w := min f.len (prefixOf (f.landed ++ [(off, len)]) (f.landed.length + 1) 0)
      ∃ u, exec (.fillLanding n off len) s = .next u ∧
        (∀ a, Memory.byte u.tile.pad.bytes a =
          if x.base + off ≤ a ∧ a < x.base + off + len ∧ a < x.base + f.len then data (a - x.base) else Memory.byte t.pad.bytes a) ∧
        u.tile.sh f.sh = some { x with wmark := w, st := if w = f.len then .ready else .filling } ∧
        (∀ k, k ≠ f.sh → u.tile.sh k = t.sh k) ∧ t.SameRegs u.tile []) ∧
    (∀ n c x, t.ops.copies[n]? = some c → c.kind = .cpout → c.released = false → t.sh c.sh = some x → x.st = .draining →
      Roomy s t.id.part → s.sync.bad.contains (ctrKey asid c.ctr) = false → ∃ u, exec (.releasePoint n) s = .next u ∧ u.tile.sh c.sh = some { x with st := .ready } ∧ u.tile.pad = t.pad ∧
        u.tile.ops.copies = mapNth (fun c => { c with released := true }) t.ops.copies n ∧ Gains1 s u asid c.ctr) ∧
    (∀ n c, t.ops.copies[n]? = some c → c.kind = .cpout → c.released = true → c.allUnits = true → c.ecc = none →
      s.answering c.stamp = false →
      (c.flag = true → t.releasedBefore c.stamp = true) → Roomy s t.id.part →
      s.sync.bad.contains (ctrKey asid c.vis) = false →
      ∃ u, exec (.visibilityPoint n) s = .next u ∧ u.tile.ops = { t.ops with copies := dropNth t.ops.copies n } ∧
        u.tile.pad = t.pad ∧ Gains1 s u asid c.vis) ∧
    (∀ n va c low, t.ops.copies[n]? = some c → c.kind ≠ .cpt → c.unitLeft va = true → t.ex.pends.length < 96 →
      let unit := copyUnit c.va c.len va
      let bad (a : Nat) : Prop := c.reads = true ∧ c.va ≤ a ∧ a < c.va + c.len ∧ c.unitLeft a = true ∧ s.badHbm (c.pa a) 1 = true
      let fails (a : Nat) : Prop := bad a ∨ (c.reads = false ∧ c.ecc = some a) ∨
        (a = unit.1 ∧ ∀ b, unit.1 ≤ b → b < unit.1 + unit.2 → ¬bad b)
      fails low → (∀ a, fails a → low ≤ a) →
      ∃ u, exec (.copyFault n va) s = .next u ∧ u.tile.ops.copies = dropNth t.ops.copies n ∧ u.tile.pad = t.pad ∧
        u.tile.ex.pends = t.ex.pends ++ [⟨0x0B, BitVec.ofNat 64 (3 * 2 ^ 60 + low), 8, none, false⟩] ∧
        let mine (f : Fill) : Prop := ∃ j, f.src = .copy t.id.vt c.stamp j
        (∀ f ∈ u.tile.ops.fills, ¬mine f) ∧
        (∀ k, (∀ f ∈ t.ops.fills, f.sh = k → ¬mine f) → u.tile.sh k = t.sh k) ∧
        ∀ f x, f ∈ t.ops.fills → mine f → f.complete = false → t.sh f.sh = some x → x.st = .filling →
          (∀ g ∈ t.ops.fills, g.sh = f.sh → g = f) → u.tile.sh f.sh = some { x with st := .empty }) ∧
    (∀ n r x p, s.fab.remotes[n]? = some r → r.parked = false → r.dst = t.id → r.phys = some p → s.seen t.id p = some p →
      s.fillComes r = true →
      t.sh r.sh = some x → x.st = .empty ∨ x.st = .ready → t.holds r.sh = false → s.fillBehind r = false →
      ∃ u, exec (.remoteFill n) s = .next u ∧ u.fab.remotes = s.fab.remotes.filter (fun q => decide (q.serial ≠ r.serial)) ∧
        u.tile.sh r.sh = some { x with st := .filling, wmark := 0, fctr := r.ctr } ∧
        u.tile.ops = { t.ops with
          fills := t.ops.fills ++ [⟨.copy r.issuer r.stamp r.recip, r.sh, min r.len (x.len * 64), r.len, []⟩] }) ∧
    (∀ n o q k p o2 sh, t.ops.mx[n]? = some o → o.kind = .mswap q k → q ≠ t.id.vt → o.recv = none → o.sh = some sh →
      s.findTile { t.id with vt := q } = some p → p.swapWith t.id.vt k = some o2 → t.present = true → p.present = true →
      t.ni.paused = false → p.ni.paused = false →
      let len := min (t.swapLen o) (p.swapLen o2)
      (t.swapBytes o len).2 = [] → (p.swapBytes o2 len).2 = [] →
      ∃ u, exec (.mswapPairing n) s = .next u ∧ u.tile.ops.fills = t.ops.fills ++ [⟨.mswap o.stamp, sh, len, len, []⟩] ∧
        u.tile.ops.mx = t.ops.mx.map (fun x =>
          if x.stamp = o.stamp then { x with recv := some ((upFrom 0 len).map fun j => some ((p.swapBytes o2 len).1.getD j 0)) } else x))

/-- An accumulator element lies in the rectangle of an operation of m rows. -/
def InRect (g : Geom) (m r c : Nat) : Prop := g.row0 ≤ r ∧ r < g.row0 + m ∧ g.col0 ≤ c ∧ c < g.col0 + g.n

/-- The engine writes its accumulator (R62, R172, R176, R178, R180): every element of the rectangle gets the value of its row and column,
and every other element stays. -/
def WritesAcc (t u : Tile) (g : Geom) (m : Nat) (value : Nat → Nat → Nat) : Prop :=
  u.pad = t.pad ∧ ∀ r c, r < 128 → c < 128 →
    (InRect g m r c → u.accEl r c = value (r - g.row0) (c - g.col0)) ∧ (¬InRect g m r c → u.accEl r c = t.accEl r c)

/-- MLOADB (R171): block b of column j goes to cells and scale entry of column C0 + j, and every other cell and entry stays; the rows
written are good again. -/
def LoadsB (t u : Tile) (g : Geom) (cols : List (List Byte)) : Prop :=
  let w := pBits g.bfmt + 2
  let block (j b : Nat) : Nat := ofBytes (((cols.getD j []).drop (b * blkBytes g.bfmt)).take (blkBytes g.bfmt))
  u.pad = t.pad ∧ u.eng.acc = t.eng.acc ∧
  (∀ j b, j < g.n → b < g.kb →
    Memory.nat u.eng.scales (4 * (128 * (g.kbase + b) + (g.c0 + j))) 4 = block j b % 2 ^ 20 ∧
    ∀ i, i < 32 → Memory.byte u.eng.cells (128 * (32 * (g.kbase + b) + i) + (g.c0 + j)) = BitVec.ofNat 8 (block j b / 2 ^ (32 + w * i) % 2 ^ w)) ∧
  (∀ k c, c < 128 → ¬(32 * g.kbase ≤ k ∧ k < 32 * (g.kbase + g.kb) ∧ g.c0 ≤ c ∧ c < g.c0 + g.n) →
    Memory.byte u.eng.cells (128 * k + c) = Memory.byte t.eng.cells (128 * k + c)) ∧
  (∀ kb c, c < 128 → ¬(g.kbase ≤ kb ∧ kb < g.kbase + g.kb ∧ g.c0 ≤ c ∧ c < g.c0 + g.n) →
    Memory.nat u.eng.scales (4 * (128 * kb + c)) 4 = Memory.nat t.eng.scales (4 * (128 * kb + c)) 4) ∧
  ∀ k, 32 * g.kbase ≤ k → k < 32 * (g.kbase + g.kb) → k ∉ u.eng.badRows ∧ k ∉ u.eng.upsets

/-- MACC2S (R179): element (r, c) of the rectangle stands at r × RS + c × es of the reference, as it is or rounded; every byte outside the
rows stays; with CLR the rectangle is +0 afterwards. -/
def StoresAcc (t u : Tile) (o : MxOp) (clr : Bool) (f : AccFmt) (rm : Fin 5) : Prop :=
  let g := o.geom
  let es := accSize f
  let at_ (r c : Nat) : Nat := t.mxBase o + r * g.rs (g.n * es) + c * es
  let value (x : Nat) : Nat := match f with
    | .f32 => x
    | .bf16 | .fp16 => ((accFmt f).convert (RMode.arith rm) (fp32.decode x)).bits
  (∀ r c, r < g.m → c < g.n → Memory.nat u.pad.bytes (at_ r c) es = value (t.accEl (g.row0 + r) (g.col0 + c)) % 2 ^ (8 * es)) ∧
  (∀ a, (∀ r, r < g.m → a < at_ r 0 ∨ at_ r g.n ≤ a) → Memory.byte u.pad.bytes a = Memory.byte t.pad.bytes a) ∧
  (clr = false → u.eng = t.eng) ∧
  (clr = true → ∀ r c, r < 128 → c < 128 → (InRect g g.m r c → u.accEl r c = 0) ∧ (¬InRect g g.m r c → u.accEl r c = t.accEl r c))

/-- A block of a format (R54, R55): its header, and its elements as given. -/
def blockOf (f : BlkFmt) (header : Nat) (element : Nat → Nat) : Block :=
  ⟨pBits f, header % 1024, header / 1024 % 1024, (List.range 32).map element⟩

/-- The steps of R62 that R172 makes at element (r, c) of a rectangle, over ascending K: the blocks of the delivered row, whose bytes past
its end read as zero, against the blocks of the CIM column. -/
def productStep (t : Tile) (g : Geom) (rows : List (List Byte)) (r c : Nat) : AccStep :=
  let wa := pBits g.afmt + 2
  let wb := pBits g.bfmt + 2
  let a (j : Nat) : Block :=
    let x := ofBytes (((rows.getD r []).drop (j * blkBytes g.afmt)).take (blkBytes g.afmt))
    blockOf g.afmt x fun i => x / 2 ^ (32 + wa * i) % 2 ^ wa
  let b (j : Nat) : Block :=
    blockOf g.bfmt (Memory.nat t.eng.scales (4 * (128 * (g.kbase + j) + (g.c0 + c))) 4) fun i =>
      (Memory.byte t.eng.cells (128 * (32 * (g.kbase + j) + i) + (g.c0 + c))).toNat % 2 ^ wb
  (List.range g.kb).foldl (fun e j => e.step (a j) (b j)) ⟨t.accEl (g.row0 + r) (g.col0 + c), false, false⟩

/-- R62, R165, R169 to R172, R176, R178 to R180, R241: at the end of its last busy cycle an operation has its effect and leaves MX. -/
def OperationsComplete : Prop :=
  ∀ (s : State) (o : MxOp) (d : Nat), s.tile.mxHead = some o → o.doneAt = some d → d < s.tile.iss.cycle →
    let t := s.tile
    let g := o.geom
    let rows := o.rows.getD []
    let product := productStep t g rows
    let inside (r c : Nat) : Prop := r < rows.length ∧ g.row0 + r < 128 ∧ c < g.n
    ∃ u, exec .mxOperationComplete s = .next u ∧ SameModule s u ∧ t.SameUnits { u.tile with eng := t.eng } ∧ u.tile.ex = t.ex ∧
      u.tile.ops = { t.ops with mx := t.ops.mx.filter fun q => decide (q.stamp ≠ o.stamp) } ∧
      (o.kind = .mloadb → g.c0 + g.n ≤ 128 → LoadsB t u.tile g rows) ∧
      (o.kind = .mzero → g.row0 + g.m ≤ 128 → g.col0 + g.n ≤ 128 → WritesAcc t u.tile g g.m fun _ _ => 0) ∧
      (o.kind = .mma ∨ (∃ joined source k, o.kind = .mmat joined source k) → g.col0 + g.n ≤ 128 →
        (WritesAcc t u.tile g rows.length fun r c => (product r c).acc % 2 ^ 32) ∧
        (u.tile.regs.nanSeen = true ↔ t.regs.nanSeen = true ∨ ∃ r c, inside r c ∧ (product r c).nan = true) ∧
        (u.tile.regs.ovfSeen = true ↔ t.regs.ovfSeen = true ∨ ∃ r c, inside r c ∧ (product r c).ovf = true)) ∧
      (∀ f, o.kind = .ms2acc f → g.row0 + g.m ≤ 128 → g.col0 + g.n ≤ 128 →
        let es := if f = .f32 then 4 else 2
        let format : FFmt := match f with | .f32 => fp32 | .bf16 => bf16 | .fp16 => fp16
        WritesAcc t u.tile g g.m fun r c =>
          (fp32.convert .rne (format.decode (ofBytes (((rows.getD r []).drop (c * es)).take es)))).bits % 2 ^ 32) ∧
      (∀ clr f (rm : Fin 5), o.kind = .macc2s clr f rm.val → g.row0 + g.m ≤ 128 → g.col0 + g.n ≤ 128 →
        g.n * accSize f ≤ g.rs (g.n * accSize f) → (∀ e ∈ t.pad.early, e.1 ≠ o.stamp) → StoresAcc t u.tile o clr f rm)

/-- R170 to R172, R176, R180: the rows that an operation works on. They are those of its shingle, RS apart, as many and as long as the
operation says; a source in a truss has none before its MJOIN has left MX, and another member those that were delivered to it. -/
def SourceRows : Prop :=
  ∀ (t : Tile) (o : MxOp) (sh : Fin 64) (x : Shingle),
    let g := o.geom
    let reads (n len : Nat) : Prop := ∃ rows, t.rowsFor o = some rows ∧ rows.length = n ∧
      ∀ r, r < n → (rows.getD r []).length = len ∧ ∀ k, k < len → (rows.getD r []).getD k 0 =
        Memory.byte t.pad.bytes (x.base + o.off + r * (if g.stride ≠ 0 then g.stride else len) + k)
    let arows : Prop := reads g.m (g.kb * blkBytes g.afmt)
    (o.sh = some sh → t.sh sh = some x →
      (o.kind = .mloadb → reads g.n (g.kb * blkBytes g.bfmt)) ∧
      (o.kind = .mma ∨ (∃ source k, o.kind = .mmat false source k ∧ source = true) → arows) ∧
      (∀ k, o.kind = .mmat true true k → (∀ q ∈ t.ops.mx, ∀ j, q.kind ≠ .mjoin j) → arows) ∧
      (∀ k, o.kind = .mmat true true k → (∃ q ∈ t.ops.mx, ∃ j, q.kind = .mjoin j) → t.rowsFor o = none) ∧
      ∀ f, o.kind = .ms2acc f → reads g.m (g.n * if f = .f32 then 4 else 2)) ∧
    (∀ k, o.kind = .mmat true false k → t.rowsFor o = o.rows) ∧
    ∀ draw, (∀ e ∈ t.pad.shadow, e.1 ≤ o.stamp) → t.seen draw o.stamp = t

/-- The busy cycles of an operation (R173, R241); m is the number of rows that it multiplies, or of its rectangle. -/
def busyCycles (o : MxOp) (m : Nat) : Nat :=
  let g := o.geom
  let size (f : AccFmt) : Nat := if f = .f32 then 4 else 2
  match o.kind with
  | .mloadb => 4 + g.n * g.kb
  | .mzero => 2 + m
  | .mma | .mmat _ _ _ => 12 + m * pBits g.afmt * ((g.kb + 15) / 16)
  | .macc2s _ f _ | .ms2acc f => 4 + m * ((g.n * size f + 127) / 128)
  | .mswap _ _ | .mjoin _ => 0

/-- R385, R389: what a scrub of a word does. A clean one changes nothing; a corrected one is counted; an uncorrectable one is marked, of a
CIM row for the checksum and the row reads to find; a word that is marked already stays so, whatever the scrub is said to find. What a scrub
of a word that it can correct does, and a word of the metadata of a slot, are the model's choices (logs 35, 82). -/
def Scrubs : Prop :=
  ∀ (s : State) (a : Nat),
    let t := s.tile
    let site := t.pl.phys
    let here : Prop := t.present = true ∧ t.id.gid ≠ 0 ∧ isSite site = true
    let marks (u : State) (pad inbox acc : List Nat) : Prop :=
      u.tile.pad = { t.pad with bad := pad } ∧ u.tile.inb = { t.inb with bad := inbox } ∧ u.tile.eng = { t.eng with accBad := acc }
    let same (u : State) : Prop := marks u t.pad.bad t.inb.bad t.eng.accBad
    let add (c : Prop) [Decidable c] (l : List Nat) (w : Nat) : List Nat := if c then l ++ [w] else l
    let attached (scrub : ScrubResult → Out) (at_ : Nat) (bad : Bool) (marked : State → Prop) : Prop :=
      let e := s.siteErr at_
      let unc (u : State) : Prop := (u.siteErr at_).attUnc = min 255 (e.attUnc + 1) ∧ u.tile = t
      (bad = false → scrub .clean = .next s ∧
        (∃ u, scrub .corrected = .next u ∧ (u.siteErr at_).attCorr = min 0xFFFF (e.attCorr + 1) ∧ u.mem = s.mem ∧ u.sync = s.sync) ∧
        ∃ u, scrub .uncorrectable = .next u ∧ unc u ∧ marked u) ∧
      (bad = true → ∀ r, ∃ u, scrub r = .next u ∧ unc u ∧ u.mem = s.mem ∧ u.sync = s.sync)
    (∀ k size l, (k, size, l) ∈ [(ArrayKind.scratchpad, 524288, t.pad.bad), (.inbox, 18432, t.inb.bad), (.accumulator, 65536, t.eng.accBad)] →
      here → a < size → let scrub (r : ScrubResult) : Out := exec (.scrub ⟨site, k⟩ a r) s
      (a / 8 ∉ l → scrub .clean = .next s ∧
        (∃ u, scrub .corrected = .next u ∧ same u ∧ (u.siteErr site).corr = min (2 ^ 32 - 1) ((s.siteErr site).corr + 1)) ∧
        ∃ u, scrub .uncorrectable = .next u ∧ (u.siteErr site).unc = min 255 ((s.siteErr site).unc + 1) ∧
          marks u (add (k = .scratchpad) t.pad.bad (a / 8)) (add (k = .inbox) t.inb.bad (a / 8)) (add (k = .accumulator) t.eng.accBad (a / 8))) ∧
      (a / 8 ∈ l → ∀ r, ∃ u, scrub r = .next u ∧ same u ∧ (u.siteErr site).unc = min 255 ((s.siteErr site).unc + 1))) ∧
    (here → a < 2048 → let scrub (r : ScrubResult) : Out := exec (.scrub ⟨site, .cim⟩ a r) s
      scrub .clean = .next s ∧ scrub .corrected = .next s ∧
      scrub .uncorrectable = .next { s with tile := { t with eng := { t.eng with
        upsets := if a ∈ t.eng.upsets then t.eng.upsets else t.eng.upsets ++ [a] } } }) ∧
    (∀ c, s.sync.ctrs.find? (fun k => decide (ctrKey k.asid k.id = a)) = some c →
      attached (fun r => exec (.scrub ⟨site, .sync⟩ a r) s) (Config.engineSite (s.ctrEngine c.asid c.id)) (s.sync.bad.contains a)
        fun u => u.sync = { s.sync with bad := s.sync.bad ++ [a] } ∧ u.mem = s.mem) ∧
    (a < 48 * 2 ^ 36 →
      attached (fun r => exec (.scrub ⟨site, .hbm⟩ a r) s) (stackOf a) (s.mem.bad.contains (a / 8))
        fun u => u.mem = { s.mem with bad := s.mem.bad ++ [a / 8] } ∧ u.sync = s.sync)

/-- R167, R174 to R177, R181, R241, R322, R332, R385, R389: an operation starts; joins, leaves and rows reach the members of a truss, and a
row packet that was misdelivered is sent again; firmware completes joins; a checksum finds a flipped row. That an
operation reads its source at its start, where a store since its issue may be seen or not, is the model's choice (log 27); so are how
firmware brings absent members back (log 8), and that a member that joins again takes no rows that were sent before, and waits until every
member has joined again (log 81). -/
def EngineSteps : Prop :=
  ∀ s : State,
    let t := s.tile
    (∀ o rows, s.sourceGone = false → t.mxHead = some o → o.doneAt = none → t.counts = true →
      (t.seen s.drawn o.stamp).rowsFor o = some rows →
      let m := if o.kind.multiplies then rows.length else o.geom.m
      (o.kind.readsShingle = true → t.badSource o = none) → t.badParity o = none → (o.kind.readsAcc = true → t.badAcc o.geom m = none) →
      ∃ u, exec .mxOperationStart s = .next u ∧ u.tile = { t with ops := { t.ops with mx := t.ops.mx.map fun q =>
        if q.stamp = o.stamp then { q with rows := some rows, doneAt := some (t.iss.cycle + busyCycles o m - 1) } else q } }) ∧
    (∀ n x d p, s.fab.notices[n]? = some x → x.leave = false → s.travelling (.pkt x.serial) = false → s.findTile x.dst = some d →
      (x.phys = some p ∧ s.seen x.dst p = some p) ∨ d.pl.finished = true →
      exec (.joinNotice n) s = .next { s with fab := { s.fab with notices := dropNth s.fab.notices n } }) ∧
    (∀ n x, s.fab.notices[n]? = some x → x.leave = true → s.travelling (.pkt x.serial) = false → x.dst = t.id →
      let coming (k : Nat) : Bool :=
        s.fab.rowPackets.any fun r => decide (r.dst = t.id ∧ r.plan = t.eng.plan.toNat ∧ t.eng.joinSerial ≤ r.serial ∧ r.index = k ∧
          r.serial < x.serial)
      let ends (o : MxOp) : Bool := t.rowSource x.plan x.source && decide (t.eng.joinSerial ≤ x.serial) && o.rows.isNone &&
        (match o.kind with | .mmat true false k => !coming k | _ => false)
      ∃ u, exec (.leaveNotice n) s = .next u ∧ u.fab = { s.fab with notices := dropNth s.fab.notices n } ∧
        u.tile = { t with ops := { t.ops with mx := t.ops.mx.filter fun o => !ends o && !(s.sourceGone && s.unpaired o) } }) ∧
    (∀ plan g p, s.gang t.id.part t.id.gid = some g → g.image.prog.plans[plan]? = some p →
      let ids := p.tiles t.id.part t.id.gid
      let fits : Prop := ids.length ≤ (s.pool t.id.part).length
      let joining : Prop := ∀ i ∈ ids, ∃ x op k, s.findTile i = some x ∧ x.eng.joined = true ∧ x.eng.plan.toNat = plan ∧ op ∈ x.ops.mx ∧
        op.kind = .mjoin k
      let here : Prop := ∀ i ∈ ids, ∃ x, s.findTile i = some x ∧ x.pl.res = .resident
      (¬fits → (∃ i ∈ ids, s.joinedAt i plan = true) → ∃ u, exec (.mjoinComplete plan) s = .next u ∧ u.gang t.id.part t.id.gid = none) ∧
      (fits → ¬joining → exec (.mjoinComplete plan) s = .next s) ∧
      (fits → joining → here → g.mayChange = true →
        ∃ u, exec (.mjoinComplete plan) s = .next u ∧ u.tile = t ∧
          u.gang t.id.part t.id.gid = some { g with change := some ⟨[], ids.map fun i => (i.vt, true), [], []⟩ }) ∧
      (fits → joining → ¬here → exec (.mjoinComplete plan) s = .next (s.updAll fun x =>
        if x.id ∈ ids ∧ x.pl.res = .absent ∧ x.pl.finished = false then { x with pl := { x.pl with faulted := true } } else x))) ∧
    (∀ n r, s.fab.rowPackets[n]? = some r → r.dst = t.id → (∀ f ∈ s.fab.flits, ∀ k, f.ref ≠ .part r.serial k) →
      s.leaveBefore r = false →
      let mine (o : MxOp) : Bool := decide (o.kind = .mmat true false r.index) && o.rows.isNone
      let gone := { s with fab := { s.fab with rowPackets := dropNth s.fab.rowPackets n } }
      let own : Prop := t.eng.joined = true ∧ t.eng.plan.toNat = r.plan ∧ t.eng.joinSerial ≤ r.serial ∧ ∀ q ∈ t.ops.mx, ∀ j, q.kind ≠ .mjoin j
      (¬own → exec (.mmatRowDelivery n) s = .next gone) ∧
      (own → r.phys = t.based → t.ops.mx.any mine = true →
        exec (.mmatRowDelivery n) s = .next { gone with tile := { t with ops := { t.ops with
          mx := t.ops.mx.map fun o => if mine o then { o with rows := some r.rows } else o } } }) ∧
      (own → r.phys = t.based → t.ops.mx.any mine = false → exec (.mmatRowDelivery n) s = .next s) ∧
      (own → r.phys ≠ t.based → ∃ u, exec (.mmatRowDelivery n) s = .next u ∧ u.tile = t ∧
        u.fab.rowPackets = mapNth (fun _ => { r with phys := t.based }) s.fab.rowPackets n)) ∧
    (∀ mac : Fin 16,
      let hit := t.eng.upsets.filter fun k => decide (k / 128 = mac.val)
      (hit = [] → exec (.backgroundChecksum mac) s = .next s) ∧
      (hit ≠ [] → ∃ u, exec (.backgroundChecksum mac) s = .next u ∧ u.tile.regs.mxe = true ∧ u.tile.pad = t.pad ∧
        u.tile.eng = { t.eng with badRows := t.eng.badRows ++ hit, upsets := t.eng.upsets.filter fun k => !hit.contains k }))

/-- R62, R165, R167, R169 to R181, R241, R322, R332, R385, R389, with logs 8, 27, 35, 81, 82: the engine starts and completes its operations;
joins, leaves and rows reach the members of a truss; a checksum finds a flipped row; a scrub meets a word of any array. -/
def Obligations.EngineEvents : Prop := OperationsComplete ∧ SourceRows ∧ EngineSteps ∧ Scrubs

/-! ## Hosts and firmware -/

/-- A port serves a request (R378, R382): its link is up, the part is READY, its master is not frozen. -/
def Serves (s : State) (p : Nat) : Prop := (s.port p).up = true ∧ s.host.ctrl.boot = .ready ∧ (s.port p).frozen = false

/-- A message of a host port is on its way to a virtual tile (R208, R258, R261). -/
def HostMessage (u : State) (part gid dst : Nat) (c : Fin 64) (data : List Byte) : Prop :=
  ∃ m ∈ u.fab.flight, m.part = part ∧ m.gid = gid ∧ m.dst = dst ∧ m.chan = c ∧ m.kind = .host ∧ m.payload = data

/-- The checks of R257 on a launch record, one for each reason from 1 on; i is the prepared image that the record names, if any. -/
def LaunchChecks (p : Part) (r : List Byte) (i : Option Image) : List Prop :=
  let f := fieldAt r
  let image (c : Image → Prop) : Prop := ∀ x, i = some x → c x
  [f 0 1 = 1 ∧ f 1 1 = 1 ∧ f 2 2 < 16 ∧ f 0x0C 4 < 2 ^ 24 ∧ f 0x38 8 = 0,
   i ≠ none,
   image fun x => (∀ k, k < 4 → x.profiles.getD k 0 ≤ if p.gov.profmask.getLsbD k then 0 else 1) ∧ (x.detReq = true → f 2 2 / 8 % 2 = 1),
   image fun x => 1 ≤ f 8 2 ∧ f 8 2 ≤ 4096 ∧ 1 ≤ f 0x0A 2 ∧ f 0x0A 2 ≤ 4096 ∧ (x.gridCols = 0 ∨ x.gridCols = f 8 2) ∧
     (x.gridRows = 0 ∨ x.gridRows = f 0x0A 2) ∧ (∀ q ∈ x.prog.plans, q.row0 + q.rows ≤ f 0x0A 2 ∧ q.col0 + q.cols ≤ f 8 2) ∧
     ∀ d ∈ x.prog.deals, d.row0 + d.rows ≤ f 0x0A 2 ∧ d.col0 + d.cols ≤ f 8 2,
   f 0x0C 4 / 4096 < f 0x0A 2 ∧ f 0x0C 4 % 4096 < f 8 2,
   image fun x => f 0x10 4 = 0 ∨ x.barrier = 0 ∨ f 0x10 4 = x.barrier.toNat,
   f 2 2 % 8 ≤ p.gov.hiclass,
   p.queue.length < p.gov.qdepth]

/-- Sixteen bytes are a completion record (R276). -/
def IsRecord (b : List Byte) (tag gid status dstat late : Nat) : Prop :=
  b.length = 16 ∧ fieldAt b 0 2 = tag % 2 ^ 16 ∧ fieldAt b 2 2 = gid % 2 ^ 16 ∧ fieldAt b 4 4 = status % 2 ^ 32 ∧ fieldAt b 8 4 = dstat % 2 ^ 32 ∧
  fieldAt b 12 4 = min late (2 ^ 32 - 1)

/-- R256 to R258, R276, R332, R374, R375, R394: a launch record is accepted, refused for the first check that fails, or discarded; the launch
at the head of the queue starts. That its message waits for the commit that makes the root resident, and leaves at once where no tile is
free, is the model's reading (log 75). -/
def LaunchRecords : Prop :=
  ∀ (s : State) (func port : Nat),
    let p := s.part func
    (∀ d : BitVec 512, Serves s port → p.gov.enable = true →
      let r := toBytes d.toNat 64
      let cs := LaunchChecks p r (p.images.find? fun i => decide (i.handle = fieldAt r 4 2))
      ((∀ c ∈ cs, c) → exec (.launch func port (some d)) s =
        .next (s.updPart func fun p => { p with queue := p.queue ++ [⟨port, r, p.seed⟩] })) ∧
      (∀ why, 1 ≤ why → why ≤ 8 → (∀ k, k + 1 < why → cs.getD k False) → ¬cs.getD (why - 1) True →
        ∃ u, exec (.launch func port (some d)) s = .next u ∧ (u.part func).queue = p.queue ∧ (u.part func).seed = p.seed ∧ u.gangs = s.gangs ∧
          (p.room = true → (u.part func).comphead = p.comphead + 1 ∧ (u.part func).compdrop = p.compdrop ∧
            IsRecord (Memory.bytes (u.part func).ring (16 * (p.comphead.toNat % 256)) 16) (fieldAt r 6 2) 0 0 (why * 256 + 1) 0) ∧
          (p.room = false → (u.part func).comphead = p.comphead ∧ (u.part func).compdrop = p.compdrop + 1 ∧
            (u.part func).ring = p.ring))) ∧
    (∀ (d : Option (BitVec 512)) (entry : Nat), Serves s port → entry < 16 → p.gov.enable = false → ∀ i ∈ [.launch func port d, .mbdata func port entry d],
      ∃ u, exec i s = .next u ∧ (u.part func).mberr = p.mberr + 1 ∧ (u.part func).queue = p.queue ∧ (u.part func).comphead = p.comphead ∧
        (u.port port).aer = (s.port port).aer + 1 ∧ u.fab = s.fab) ∧
    (Serves s port → p.gov.enable = true →
      exec (.launch func port none) s = .next (s.updPart func fun p => { p with mberr := p.mberr + 1 })) ∧
    (∀ l rest i, p.queue = l :: rest → (s.liveGangs func).length < p.gov.livelim →
      p.images.find? (fun i => decide (i.handle = fieldAt l.record 4 2)) = some i →
      let gid := nextGid ((s.liveGangs func).map fun g => g.gid) 65535 p.gidCursor
      let g := s.newGang func gid l i
      let root : TileId := ⟨func, gid, g.root⟩
      s.gang func gid = none → (∀ x ∈ s.tiles, x.id ≠ root) →
      (∀ x, s.placeFor g g.root = some x → inGrid g.rows g.cols g.root = true → ∃ u, exec (.launchStart func) s = .next u ∧
        u.gangs = s.gangs ++ [g] ∧ (u.part func).queue = rest ∧ u.fab = s.fab ∧
        ∃ r, u.findTile root = some r ∧ r.pl.res = .swappingIn ∧ r.pl.phys = x) ∧
      (s.placeFor g g.root = none → ∃ u, exec (.launchStart func) s = .next u ∧ u.gangs = s.gangs ++ [{ g with launchSent := true }] ∧
        (u.part func).queue = rest ∧ HostMessage u func gid g.root 0 (launchPayload l.record gid)))

/-- R259, R261, R372 to R375, R378, R382: SEED, COMPACK and the message mailboxes of a function; a request that the port does not serve
completes with an error response and alters nothing else. -/
def FunctionWrites : Prop :=
  ∀ (s : State) (func port : Nat),
    let p := s.part func
    (∀ v, Serves s port → exec (.seed ⟨func, port⟩ v) s = .next (s.updPart func fun p => { p with seed := v })) ∧
    (∀ v, Serves s port → exec (.compack ⟨func, port⟩ v) s = .next
      (if (v - p.compack).toNat ≤ (p.comphead - p.compack).toNat then s.updPart func fun p => { p with compack := v } else s)) ∧
    (∀ entry (d : BitVec 512), Serves s port → entry < 16 → p.gov.enable = true →
      let x := (p.mbtgt.get (Fin.ofNat 16 entry)).toNat
      let gid := bitsOf x 47 32
      let dst := bitsOf x 23 0
      let c : Fin 64 := Fin.ofNat 64 (bitsOf x 29 24)
      (entry / 8 ≠ port % 2 → ∃ u, exec (.mbdata func port entry (some d)) s = .next u ∧ (u.part func).mberr = p.mberr + 1 ∧ u.fab = s.fab) ∧
      (entry / 8 = port % 2 → s.mailTarget func gid dst = false → ∃ u, exec (.mbdata func port entry (some d)) s = .next u ∧
        (u.part func).mberr = p.mberr + 1 ∧ (u.port port).aer = (s.port port).aer + 1 ∧ u.fab = s.fab) ∧
      (entry / 8 = port % 2 → s.mailTarget func gid dst = true → (∀ g ∈ s.gangs, g.part = func → g.gid = gid → g.launchSent = true) → p.held = [] →
        s.unaccepted (s.portMsg port func gid dst c (toBytes d.toNat 64)) = [] →
        ∃ u, exec (.mbdata func port entry (some d)) s = .next u ∧ HostMessage u func gid dst c (toBytes d.toNat 64))) ∧
    (∀ (v : Word) (d : Option (BitVec 512)) (entry : Nat), (s.port port).up = true →
      s.host.ctrl.boot ≠ .ready ∨ (s.port port).frozen = true →
      ∀ i ∈ [.launch func port d, .mbdata func port entry d, .seed ⟨func, port⟩ v, .compack ⟨func, port⟩ v],
        exec i s = .next (s.updPort port fun q => { q with errors := q.errors + 1 }))

/-- Two status words combined (R272): FLAGS by OR, CODE the larger. -/
def StatusSum (a b : W32) : W32 :=
  BitVec.ofNat 32 (65536 * Nat.lor (a.toNat / 65536) (b.toNat / 65536) + max (a.toNat % 65536) (b.toNat % 65536))

/-- A gang closes (R273): it has closed before, or its root is finished, every touched virtual tile is, and no message of it is on its way
or held. -/
def Closes (s : State) (g : Gang) : Prop :=
  g.closed = true ∨ ((∃ r, s.findTile ⟨g.part, g.gid, g.root⟩ = some r ∧ r.pl.finished = true) ∧
    (∀ x ∈ s.tilesOf g.part g.gid, (x.pl.touched = true → x.pl.finished = true) ∧ x.inb.window = []) ∧
    ∀ m ∈ s.fab.flight, ¬(m.part = g.part ∧ m.gid = g.gid))

/-- R271 to R276, R322, R375: reports up the spanning tree, of finished virtual tiles and, at the close, of untouched ones; close,
retirement, completion records. That the sync engine of the sender's field translates a report is the model's choice (log 72). -/
def GangEnds : Prop :=
  ∀ (s : State) (func : Nat),
    let p := s.part func
    let t := s.tile
    (∀ r rest, p.compq = r :: rest →
      (p.room = false → exec (.completionRecordPost func) s = .next s) ∧
      (p.room = true → ∃ u, exec (.completionRecordPost func) s = .next u ∧ (u.part func).comphead = p.comphead + 1 ∧
        (u.part func).compq = rest ∧ Memory.bytes (u.part func).ring (16 * (p.comphead.toNat % 256)) r.bytes.length = r.bytes ∧
        Gains1 s u r.asid r.donectr)) ∧
    (∀ g, s.gang t.id.part t.id.gid = some g → t.pl.finished = true ∨ (t.pl.touched = false ∧ Closes s g) → t.pl.kidsLeft = 0 →
      t.count .ms = 0 → t.pl.reported = false →
      let x := StatusSum (if t.pl.finished then t.pl.status else 0) t.pl.accStatus
      let parent : TileId := { t.id with vt := Config.treeParent g.rows g.cols g.root t.id.vt }
      let seen := s.seen parent (engineTr (fieldOf t.pl.phys))
      (t.id.vt = g.root → ∃ u, exec .treeReport s = .next u ∧ u.tile.pl.reported = true ∧
        u.gang t.id.part t.id.gid = some { g with status := some x }) ∧
      (∀ q, t.id.vt ≠ g.root → t.present = true → seen = some q → ∃ u, exec .treeReport s = .next u ∧
        u.tile.pl.reported = true ∧ u.gangs = s.gangs ∧ u.fab.reports = s.fab.reports ++ [⟨s.fab.serial, parent, x⟩]) ∧
      (∀ q, t.id.vt ≠ g.root → parent ≠ t.id → t.present = false ∨ seen = none → s.findTile parent = some q →
        ∃ u, exec .treeReport s = .next u ∧ u.tile.pl.reported = true ∧ u.gangs = s.gangs ∧
          { q with pl := { q.pl with kidsLeft := q.pl.kidsLeft - 1, accStatus := StatusSum q.pl.accStatus x } } ∈ u.others)) ∧
    (∀ gid g, s.gang func gid = some g →
      (Closes s g → exec (.gangClose func gid) s = .next (s.updGang func gid fun g => { g with closed := true })) ∧
      (¬Closes s g → exec (.gangClose func gid) s = .next s) ∧
      (∀ x, Closes s g → g.status = some x → s.countsZero g = true → (∀ h ∈ s.sync.holds, h.tile.part ≠ func ∨ h.tile.gid ≠ gid) →
        (∀ f ∈ s.sync.faults, f.hold.tile.part ≠ func ∨ f.hold.tile.gid ≠ gid) → (∀ r ∈ s.sync.rounds, r.applied = false) →
        let late := s.lateOf g
        ∃ u b, exec (.retirement func gid) s = .next u ∧ u.gang func gid = none ∧
          (u.part func).compq = p.compq ++ [⟨b, g.image.asid, g.donectr⟩] ∧
          IsRecord b g.tag.toNat gid x.toNat ((if late = 0 then 0 else 4) + (if g.redLost then 2 else 0)) late))

/-- R256 to R261, R271 to R276, R332, R372 to R375, R378, R382, R394, with logs 72, 75: launches, seeds and mailbox writes at a function, the
start of a launch, reports up the spanning tree, close, retirement, completion records. -/
def Obligations.LaunchEvents : Prop := LaunchRecords ∧ FunctionWrites ∧ GangEnds

/-- R292, R294, R370, with log 19: a served port accepts a CXL.mem read, one at a time and after its earlier writes, and a CXL.mem write,
whose packets leave for the HBM stack; it refuses those that R370 refuses. -/
def HostMemory : Prop :=
  ∀ (s : State) (m : Nat), Serves s m →
    (∀ hdm len, let (a, va) := s.hdmAddr hdm
      (s.port m).reading = none → 1 ≤ len → hdm % 64 + len ≤ 64 → (s.port m).writes = [] → s.modePending a va len = false →
      (∀ pa, s.hostPa .hostRead hdm = some pa → ∃ u, exec (.hostCxlMemRead m hdm len) s = .next u ∧ u.mem = s.mem ∧
        u.port m = { s.port m with reading := some ⟨hdm, len, a, va, pa, s.fab.serial, none⟩ }) ∧
      (s.hostPa .hostRead hdm = none → ∃ u, exec (.hostCxlMemRead m hdm len) s = .next u ∧ (u.port m).readError = true ∧
        (u.port m).reading = none ∧ u.mem = s.mem)) ∧
    (∀ hdm bytes, let (a, va) := s.hdmAddr hdm
      bytes ≠ [] → hdm % 64 + bytes.length ≤ 64 → s.modePending a va bytes.length = false →
      (∀ pa, s.hostPa .hostWrite hdm = some pa → ∃ u, exec (.hostCxlMemWrite m hdm bytes) s = .next u ∧ u.mem = s.mem ∧
        (u.port m).writes = (s.port m).writes ++ [⟨s.host.serial, s.fab.serial, a, va, pa, bytes⟩] ∧
        u.host.serial = s.host.serial + 1) ∧
      (s.hostPa .hostWrite hdm = none → ∃ u, exec (.hostCxlMemWrite m hdm bytes) s = .next u ∧ (u.port m).writeError = true ∧
        (u.port m).writes = (s.port m).writes ∧ u.mem = s.mem))

/-- R292, R370, R387, R390: the read that a port has accepted is performed at its HBM stack as the request comes there, and answered as the
response comes back: with the bytes, or with an error where a word was uncorrectable or the stack has left the device. -/
def HostReads : Prop :=
  ∀ (s : State) (m : Nat) (r : HostRead), (s.port m).reading = some r →
    let read := exec (.hostCxlMemRead m r.hdm r.len) s
    let lost : Prop := s.badHbm r.pa r.len = true ∨ s.stackGone r.pa = true
    let performs (l : Option (List Byte)) : Prop := ∃ u, read = .next u ∧ u.mem = s.mem ∧
      u.port m = { s.port m with reading := some { r with got := some l, pkt := s.fab.serial } }
    (s.travelling (.pkt r.pkt) = true → read = .next s) ∧
    (s.travelling (.pkt r.pkt) = false →
      (r.got = none → ¬lost → performs (some (Memory.bytes s.mem.hbm r.pa r.len))) ∧
      (r.got = none → lost → performs none) ∧
      (∀ l, r.got = some (some l) → read = .next (s.updPort m fun p => { p with readData := l, readError := false, reading := none })) ∧
      (r.got = some none → ∃ u, read = .next u ∧ u.mem = s.mem ∧ (u.port m).readError = true ∧ (u.port m).reading = none ∧
        (u.port m).aer = (s.port m).aer + 1))

/-- R292, R294, R387, R390: the oldest write of a port's queue is performed once its packet has come, whatever has become of its master: the
enabled bytes are written but for those in uncorrectable words that the write covers in part; at a stack that has left the device nothing
is written, and the port reports it. -/
def HostWrites : Prop :=
  ∀ (s : State) (m : Nat) (w : HostWrite) (rest : List HostWrite), (s.port m).writes = w :: rest →
    (s.travelling (.pkt w.pkt) = true → exec (.hostWritePerform m) s = .next s) ∧
    (s.travelling (.pkt w.pkt) = false → s.stackGone w.pa = true → ∃ u, exec (.hostWritePerform m) s = .next u ∧ u.mem = s.mem ∧
      (u.port m).writes = rest ∧ (u.port m).writeError = true) ∧
    (s.travelling (.pkt w.pkt) = false → s.stackGone w.pa = false →
    let enabled (a : Nat) : Prop := w.pa ≤ a ∧ (w.data.getD (a - w.pa) none).isSome = true
    let whole (k : Nat) : Prop := ∀ j, j < 8 → enabled (8 * k + j)
    let kept (a : Nat) : Prop := a / 8 ∈ s.mem.bad ∧ ¬whole (a / 8)
    ∃ u, exec (.hostWritePerform m) s = .next u ∧ (u.port m).writes = rest ∧
      (∀ a, (enabled a ∧ ¬kept a → some (Memory.byte u.mem.hbm a) = w.data.getD (a - w.pa) none) ∧
        (¬enabled a ∨ kept a → Memory.byte u.mem.hbm a = Memory.byte s.mem.hbm a)) ∧
      (∀ k, k ∈ u.mem.bad ↔ k ∈ s.mem.bad ∧ ¬whole k) ∧
      ((u.port m).writeError = true ↔ (s.port m).writeError = true ∨ ∃ a, enabled a ∧ kept a))

/-- A byte of a staging record that no field uses (R380). -/
def Reserved (k : Nat) : Prop := k = 0x00F ∨ 0x032 ≤ k ∧ k < 0x038 ∨ 0x040 ≤ k ∧ k < 0x3F0

/-- The six-bit entry h of HOMETAB in a staging record (R380): low bits first. -/
def homeEntry (m : Memory) (h : Nat) : Nat := Memory.nat m (0x400 + 6 * h / 8) 2 / 2 ^ (6 * h % 8) % 64

/-- Every field of a staging record is in its range, and every reserved byte zero (R347, R380); a home is one of the 56 fields (R344). -/
def InRange (m : Memory) : Prop :=
  let f := Memory.nat m
  f 0 1 ≤ 1 ∧ f 1 1 ≤ 7 ∧ 1 ≤ f 2 2 ∧ f 2 2 ≤ 4096 ∧ 1 ≤ f 4 1 ∧ f 4 1 ≤ 64 ∧ f 5 1 ≤ 3 ∧ f 8 1 ≤ 15 ∧ f 9 1 % 4 = 0 ∧
  f 0x00A 2 ≤ f 0x00C 2 ∧ f 0x00C 2 ≤ 256 ∧ f 0x00E 1 ≤ 8 ∧ f 0x030 2 ≤ 4095 ∧ f 0x038 8 % 65536 = 0 ∧
  (∀ k, Reserved k → Memory.byte m k = 0) ∧ ∀ h, h < 4096 → homeEntry m h ≤ 55

/-- A partition record holds the fields of a staging record (R380). -/
def ReadFrom (m : Memory) (g : PartRec) : Prop :=
  let f := Memory.nat m
  (g.enable = true ↔ f 0 1 = 1) ∧ g.hiclass = f 1 1 ∧ g.livelim = f 2 2 ∧ g.qdepth = f 4 1 ∧ g.summon = f 5 1 ∧ g.faultwait = f 6 2 ∧
  g.profmask.toNat = f 8 1 ∧ g.leafmask.toNat = f 9 1 ∧ g.caplo = f 0x00A 2 ∧ g.caphi = f 0x00C 2 ∧ g.boostlo = f 0x00E 1 ∧
  (∀ t : Fin 4, g.quota.get t = f (0x010 + 4 * t.val) 4) ∧ g.hbmalloc = f 0x020 8 ∧ g.ovfalloc = f 0x028 8 ∧ g.hostasid = f 0x030 2 ∧
  g.hostva = f 0x038 8 ∧ ∀ h, h < 4096 → (Memory.byte g.hometab h).toNat = homeEntry m h

/-- R346: the quotas of all partitions and their reserves of one eighth fit every table, with a record for one of them. -/
def QuotasFit (s : State) (part : Nat) (m : Memory) : Prop :=
  ∀ t : Fin 4,
    let own (p : Nat) : Nat := if p = part then Memory.nat m (0x010 + 4 * t.val) 4 else (s.part p).gov.quota.get t
    ((List.range 64).map fun p => own p + own p / 8).sum ≤ if t = 0 ∨ t = 3 then 262144 else 65536

/-- R376 to R378, R380, R381, R384: the semaphore, freezing, which answers a read of the master that waits with an error, writes of the
windows, partition records, attestation. -/
def WindowWrites : Prop :=
  ∀ (s : State) (m : Nat), Serves s m →
    let me : Fin 2 := Fin.ofNat 2 m
    let peer := 1 - m % 2
    (exec (.semaRead m) s = .next (s.updCtrl fun c => match c.owner with
      | none => { c with owner := some me, semaRead := 0 }
      | some o => { c with semaRead := if o = me then 0 else 1 + 2 * o.val })) ∧
    (exec (.semaWrite m) s = .next (s.updCtrl fun c => if c.owner = some me then { c with owner := none } else c)) ∧
    (∀ v : Word,
      (s.host.ctrl.owner = some me → exec (.unfreeze m v) s = .next
        (if v.getLsbD peer = true then s.updPort peer fun p => { p with frozen := false } else s)) ∧
      (s.host.ctrl.owner ≠ some me → ∃ u, exec (.unfreeze m v) s = .next u ∧ (u.port m).frozen = true ∧
        (u.port peer).frozen = (s.port peer).frozen ∧ u.host.ctrl = s.host.ctrl ∧ (u.port m).reading = none ∧
        ((s.port m).reading ≠ none → (u.port m).readError = true ∧ (u.port m).readData = [] ∧
          (u.port m).errors = (s.port m).errors + 2) ∧
        ((s.port m).reading = none → (u.port m).errors = (s.port m).errors + 1))) ∧
    (∀ (v : Word) (func : Nat),
      exec (.controlWindowWrite m (.bar0 func 0x40) v) s = .next (s.updPart func fun p => { p with seed := v }) ∧
      exec (.controlWindowWrite m (.bar0 func 0x110) v) s = .next (s.updPart func fun p => { p with pshed := v.getLsbD 0 }) ∧
      (s.host.ctrl.owner = some me → s.host.ctrl.cmdRun = false →
        exec (.controlWindowWrite m (.control 0x10040) v) s =
          .next (s.updCtrl fun c => { c with cmdRun := true, cmdResult := 0 })) ∧
      (s.host.ctrl.owner ≠ some me → ∃ u, exec (.controlWindowWrite m (.control 0x10040) v) s = .next u ∧
        (u.port m).frozen = true ∧ u.host.ctrl = s.host.ctrl)) ∧
    (∀ part, s.host.ctrl.owner = some me →
      let p := s.part part
      let m0 := p.staging
      let policy : Prop := Config.countersignPolicy = true ∧ Memory.nat m0 0 1 = 1 ∧ s.host.ctrl.map = 1
      ∃ u, exec (.papply m part 1) s = .next u ∧
        let q := u.part part
        (¬InRange m0 → q.pstatus = 1) ∧ (InRange m0 → ¬QuotasFit s part m0 → q.pstatus = 2) ∧
        (InRange m0 → QuotasFit s part m0 → (policy → q.pstatus = 3) ∧ (¬policy → q.pstatus = 0)) ∧
        (q.pstatus = 0 → ReadFrom m0 q.gov ∧ (p.recorded = true → q.pcap = min (max p.pcap q.gov.caplo) q.gov.caphi) ∧
          q.pboost = min (max p.pboost q.gov.boostlo) 8 ∧ q.capCnt = p.capCnt ∧ q.boostCnt = p.boostCnt) ∧
        (q.pstatus ≠ 0 → q.gov = p.gov ∧ q.pcap = p.pcap ∧ q.pboost = p.pboost)) ∧
    (∀ nonce, ∃ u, exec (.spdmRequest ⟨m, nonce⟩) s = .next u ∧
      let k := if (s.ctl 0).failed then 1 else 0
      let all := s.blocks ++ [Config.identitySignature k s.blocks nonce]
      u.host.ctrl = { s.host.ctrl with doe := all.flatten ++ Config.responseSignature k all })

/-- R292, R294, R344, R346, R347, R355, R370, R376 to R378, R380, R381, R383, R384, R387, R390, with logs 19, 67, 88: CXL.mem reads and
writes, the semaphore, freezing, writes of the windows, partition records and why one is not applied, attestation. -/
def Obligations.HostEvents : Prop := HostMemory ∧ HostReads ∧ HostWrites ∧ WindowWrites

/-- A command stands in CMDBUF, and no byte that it does not use is set (R381). -/
def Commands (s : State) (n : Nat) (used : List (Nat × Nat)) : Prop :=
  s.host.ctrl.cmdRun = true ∧ s.cmdField 0 1 = n ∧
  ∀ k, 1 ≤ k → k < 64 → (∀ u ∈ used, k < u.1 ∨ u.1 + u.2 ≤ k) → s.cmdField k 1 = 0

/-- A command has ended with a STATUS and a RESULT (R381). -/
def Ended (u : State) (status result : Nat) : Prop :=
  u.host.ctrl.cmdRun = false ∧ u.host.ctrl.cmdStatus = status ∧ u.host.ctrl.cmdResult = result

/-- R88, R256, R275, R276, R336, R341, R381 to R383, with log 63: the commands of the control window. -/
def Obligations.CommandEvents : Prop :=
  ∀ s : State,
    let part := s.cmdField 2 2
    (∀ o h, Commands s 1 [(2, 2), (4, 2), (8, 8), (16, 4)] → part < 64 → s.cmdField 8 8 % 64 = 0 →
      (∃ e, s.asid (s.cmdField 4 2) = some e ∧ e.part = part) → s.hdmRead part (s.cmdField 8 8) (s.cmdField 16 4) = some o →
      s.freeHandle part = some h →
      (∀ i, loadObject (s.part part).gov (s.cmdField 4 2) h o = .ok i → ∃ u, exec .prepareImage s = .next u ∧ Ended u 0 h ∧
        (u.part part).images = (s.part part).images ++ [i]) ∧
      (∀ why, loadObject (s.part part).gov (s.cmdField 4 2) h o = .error why → ∃ u, exec .prepareImage s = .next u ∧ Ended u 4 why ∧
        u.parts = s.parts)) ∧
    (∀ h, h = s.cmdField 4 2 → Commands s 2 [(2, 2), (4, 2)] → part < 64 → (∃ i ∈ (s.part part).images, i.handle = h) →
      (s.imageUsed part h = true → ∃ u, exec .dropImage s = .next u ∧ Ended u 5 0 ∧ u.parts = s.parts) ∧
      (s.imageUsed part h = false → ∃ u, exec .dropImage s = .next u ∧ Ended u 0 0 ∧
        (u.part part).images = (s.part part).images.filter fun i => decide (i.handle ≠ h))) ∧
    (∀ g gid, gid = s.cmdField 4 2 → Commands s 3 [(2, 2), (4, 2)] → s.gang part gid = some g →
      let late := s.lateOf g
      ∃ u b, exec .removeGang s = .next u ∧ Ended u 0 0 ∧ u.gang part gid = none ∧
        (u.part part).compq = (s.part part).compq ++ [⟨b, g.image.asid, g.donectr⟩] ∧
        IsRecord b g.tag.toNat gid 0 (8 + (if late = 0 then 0 else 4) + (if g.redLost then 2 else 0)) late) ∧
    (∀ a q root svc, a = part → q = s.cmdField 4 1 → root = s.cmdField 8 8 → svc = s.cmdField 16 8 →
      Commands s 4 [(2, 2), (4, 1), (8, 8), (16, 8), (24, 4), (28, 4), (32, 4)] → a ≤ 4095 → q ≤ 63 → root % 4096 = 0 →
      root < 48 * 2 ^ 36 → svc % 65536 = 0 → svc + 0x30000 ≤ 2 ^ 56 → (∀ k < 3, serviceCtr (s.cmdField (24 + 4 * k) 4) = true) →
      s.asid a = none → ∃ u, exec .assignAsid s = .next u ∧ Ended u 0 0 ∧
        u.mem.asids = s.mem.asids ++ [⟨a, q, root, svc, BitVec.ofNat 32 (s.cmdField 24 4), BitVec.ofNat 32 (s.cmdField 28 4),
          BitVec.ofNat 32 (s.cmdField 32 4), 0, 0⟩]) ∧
    (∀ g, Commands s 11 [(2, 2), (4, 2)] → s.gang part (s.cmdField 4 2) = some g →
      ∃ u, exec .selectPlacementTable s = .next u ∧ Ended u 0 0 ∧ u.host.ctrl.selected = some (g.part, g.gid)) ∧
    (∀ b, Commands s 12 [(8, 8), (16, 4)] → s.cmdField 16 4 = 30176 → s.hdmRead 0 (s.cmdField 8 8) 30176 = some b →
      let f := s.host.flash
      let good := Config.mapSignature (f.body 1) (f.body 2) b
      ∃ u, exec .countersignMap s = .next u ∧ (good = true → Ended u 0 0 ∧ u.host.ctrl.map = 2 ∧ u.host.flash = { f with owner := b }) ∧
        (good = false → Ended u 2 0 ∧ u.host.ctrl.map = s.host.ctrl.map ∧ u.host.flash = f))

/-- A request of a kind is the next one of its source (R341, R381), and what firmware reads of a ring holds no error. -/
def Requested (s : State) (src : ReqSource) (kind : Nat) (r : Req) : Prop :=
  s.reqOf src = some r ∧ r.kind = kind ∧
  (∀ a x, src = .ring a → s.asid a = some x → s.sync.bad.contains (ctrKey a x.reqctr) = false ∧ s.mem.bad = []) ∧
  (src = .command → s.cmdField 1 1 = 0 ∧ s.cmdField 0x20 32 = 0 ∧ ∃ e, s.asid r.asid = some e)

/-- The page tables below a table lead through entries that satisfy P to the entry at level 4 of a virtual address, which is at a
(R337, R338). -/
def LeafPath (s : State) (P : Nat → Prop) (va a : Nat) : Nat → List (Nat × Nat × Nat) → Prop
  | _, [] => False
  | table, (lo, w, _) :: rest =>
    let x := table + 8 * (va / 2 ^ lo % 2 ^ w)
    let e := Memory.nat s.mem.hbm x 8
    x % 8 = 0 ∧ s.mem.bad.contains (x / 8) = false ∧ P x ∧ if rest = [] then a = x else e % 4 = 1 ∧ LeafPath s P va a (bitsOf e 41 12 * 4096) rest

/-- R337, R338, R342, R347, R390: MAP of one page of 64 KiB. A free frame, zeroed, goes to the partition; the leaf entry of the page gets
the frame, the mode, the owner of an OWNED page and the permissions that the request gives; nothing else in HBM changes. No HBM stack has
left the device. -/
def PageMapped : Prop :=
  ∀ (s : State) (r : Req) (x : AsidEntry) (a : Nat), Requested s .command 2 r → r.donectr = 0 → r.arg / 2 ^ 30 % 2 = 0 →
    r.va % 65536 = 0 → r.len = 65536 → r.va + r.len ≤ 2 ^ 56 → s.walk r.asid r.va = none → s.asid r.asid = some x →
    LeafPath s (fun k => s.frameUsed (k / 65536) = true) r.va a x.root levels →
    s.allocated (s.asidPart r.asid) + r.len ≤ (s.part (s.asidPart r.asid)).gov.hbmalloc → s.mem.frames.length + 2 ≤ 48 * 2 ^ 20 →
    (∀ f ∈ s.svc.failed, f.2 ≠ 4) →
    let mode := r.arg % 4
    ∃ u f, exec (.map .command) s = .next u ∧ Ended u 0 0 ∧ s.frameUsed f = false ∧ f < 48 * 2 ^ 20 ∧
      u.mem.frames = s.mem.frames ++ [(f, s.asidPart r.asid)] ∧
      let leaf := mode * 2 ^ 62 + (if mode = 0 then r.arg / 4 % 2 ^ 24 else 0) * 2 ^ 38 + f * 2 ^ 12 + r.arg / 2 ^ 26 % 16 * 4 + 3
      ∀ y, Memory.byte u.mem.hbm y =
        if a ≤ y ∧ y < a + 8 then BitVec.ofNat 8 (leaf / 2 ^ (8 * (y - a)))
        else if f * 65536 ≤ y ∧ y < (f + 1) * 65536 then 0 else Memory.byte s.mem.hbm y

/-- R337, R390: the frames that firmware hands out, for a page or a table, are free, aligned, and on a stack that has not left the device. -/
def FramesGiven : Prop :=
  ∀ (s t : State) (owner n f : Nat), n ∣ 2 ^ 20 → s.takeFrames owner n = (some f, t) →
    n ∣ f ∧ f + n ≤ 48 * 2 ^ 20 ∧ ∀ k, k < n → s.frameUsed (f + k) = false ∧ s.stackGone ((f + k) * 65536) = false

/-- R283, R342: the end of an UNMAP, and of a mode change that takes a page out of REDUCE: its buffered lines go back to HBM first, and their
buffers are free. -/
def PagesLeave : Prop :=
  ∀ (s : State) (n : Nat) (q : ModeReq) (e : TlbEntry) (x : AsidEntry) (a : Nat), s.mem.modeReqs[n]? = some q →
    (∀ y ∈ s.mem.modeReqs.take n, y.asid ≠ q.asid) → s.rangeDrained q = true → s.pagesOf q.asid q.va q.len = ([e], none) → e.size = 65536 →
    s.asid q.asid = some x → q.src = .command → q.ctr = 0 →
    LeafPath s (fun k => k < e.pa ∨ e.pa + e.size ≤ k) e.va a x.root levels →
    (∀ l ∈ s.sync.lines, l.pa % 64 = 0) → (s.sync.lines.Pairwise fun l m => l.pa ≠ m.pa) →
    let inPage (y : Nat) : Prop := e.pa ≤ y ∧ y < e.pa + e.size
    (∀ l ∈ s.sync.lines, inPage l.pa → ∀ k, k < 8 → l.pa / 8 + k ∉ s.sync.bad) →
    (q.unmap = true ∧ e.mode ≠ 2 → ∃ u, exec (.modeChangeSwitch n) s = .next u ∧ Ended u 0 0 ∧ Memory.nat u.mem.hbm a 8 = 0 ∧
      u.mem.frames = s.mem.frames.filter fun f => !decide (e.pa ≤ f.1 * 65536 ∧ f.1 * 65536 < e.pa + e.size)) ∧
    (q.unmap = false ∧ e.mode = 2 ∧ q.mode ≠ 2 → ∃ u, exec (.modeChangeSwitch n) s = .next u ∧ Ended u 0 0 ∧
      Memory.nat u.mem.hbm a 8 = leafWith (Memory.nat s.mem.hbm a 8) q.mode (if q.mode = 0 then q.owner else 0) ∧
      (∀ l, l ∈ u.sync.lines ↔ l ∈ s.sync.lines ∧ ¬inPage l.pa) ∧
      ∀ l ∈ s.sync.lines, inPage l.pa → ∀ y, l.pa ≤ y → y < l.pa + 64 → Memory.byte u.mem.hbm y = Memory.byte s.sync.lineMem y)

/-- R228, R282, R283, R341 to R345: the requests to firmware. -/
def Requests : Prop :=
  ∀ (s : State) (src : ReqSource) (r : Req),
    let change (unmap : Bool) : ModeReq := ⟨r.asid, r.va, r.len, r.arg % 4, bitsOf r.arg 25 2, r.donectr, unmap, src,
      ((s.asid r.asid).map (·.served)).getD 0⟩
    (∀ pages, s.wholePages r.asid r.va r.len = some pages →
      let begins (i : Instr) (unmap : Bool) : Prop := ∃ u, exec i s = .next u ∧
        u = { s with mem := { s.mem with modeReqs := s.mem.modeReqs ++ [change unmap] }, svc := u.svc } ∧ (s.mem.bad = [] → u.svc = s.svc)
      (Requested s src 1 r → begins (.mode src) false) ∧ (Requested s src 3 r → begins (.unmap src) true)) ∧
    (s.wholePages r.asid r.va r.len = none → Requested s .command 1 r → r.donectr = 0 →
      ∃ u, exec (.mode .command) s = .next u ∧ Ended u 4 2 ∧ u.mem = s.mem) ∧
    (∀ n q e a, s.mem.modeReqs[n]? = some q → (∀ x ∈ s.mem.modeReqs.take n, x.asid ≠ q.asid) → s.rangeDrained q = true →
      s.pagesOf q.asid q.va q.len = ([e], none) → s.leafAddr q.asid e.va = some a → s.mem.bad.contains (a / 8) = false → e.mode ≠ 2 → q.unmap = false → q.src = .command →
      q.ctr = 0 → ∃ u, exec (.modeChangeSwitch n) s = .next u ∧ Ended u 0 0 ∧ u.mem.modeReqs = dropNth s.mem.modeReqs n ∧
        Memory.nat u.mem.hbm a 8 = leafWith (Memory.nat s.mem.hbm a 8) q.mode (if q.mode = 0 then q.owner else 0) ∧
        ∀ y ∈ u.tile.ni.tlb, y.asid = q.asid → meets y.va y.size q.va q.len = false) ∧
    (Requested s .command 2 r → r.donectr = 0 → r.arg / 2 ^ 30 % 2 = 0 →
      (r.va % 65536 ≠ 0 ∨ r.len % 65536 ≠ 0 ∨ r.va + r.len > 2 ^ 56 → ∃ u, exec (.map .command) s = .next u ∧ Ended u 4 2 ∧
        u.mem = s.mem) ∧
      (r.va % 65536 = 0 → r.len % 65536 = 0 → r.va + r.len ≤ 2 ^ 56 →
        s.allocated (s.asidPart r.asid) + r.len ≤ (s.part (s.asidPart r.asid)).gov.hbmalloc →
        (∀ k < r.len / 65536, s.walk r.asid (r.va + k * 65536) = none) →
        ∃ u, exec (.map .command) s = .next u ∧ Ended u 0 0 ∧ (∀ f ∈ s.mem.frames, f ∈ u.mem.frames) ∧ u.tile.pad = s.tile.pad ∧
          ∀ y ∈ u.tile.ni.tlb, y.asid = r.asid → meets y.va y.size r.va r.len = false)) ∧
    (∀ f, s.openFault r = some f → f.behind = [] → s.sync.rounds = [] → r.donectr = 0 →
      (∀ g, g ∈ s.sync.faults → g.written = true) →
      (Requested s .command 4 r → ∀ pa, s.retranslate f.hold = .ok pa → (∃ l ∈ s.sync.lines, l.pa = pa / 64 * 64) →
        s.sync.bad.contains (pa / 8) = false →
        let n := redSize f.hold.ty
        ∃ u, exec (.resolve .command) s = .next u ∧ Ended u 0 0 ∧ u.faultOf r.asid r.arg = none ∧
          u.sync.lineMem = Memory.setNat s.sync.lineMem pa n
            (reduceNew f.hold.op f.hold.ty (Memory.nat s.sync.lineMem pa n) (f.hold.x.toNat % 2 ^ (8 * n)))) ∧
      (Requested s .command 5 r → ∀ g, s.gang f.hold.tile.part f.hold.tile.gid = some g →
        ∃ u, exec (.abandon .command) s = .next u ∧ Ended u 0 0 ∧ u.faultOf r.asid r.arg = none ∧ u.sync.lineMem = s.sync.lineMem ∧
          u.gang f.hold.tile.part f.hold.tile.gid = some { g with redLost := true })) ∧
    (s.openFault r = none → r.donectr = 0 →
      (Requested s .command 4 r → ∃ u, exec (.resolve .command) s = .next u ∧ Ended u 4 3 ∧ u.sync = s.sync) ∧
      (Requested s .command 5 r → ∃ u, exec (.abandon .command) s = .next u ∧ Ended u 4 3 ∧ u.sync = s.sync)) ∧
    (Requested s .command 6 r → r.donectr = 0 → r.va + r.len ≤ 2 ^ 32 →
      let mine (c : Counter) : Bool := decide (c.asid = r.asid ∧ r.va ≤ c.id.toNat ∧ c.id.toNat < r.va + r.len)
      ((∀ c ∈ s.sync.ctrs, mine c = true → c.waiters = []) → ∃ u, exec (.freectr .command) s = .next u ∧ Ended u 0 0 ∧
        u.sync.ctrs = s.sync.ctrs.filter fun c => !mine c) ∧
      ((∃ c ∈ s.sync.ctrs, mine c = true ∧ c.waiters ≠ []) → ∃ u, exec (.freectr .command) s = .next u ∧ Ended u 4 3 ∧
        u.sync = s.sync)) ∧
    (s.host.ctrl.cmdRun = true → s.cmdField 0 1 = 0 ∨ 12 < s.cmdField 0 1 →
      ∃ u, exec (.requestKindNotListed .command) s = .next u ∧ Ended u 1 0 ∧ u.mem = s.mem ∧ u.sync = s.sync)

/-- R228, R282, R283, R337, R338, R341 to R345, R347: the requests to firmware, the mapping that MAP makes, and what UNMAP and a page that
leaves REDUCE leave behind. -/
def Obligations.ServiceEvents : Prop := PageMapped ∧ FramesGiven ∧ PagesLeave ∧ Requests

/-! ## Placement, fabric, boot, power and repair -/

/-- R236, R258, R269, R323 to R335, R349, R361, R386, R391, with logs 28, 73, 75: translators prepare, commit or abort a version, a change
completes, and the launch message of a gang leaves with the one that makes its root resident, a context comes in or goes out, a gang-stop
completes, and a stopped gang goes out whole. -/
def Obligations.PlacementEvents : Prop :=
  ∀ (s : State) (part gid tr : Nat) (g : Gang), s.gang part gid = some g →
    let t := s.tile
    let changed (u : State) (places : List (Nat × Option Nat)) (pins : List (Nat × Bool)) : Prop :=
      u.gang part gid = some { g with change := some ⟨places, pins, [], []⟩ }
    (∀ c, g.change = some c → g.stopWork = false → tr ∈ s.translators part gid →
      (c.prepared.contains tr = false → exec (.prepare part gid tr) s =
        .next (s.updGang part gid fun g => { g with change := some { c with prepared := c.prepared ++ [tr] } })) ∧
      ((∀ x ∈ s.translators part gid, x ∈ c.prepared) → c.committed.contains tr = false → exec (.commit part gid tr) s =
        .next (s.updGang part gid fun g => { g with change := some { c with committed := c.committed ++ [tr] } }))) ∧
    (∀ c, g.change = some c → g.stopWork = true → c.committed = [] →
      let left := c.prepared.filter (· ≠ tr)
      (left ≠ [] → exec (.abort part gid tr) s =
        .next (s.updGang part gid fun g => { g with change := some { c with prepared := left } })) ∧
      (left = [] → ∃ u, exec (.abort part gid tr) s = .next u ∧ u.gang part gid = some { g with change := none } ∧
        (t.id.part = part → t.id.gid = gid → (∃ p ∈ c.places, p.1 = t.id.vt) →
          (t.pl.res = .swappingIn → u.tile.pl.res = .absent ∧ u.tile.pl.faulted = true) ∧
          (t.pl.res = .swappingOut → u.tile.pl.res = .resident ∧ u.tile.pl.stopped = true)))) ∧
    (∀ c, g.change = some c → (∀ x ∈ s.translators part gid, x ∈ c.committed) →
      (∀ x ∈ s.tilesOf part gid, (x.id.vt, none) ∈ c.places → x.lost = false) → OverflowFits s part → RoomFor s part g.resumeCtrs.length →
      s.sync.bad = [] → (s.part part).held = [] → (∀ x ∈ s.tilesOf part gid, x.inb.window = []) →
      ∃ u g', exec (.versionChangeComplete part gid) s = .next u ∧ u.gang part gid = some g' ∧ g'.version = g.version + 1 ∧
        (∀ x, c.places = [(t.id.vt, some x)] → c.pins = [] → t.id.part = part → t.id.gid = gid → gid ≠ 0 → t.pl.res = .swappingIn →
          t.inb.arrivals = [] → t.inb.overflow = [] → t.inb.window = [] → u.tile.pl.res = .resident ∧ u.tile.pl.phys = x ∧
          u.tile.pl.stopped = (g.stopping || g.stopWork) ∧ u.tile.pad = { t.pad with bad := [] } ∧ t.SameRegs u.tile [] ∧
          u.tile.ni.step = (s.siteUse x).step ∧ u.tile.ni.duty = (s.siteUse x).duty) ∧
        (∀ x, g.launchSent = false → t.id = ⟨part, gid, g.root⟩ → gid ≠ 0 → c.places = [(g.root, some x)] → c.pins = [] →
          t.pl.res = .swappingIn → t.inb.arrivals = [] → t.inb.overflow = [] →
          g'.launchSent = true ∧ HostMessage u part gid g.root 0 (launchPayload g.record gid)) ∧
        (c.places = [] → t.id.part = part → t.id.gid = gid → t.pl.res = .resident → ∀ b, c.pins = [(t.id.vt, b)] →
          u.tile.pl.pinned = b) ∧
        (c.places = [(t.id.vt, none)] → c.pins = [] → t.id.part = part → t.id.gid = gid → t.pl.finished = false →
          t.pl.touched = true → u.tile.pl.res = .absent ∧ u.tile.pad = t.pad ∧ u.tile.regs = t.regs)) ∧
    (∀ x, t.id.part = part → t.id.gid = gid → s.openFaults part = [t] → s.freeTiles part ≠ [] → s.placeFor g t.id.vt = some x →
      ∃ u, exec (.demandSwap part) s = .next u ∧
        u.tile = { t with pl := { t.pl with res := .swappingIn, phys := x, faulted := false, wanted := false } }) ∧
    (t.id.part = part → t.id.gid = gid → t.pl.res = .swappingOut → s.quiesced = true → g.mayChange = true → t.lost = false → s.failCause t.pl.phys = none →
      Roomy s part → (∀ w, t.ex.withdrawn = some w → s.sync.bad.contains (ctrKey t.gang.asid w.1) = false) →
      ∃ u, exec .quiesceComplete s = .next u ∧ changed u [(t.id.vt, none)] [(t.id.vt, false)]) ∧
    (t.id.part = part → t.id.gid = gid → gid ≠ 0 → t.pl.res = .swappingIn → g.mayChange = true →
      (∀ i ∈ s.comeBack, ∃ x, s.findTile i = some x ∧ x.pl.res = .swappingIn) →
      t.id.vt = g.root ∨ (∀ x ∈ s.tilesOf part gid, x.id.vt = g.root → x.pl.res ≠ .swappingIn) →
      ∃ u places pins, exec .swapIn s = .next u ∧ u.tile = t ∧ changed u places pins ∧ (t.id.vt, some t.pl.phys) ∈ places ∧
        (∀ p ∈ places, ∃ x ∈ s.tilesOf part gid, x.pl.res = .swappingIn ∧ p = (x.id.vt, some x.pl.phys)) ∧
        ∀ p ∈ pins, ∃ x ∈ s.tilesOf part gid, p = (x.id.vt, true) ∧ ∃ k plan, x.gang.prog.plans[k]? = some plan ∧
          x.id ∈ plan.tiles part gid ∧ ∃ i ∈ plan.tiles part gid, s.joinedAt i k = true) ∧
    (g.stopWork = true ∨ g.stopCtrs ≠ [] → g.change = none → s.drained g = true → g.stopping = true →
      (∀ x ∈ s.tilesOf part gid, x.pl.stopDue = false ∧ (x.present = true → s.quiescedAt x.id = true)) →
      RoomFor s part g.stopCtrs.length → s.sync.bad = [] →
      ∃ u, exec (.gangStopComplete part gid) s = .next u ∧
        u.gang part gid = some { g with
          stopWork := false, stopDone := true, stopCtrs := [], byShed := g.byShed || g.shedWait, shedWait := false, shedLate := false } ∧
        ∀ id k, g.stopCtrs = [⟨g.image.asid, id, k⟩] → Gains1 s u g.image.asid id) ∧
    (s.goesOut g = true → g.mayChange = true →
      let ts := (s.tilesOf part gid).filter fun x => decide (x.pl.res = .resident)
      ts ≠ [] → (∀ x ∈ ts, x.lost = false ∧ s.failCause x.pl.phys = none) → RoomFor s part ts.length → s.sync.bad = [] →
      ∃ u, exec (.wholeGangSwap part gid) s = .next u ∧
        changed u (ts.map fun x => (x.id.vt, none)) (ts.map fun x => (x.id.vt, false))) ∧
    (t.pl.proxy = true → (∀ c ∈ s.sync.ctrs, ∀ w ∈ c.waiters, w.proxy = true → w.tile ≠ t.id) →
      ∃ u, exec .proxyWaiterRelease s = .next u ∧ u.tile.pl.proxy = false ∧
        (t.pl.res = .absent → t.pl.finished = false → u.tile.pl.faulted = true))

/-- R297, R298, R301: how a router chooses. The output of a flit is the one of its table's entry with the most free slots, the earlier on a
tie, and it leads to a working router nearer to the destination, or out at the destination; it is one that the entry lists, where the entry
lists one that leads on (log 48); a link takes the oldest flit of the lane whose turn it is, and none while a gutter flit at the head of its
lane is ready for it; a gutter flit goes along its row and then along its column. How old a flit is, and what the local output counts as, is
the model's choice (log 66), and so is a lane (log 60); that the outputs are numbered north, east, south, west, south to the greater row, is
log 29's. -/
def RouteChoice : Prop :=
  ∀ (s : State) (f : Flit) (out : Nat),
    (s.outputFor f = some out → ∃ l1 l2, s.outputs f = l1 ++ out :: l2 ∧ s.outFree f out ≠ 0 ∧
      (∀ o ∈ l1, s.outFree f o < s.outFree f out) ∧ (∀ o ∈ l2, s.outFree f o ≤ s.outFree f out) ∧
      (out = 4 → f.site = f.dst) ∧ ((∃ o ∈ s.listed f.site f.dst, s.leadsOn f o = true) → out ∈ s.listed f.site f.dst) ∧
      (out ≠ 4 → ∃ n, neighbour f.site out = some n ∧ s.routerWorks n = true ∧ s.distance n f.dst < s.distance f.site f.dst)) ∧
    (∀ n lane, s.takesLink f out n lane = true →
      (∀ g ∈ s.heads f.site, s.outputFor g = some out → s.through g = true → s.laneFor g out n = some lane → f.since ≤ g.since) ∧
      (∀ port g, port < 5 → s.laneHead f.site port 4 = some g → s.gutterOut f.site g.dst = some out → s.through g = true →
        s.gutterFree f.site n (inPort out) = false)) ∧
    (∀ a b, a ≠ b → (∀ x ∈ gutterPath a b, s.mapped x = true) →
      let (c, r) := siteXY a
      let (d, q) := siteXY b
      s.gutterOut a b = some (if c < d then 1 else if d < c then 3 else if r < q then 2 else 0))

/-- A packet carries data of a copy: of an issuer, under a stamp, for a recipient. -/
def CarriesData (ref : PacketRef) (issuer : TileId) (stamp recip : Nat) : Prop := ∃ off, ref = .data issuer stamp recip off

/-- R296, R297, R301, R310, R312: a flit goes over the link that takes it, in its lane or in the gutter; at its destination it leaves the
fabric, the oldest first, and a spanning-tree report is applied there. The data of a CPT that comes by the gutter before its fill has begun
stands in the arrival queue of its recipient. -/
def FlitsMove : Prop :=
  ∀ (s : State) (site port lane : Nat) (f : Flit), s.laneHead site port lane = some f → s.routerWorks site = true →
    let r := s.router site
    let now := 2 * s.fab.time
    let goes (u : State) (out n : Nat) (ln : Nat) : Prop :=
      u.fab.flits.length = s.fab.flits.length ∧ ((u.router site).link out).next = max (r.link out).next now + 1 ∧
      (u.router site).xfield = r.xfield + (if fieldOf site = fieldOf n then 0 else 1) ∧
      ∃ g ∈ u.fab.flits, g = { f with site := n, port := inPort out, lane := ln, came := g.came, since := g.since, upper := g.upper } ∧
        g.came = now + (if fieldOf site = fieldOf n then 0 else 8)
    let waits (r : Remote) : Prop := f.message = true ∧ r.parked = false ∧ CarriesData f.ref { r.dst with vt := r.issuer } r.stamp r.recip
    let leaves (u : State) : Prop :=
      u.fab.flits.length + 1 = s.fab.flits.length ∧ ((∀ k, f.ref ≠ .pkt k) → u.tile = s.tile) ∧
      ∀ x, f.ref = .pkt x.serial → s.fab.reports = [x] → x.dst = s.tile.id → u.fab.reports = [] ∧ u.tile = { s.tile with
        pl := { s.tile.pl with kidsLeft := s.tile.pl.kidsLeft - 1, accStatus := StatusSum s.tile.pl.accStatus x.status } }
    (f.gutter = false →
      (∀ out n l, s.outputFor f = some out → neighbour site out = some n → s.laneFor f out n = some l → s.takesLink f out n l = true →
        ∃ u, exec (.packetRouting site port lane) s = .next u ∧ goes u out n l) ∧
      (s.outputFor f = some 4 → f.came ≤ now →
        (∀ g ∈ s.heads site, s.outputFor g = some 4 → g.came ≤ now → f.since ≤ g.since) →
        ∃ u, exec (.packetRouting site port lane) s = .next u ∧ leaves u)) ∧
    (f.gutter = true →
      (∀ out n, s.gutterOut site f.dst = some out → neighbour site out = some n → s.routerWorks n = true → (r.link out).next ≤ now + 1 →
        f.came + 2 ≤ now →
        s.gutterFree site n (inPort out) = true → ∃ u, exec (.packetRouting site port lane) s = .next u ∧ goes u out n 4) ∧
      (lane = 4 → f.dst = site → f.came ≤ now →
        ((∀ x ∈ s.fab.remotes, ¬waits x) → ∃ u, exec (.gutterDelivery site port) s = .next u ∧ leaves u) ∧
        ∀ x, s.fab.remotes = [x] → waits x → x.dst = s.tile.id → s.tile.pl.res = .resident →
          let arrivals := if s.tile.inb.arrivals.contains (.fill x.serial) then s.tile.inb.arrivals else s.tile.inb.arrivals ++ [.fill x.serial]
          let v : Tile := { s.tile with inb := { s.tile.inb with arrivals := arrivals } }
          OverflowFits { s with tile := v } x.dst.part → ∃ u, exec (.gutterDelivery site port) s = .next u ∧ u.tile = v))

/-- R299, R300, R303, R313: a lane's detector fires; the token passes along the ring of the image, where that ring holds every router of the
tables (log 48 otherwise), and at first to where it begins; the router that captures it drains its oldest head past TDET into its gutter
lane, at most 32 of them, and releases it. -/
def Recovery : Prop :=
  ∀ (s : State) (site port lane : Nat),
    let now := 2 * s.fab.time
    let r := s.router site
    (∀ f, s.laneHead site port lane = some f → f.gutter = false → f.since + s.fab.tdet ≤ now → r.suspect = false →
      ∃ u, exec (.timeoutDetector site port lane) s = .next u ∧
        u.router site = { r with suspect := true, episodes := r.episodes + 1, episodeStart := s.fab.time }) ∧
    (site = s.fab.token →
      let x := s.ringStep site
      let ok : Prop := site < 57344 ∧ s.routerWorks x = true ∧ isSite x = true
      let stuck : Prop := ∃ h ∈ s.heads site, h.since + s.fab.tdet ≤ now
      ((∀ y, y < 57344 → s.mapped y = true → y ∈ s.ringFrom 57344 site) → x = Config.ringNext s.svc.gen site) ∧
      (ok → s.fab.drained = none → exec .ridgeToken s = .next { s with fab := { s.fab with
        token := x, drained := if (s.router x).suspect then some 0 else none } }) ∧
      (∀ k, s.fab.drained = some k → stuck → k < 32 → (∀ h ∈ s.fab.flits, h.gutter = true → h.site = site → h.port ≠ 4) →
        ∃ u f, exec .ridgeToken s = .next u ∧ f ∈ s.heads site ∧ f.since + s.fab.tdet ≤ now ∧ (∀ h ∈ s.heads site, f.since ≤ h.since) ∧
          u.fab.token = site ∧ u.fab.drained = some (k + 1) ∧ (u.router site).gutter = r.gutter + 1 ∧
          u.fab.flits.length = s.fab.flits.length ∧ { f with gutter := true, port := 4, lane := 4 } ∈ u.fab.flits) ∧
      (∀ k, s.fab.drained = some k → (¬stuck ∨ 32 ≤ k) → ok →
        ∃ u, exec .ridgeToken s = .next u ∧ u.fab.token = x ∧ u.fab.flits = s.fab.flits ∧ (stuck → u.router site = r) ∧
          (¬stuck → u.router site =
            { r with suspect := false, overrun := if r.episodeStart + 50000 < s.fab.time then r.overrun + 1 else r.overrun }))) ∧
    (s.fab.token = 57344 → s.fab.drained = none → isSite Config.ringStart = true → s.routerWorks Config.ringStart = true →
      exec .ridgeToken s = .next { s with fab := { s.fab with
        token := Config.ringStart, drained := if (s.router Config.ringStart).suspect then some 0 else none } })

/-- R311, R312: TDET saturates; a pulse steps a router's TIME forward or holds it; a nanosecond passes, in which TIME never decreases and one
router may drift, within 2 ns of the root (log 33 for the drift). -/
def WaferTime : Prop :=
  ∀ (s : State) (site : Nat),
    let r := s.router site
    (∀ v, exec (.tdetcfg v) s = .next { s with fab := { s.fab with tdet := min (max v 500) 8000 } }) ∧
    (let due := (r.pulses + 1) * 65536 + Config.depth site
      let now := s.timeAt site
      due ≤ s.fab.time → r.lag ≤ s.fab.time + r.adj → ∃ u, exec (.syncPulse site) s = .next u ∧
        (u.router site).pulses = r.pulses + 1 ∧ (now < due → u.timeAt site = due) ∧
        (due ≤ now → u.timeAt site = now ∧ (u.router site).holdTicks = now - s.fab.time)) ∧
    (∃ u d, exec .waferTimeTick s = .next u ∧ u.fab.time = s.fab.time + 1 ∧ u.tile = s.tile ∧
      ∀ x, let a := s.router x
        let b := u.router x
        s.timeAt x ≤ u.timeAt x ∧ b.holdTicks = a.holdTicks - 1 ∧ b.congest = a.congest + (if x ∈ s.congested then 1 else 0) +
          (if x ∈ s.later.congested then 1 else 0) ∧
        (x ≠ d → b.adj = a.adj ∧ b.lag = a.lag + (if a.holdTicks = 0 then 0 else 1)) ∧
        (a.holdTicks = 0 → a.adj ≤ a.lag + 2 ∧ a.lag ≤ a.adj + 2 → b.adj ≤ b.lag + 2 ∧ b.lag ≤ b.adj + 2))

/-- R296 to R301, R303, R310 to R313, with logs 13, 29, 33, 48, 60, 66: a router chooses an output and a flit, and sends it; it suspects a
jam, and drains into the gutter under the token; TIME advances and is corrected. -/
def Obligations.FabricEvents : Prop := RouteChoice ∧ FlitsMove ∧ Recovery ∧ WaferTime

/-- An image verifies for a kind (R382): MAGIC and KIND match, the body has the header's hash, and both signatures over the header hold. -/
def ImageOk (kind : Nat) (i : Config.FlashImage) : Prop :=
  let header := (i.magic, i.kind, i.hash, i.version)
  i.magic = Config.flashMagic ∧ i.kind = kind ∧ Config.sha384 i.body = i.hash ∧ Config.rsaVerifies header i.rsa = true ∧
  Config.slhVerifies header i.slh = true

/-- R382, R383: the stages of boot at a controller, and the self-test. -/
def BootStages : Prop :=
  ∀ (s : State) (k : Nat),
    let c := s.ctl k
    let peer := 1 - k % 2
    let has (kind : Fin 3) : Prop := ∃ copy : Fin 2, ImageOk kind.val ((s.host.flash.images.get kind).get copy)
    let was : Prop := s.host.ctrl.boot = .ready
    let shows (u : State) (b : BootState) (halt : Nat) : Prop :=
      (u.ctl k).boot = b ∧ (was → u.host.ctrl.boot = .ready) ∧ (¬was → u.host.ctrl.boot = b ∧ u.host.ctrl.halt = halt)
    (∀ puf, c.boot = .rom → c.failed = false →
      ∃ u, exec (.powerUp k puf) s = .next u ∧ if puf = true then shows u .verify 0 else shows u .halted 3) ∧
    (∀ puf, c.boot = .verify → c.failed = false → ∃ u, exec (.powerUp k puf) s = .next u ∧
      (¬has 0 → shows u .halted 1) ∧ (has 0 → ¬has 1 → shows u .halted 2) ∧ (has 0 → has 1 → ¬has 2 → shows u .selftest 0) ∧
      (has 0 → has 1 → has 2 → shows u .ready 0 ∧ (¬was → u.fab.time = 0 ∧ u.power.ceil = 256 ∧
        ∀ f : Fin 56, (u.power.fields.get f).permits = 64 ∧ (u.power.fields.get f).fall = .normal))) ∧
    (c.boot ≠ .ready → c.boot ≠ .selftest → c.failed = false → ∃ u, exec (.bootTimeout k) s = .next u ∧ (u.ctl k).failed = true ∧
      (u.port k).up = false ∧ (u.port k).reading = none ∧
      (u.host.ctrl.owner = if s.host.ctrl.owner = some (Fin.ofNat 2 k) then none else s.host.ctrl.owner) ∧
      ((s.ctl peer).failed = true → u.host.ctrl.boot = .halted ∧ u.host.ctrl.halt = 4)) ∧
    (c.boot = .selftest → ∃ u, exec .selftest s = .next u ∧ u.host.ctrl.map = 1 ∧ u.host.ctrl.boot = .ready ∧ (u.ctl k).boot = .ready ∧
      let i := (u.host.flash.images.get 2).get 0
      i.magic = Config.flashMagic ∧ i.kind = 2 ∧ i.body = Config.builtMap ∧ i.hash = Config.sha384 Config.builtMap ∧
      (i.rsa, i.slh) = Config.identitySign (Config.headerBytes (i.magic, i.kind, i.hash, i.version)))

/-- R312, R377, R378, R389, R390: links go down and train again, but not where a controller or the router of a port has failed, and the
module is reset. -/
def LinksAndResets : Prop :=
  ∀ (s : State) (k : Nat),
    let freed : Option (Fin 2) := if s.host.ctrl.owner = some (Fin.ofNat 2 k) then none else s.host.ctrl.owner
    (∃ u, exec (.linkDown k) s = .next u ∧ (u.port k).up = false ∧ (u.port k).reading = none ∧ u.host.ctrl.owner = freed) ∧
    (∃ u, exec (.hotReset k) s = .next u ∧ (u.port k).frozen = false ∧ u.host.ctrl.owner = freed ∧
      ((u.port k).up = true ↔ (s.ctl k).failed = false ∧ ∀ f ∈ s.svc.failed, ¬(f.1 = Config.portSite (k % 2) ∧ f.2 = 4))) ∧
    (∃ u, exec .moduleReset s = .next u ∧ (u.port 0).frozen = false ∧ (u.port 1).frozen = false ∧ u.mem = s.mem ∧
      ∀ x, (let e := u.siteErr x; e.attCorr = 0 ∧ e.attUnc = 0 ∧ e.unc = 0 ∧ e.corr = 0) ∧
        (let r := u.router x; r.episodes = 0 ∧ r.gutter = 0 ∧ r.xfield = 0 ∧ r.congest = 0 ∧ r.overrun = 0))

/-- R390: the third probe without a reply fails a tile, and a link's CRC failure fails both of its routers. -/
def SiteFailures : Prop :=
  ∀ s : State,
    (∀ site, s.occupied site = true → let n := (s.siteErr site).misses
      (∃ u, exec (.heartbeatProbe site true) s = .next u ∧ (u.siteErr site).misses = 0 ∧ u.svc.failed = s.svc.failed) ∧
      (∃ u, exec (.heartbeatProbe site false) s = .next u ∧ (u.siteErr site).misses = n + 1 ∧
        (n < 2 → u.svc.failed = s.svc.failed) ∧
        (2 ≤ n → (∀ p ∈ s.svc.failed, p.1 ≠ site) → u.svc.failed = s.svc.failed ++ [(site, 2)]))) ∧
    (∀ a b, (∃ out ∈ [0, 1, 2, 3], neighbour a out = some b) → a ≠ b → (∀ p ∈ s.svc.failed, p.1 ≠ a ∧ p.1 ≠ b) →
      ∃ u, exec (.linkCrcFailure a b) s = .next u ∧ u.svc.failed = s.svc.failed ++ [(a, 4), (b, 4)] ∧
        (u.router a).failed = true ∧ (u.router b).failed = true)

/-- R312, R377, R378, R382, R383, R389, R390, with logs 34, 61: boot, links, resets, heartbeats and failures of links. One CSTAT for both
controllers, port k of controller k, a link that trains again at HOT_RESET and the extent of MODULE_RESET are log 34's. -/
def Obligations.BootEvents : Prop := BootStages ∧ LinksAndResets ∧ SiteFailures

/-- R351: what water-filling grants: no claim more than whole, the budget or all claims in sum, and no two claims that are not whole more
than 1 mW apart, the earlier one not less. -/
def WaterFilling : Prop :=
  ∀ (x : Nat) (claims : List Nat),
    let g := waterFill x claims
    let c (i : Nat) : Nat := claims.getD i 0
    let n := claims.length
    g.length = n ∧ g.sum = min x claims.sum ∧
    ∀ i j, i < n → j < n → g.getD i 0 ≤ c i ∧ (g.getD i 0 < c i → g.getD j 0 ≤ g.getD i 0 + 1 ∧ (i < j → g.getD j 0 ≤ g.getD i 0))

/-- R350, R351: what partitions and tiles are granted of W, where no tile belongs to a gang that sheds past its grace. -/
def PowerGrants : Prop :=
  ∀ (s : State) (w : Nat) (ls : List Leaf), (∀ l ∈ ls, l.late = false) → (ls.map Leaf.site).Nodup →
    let gs := s.grants w ls
    let mine (p : Nat) : List Leaf := ls.filter fun l => decide (l.part = p)
    let wants (p : Nat) : Nat := min ((mine p).map Leaf.base).sum ((s.part p).pcap * 30000000 / 256)
    (gs.map Prod.snd).sum = min w ((List.range 64).map wants).sum ∧
    (∀ p, p < 64 → ((mine p).map fun l => tget 0 gs l.site).sum ≤ wants p) ∧ (∀ l ∈ ls, tget 0 gs l.site ≤ l.base)

/-- The permits and the fall state of a field after an interval in which its highest step is given (R353). -/
def PermitsAfter (a : FieldPower) (top : Fin 4) (b : FieldPower) : Prop :=
  let idle := if top = 0 then min 64 (a.permits + 1) else a.permits
  (a.fall = .normal →
    b.permits = (if top = 3 then a.permits - min 3 a.permits else if top = 2 then a.permits - 1 else idle) ∧
    b.fall = (if 2 ≤ top ∧ b.permits = 0 then .fall1 else .normal)) ∧
  (a.fall = .fall1 → b.permits = idle ∧ b.fall = .fall2) ∧ (a.fall = .fall2 → b.permits = idle ∧ b.fall = .normal)

/-- R349, R350, R352, R353, R358, R359, R362: an interval boundary: permits and fall states, which fields may boost, the demand, the step
and the DUTY of a tile, the estimate E and a partition's DRAW over the settings that are entered, the minimum draw, and OVERDRAW. During a
grace W is computed from the ceiling before it, which the minimum draw is compared with too (logs 16 and 80, the model's choices). -/
def BudgetInterval : Prop :=
  ∀ s : State, 10000 * (s.power.interval + 1) ≤ s.fab.time →
    let p := s.power
    let held := match p.graces with
      | [] => p.ceil
      | g :: _ => g.2
    let t := s.tile
    ∃ (u : State) (set : List (Leaf × Setting)), exec .budgetInterval s = .next u ∧ u.power.interval = p.interval + 1 ∧
    u.power.ceil = p.ceil ∧ set.map Prod.fst = s.leaves ∧ (∀ x ∈ set, x.2.dem = x.1.dem x.2.step) ∧
    (let draw (mine : Leaf → Bool) : Nat := ((set.filter fun x => mine x.1).map fun x => x.2.dem * x.2.duty).sum
     (∀ m, u.power.est ≤ m ↔ 256 * (16 * Config.fixedPower + draw fun _ => true) ≤ 480000000 * m) ∧
     ∀ q, q < 64 → ∀ m, (u.part q).draw ≤ m ↔ 256 * draw (fun l => decide (l.part = q)) ≤ 480000000 * m) ∧
    (∀ (f : Fin 56) (top : Fin 4), (top = 0 ∨ ∃ l ∈ s.leaves, l.field = f.val ∧ l.top = top) →
      (∀ l ∈ s.leaves, l.field = f.val → l.top ≤ top) → PermitsAfter (p.fields.get f) top (u.power.fields.get f)) ∧
    (∀ f : Fin 56, let x := u.power.fields.get f
      x.ceil ≠ 0 ∧ (2 ≤ x.ceil → (x.fall = .fall1 ∧ x.ceil = 2) ∨
        (x.fall = .normal ∧ 1 ≤ x.permits ∧ (x.ceil = 3 → 3 ≤ x.permits) ∧ (∃ l ∈ s.leaves, l.field = f.val ∧ l.req = 3) ∧
          ∀ g ∈ s.gangs, g.shedding = false))) ∧
    (∀ m, u.host.ctrl.minDraw ≤ m ↔ 256 * (16 * Config.fixedPower + (s.leaves.map Leaf.base).sum) ≤ 480000000 * m) ∧
    u.host.ctrl.overdraw = s.host.ctrl.overdraw + (if p.ceil < u.host.ctrl.minDraw ∧ p.ceil < u.power.est then 1 else 0) ∧
    (t.present = true → t.id.gid ≠ 0 → s.siteWorks t.pl.phys = true → s.onSite t.pl.phys = some t → t.pl.stopped = false →
      (∃ x ∈ set, x.1.site = t.pl.phys ∧ x.2 = ⟨u.tile.ni.stepNext.getD t.ni.step, u.tile.ni.dutyNext.getD t.ni.duty, u.tile.ni.dem⟩) ∧
      ((∀ g, s.gang t.id.part t.id.gid = some g → (g.shedding && g.shedLate) = false) →
      let n := t.ni.allCycles
      let a := if n = 0 then 0 else (16 * t.ni.runCycles + n - 1) / n
      let req : Fin 4 := if a = 0 then 0 else if 12 ≤ a ∧ (s.part t.id.part).pboost ≤ t.gang.cls.val then 3 else 1
      let dem (x : Fin 4) : Nat := (Config.power (t.pl.phys / 1024) x.val * max a 1 + 15) / 16
      let base := dem (if req < 1 then req else 1)
      let ceil := (u.power.fields.get (Fin.ofNat 56 (t.pl.phys / 1024))).ceil
      let grant := tget 0 (s.grants (held * 30000000 / 256 - Config.fixedPower) s.leaves) t.pl.phys
      (u.host.ctrl.minDraw ≤ held →
        let step := if req = 0 then 0 else if req < ceil then req else ceil
        let g := grant + (if req = 3 then dem step - base else 0)
        let duty := if dem step ≤ g then 16 else max 1 (16 * g / dem step)
        u.tile.ni.stepNext = (if step = t.ni.step then none else some step) ∧
        u.tile.ni.dutyNext = (if duty = t.ni.duty then none else some duty) ∧ u.tile.ni.dem = dem step) ∧
      (held < u.host.ctrl.minDraw → u.tile.ni.dutyNext = if t.ni.duty = 1 then none else some 1)))

/-- R356, R357, R359, 20 (Power input and cooling): a sample of the shelf, a loss sample, and the outlet temperature set the ceiling; the
shutdowns stop the module. The stop of a module that has shut down is log 54's. -/
def CeilingEvents : Prop :=
  ∀ s : State,
    let p := s.power
    let c := s.host.ctrl
    (∀ freq volt, p.graces = [] → ∃ u, exec (.telemetrySample freq volt) s = .next u ∧ u.power.lastSample = s.fab.time ∧
      u.host.ctrl.telemSeq = c.telemSeq + 1 ∧ u.host.ctrl.telemFreq = freq % 2 ^ 32 ∧ u.host.ctrl.telemVolt = volt % 2 ^ 16 ∧
      (p.hot = true → u.power.ceil = c.loss) ∧
      (p.hot = false →
        let active (k : Fin 8) : Prop := freq % 2 ^ 32 ≤ (c.dpoints.get k).freq ∨ volt % 2 ^ 16 ≤ (c.dpoints.get k).volt
        u.power.ceil ≤ 256 ∧ (∀ k, active k → u.power.ceil ≤ (c.dpoints.get k).ceil) ∧
        (u.power.ceil = 256 ∨ ∃ k, active k ∧ u.power.ceil = (c.dpoints.get k).ceil))) ∧
    ((match p.lastLoss with | none => p.lastSample + 1000000 | some x => x + 250000) ≤ s.fab.time → p.graces = [] →
      ∃ u, exec .lossSample s = .next u ∧ u.power.lastLoss = some s.fab.time ∧ u.power.ceil = c.loss) ∧
    (p.graces = [] → ∃ u, exec .outletTemperatureHigh s = .next u ∧ u.power.hot = true ∧ u.power.ceil = c.loss) ∧
    (∀ freq volt, p.graces ≠ [] → p.hot = true → ∃ u, exec (.telemetrySample freq volt) s = .next u ∧ u.power.ceil = min c.loss p.ceil) ∧
    exec .outletTemperatureNormal s = .next { s with power := { p with hot := false } } ∧
    (∀ e, e = .thermalShutdown ∨ e = .inputVoltageFault → ∃ u, exec e s = .next u ∧ step u = .fault .moduleShutDown ∧
      u = { s with svc := { s.svc with off := true } })

/-- R360, R361, R363: what a sample decides outside a grace. Where its ceiling is below E and no class is marked, classes are marked in
ascending order until E less their savings meets the ceiling, each with its saving, and the grace begins; where it is not below E, the test
of restore for the highest marked class counts or fails, and with the twentieth pass the class is restored. -/
def SampleDecisions : Prop :=
  ∀ (s : State) (e : Instr), s.power.graces = [] → (e = .lossSample ∨ ∃ freq volt, e = .telemetrySample freq volt) →
    (e = .lossSample → (match s.power.lastLoss with | none => s.power.lastSample + 1000000 | some x => x + 250000) ≤ s.fab.time) →
    let p := s.power
    let floor (t : Tile) : Nat := (Config.power (t.pl.phys / 1024) 0 + 15) / 16
    let saving (g : Gang) : Nat := ((s.tilesOf g.part g.gid).map fun t => if t.present = true then t.ni.dem - floor t else 0).sum
    let of (k : Nat) : List Gang := s.gangs.filter fun g => decide (g.cls.val = k) && !g.isShed
    let below (k : Nat) : Nat := ((List.range k).map fun j => ((of j).map saving).sum).sum
    ∃ u, exec e s = .next u ∧ u.power.est = p.est ∧
      ((∀ k : Fin 8, (p.marks.get k).marked = false ∧ (p.marks.get k).due = false) → u.power.ceil < p.est →
        let marked (k : Fin 8) : Prop := of k.val ≠ [] ∧ ∃ x, 256 * below k.val ≤ 30000000 * x ∧ u.power.ceil + x < p.est
        (∀ k : Fin 8, ((u.power.marks.get k).marked = true ↔ marked k) ∧ (marked k → (u.power.marks.get k).saving = ((of k.val).map saving).sum ∧
          (u.power.marks.get k).since = s.fab.time)) ∧
        ((∃ k, marked k) → u.power.graces = [(s.fab.time, p.ceil)]) ∧
        ∀ g ∈ s.gangs, ∃ g' ∈ u.gangs, g' = if (u.power.marks.get g.cls).marked = true ∧ g.byShed = false then
          (if g.stopping = true then { g with byShed := true } else { g with shedWait := true }) else g) ∧
      (∀ h : Fin 8, (p.marks.get h).marked = true → (∀ k, h < k → (p.marks.get k).marked = false) → p.est ≤ u.power.ceil →
        let test : Prop := ∃ x, 256 * (p.marks.get h).saving ≤ 30000000 * x ∧ p.est + x + s.host.ctrl.hyst ≤ u.power.ceil
        (¬test → u.power.passes = 0 ∧ u.power.marks = p.marks) ∧
        (test → p.passes + 1 < 20 → u.power.passes = p.passes + 1 ∧ u.power.marks = p.marks) ∧
        (test → 20 ≤ p.passes + 1 → (s.gangs.map fun g => (g.part, g.gid)).Nodup →
          u.power.passes = 0 ∧ (∀ k, (u.power.marks.get k).marked = if k = h then false else (p.marks.get k).marked) ∧
          ∀ g ∈ s.gangs, g.cls = h → ∃ g' ∈ u.gangs, g'.part = g.part ∧ g'.gid = g.gid ∧ g'.byShed = false ∧ g'.shedWait = false ∧
            (g.stopDone = true → g.stopCtrs = [] → g.byGstop = false → g.byFirmware = false → g.byRepair = false → g'.stopDone = false)))

/-- R355, R361: the power registers of a function, the stop of a gang that sheds at its barrier, and the end of a grace, after which a gang
that still sheds 1 ms from the decision that marked its class runs at DUTY 1. -/
def SheddingAndRegisters : Prop :=
  ∀ s : State,
    let p := s.power
    let t := s.tile
    (∀ part gid g c, s.gang part gid = some g → g.shedWait = true → gid ≠ 0 → t.id.part = part → t.id.gid = gid → t.ex.cw = some c →
      c.ctr = g.barrier → g.barrier ≠ 0 → ∃ u g', exec (.shedStop part gid) s = .next u ∧ u.gang part gid = some g' ∧
        g'.byShed = true ∧ g'.shedWait = false) ∧
    ((∃ x ∈ p.graces, x.1 + 1000000 ≤ s.fab.time) → exec .graceExpiry s = .next { s with
      power := { p with graces := p.graces.filter fun x => decide (s.fab.time < x.1 + 1000000) }
      gangs := s.gangs.map fun g =>
        if g.shedding = true ∧ (p.marks.get g.cls).since + 1000000 ≤ s.fab.time then { g with shedLate := true } else g }) ∧
    (∀ func port v, Serves s port → let q := s.part func
      (∃ u, exec (.pcap ⟨func, port⟩ v) s = .next u ∧ (u.part func).pcap = min (max v q.gov.caplo) q.gov.caphi ∧
        (u.part func).capCnt = if (u.part func).pcap = v then q.capCnt else min (q.capCnt + 1) 0xFFFF) ∧
      (∃ u, exec (.pboost ⟨func, port⟩ v) s = .next u ∧ (u.part func).pboost = min (max v q.gov.boostlo) 8 ∧
        (u.part func).boostCnt = if (u.part func).pboost = v then q.boostCnt else min (q.boostCnt + 1) 0xFFFF))

/-- R391: the steps of repair: a context of a failed site goes out by a version change, and is lost where the site's tile is not readable;
the repair list is signed and written; a spare tile takes the failed one's place in its pool; stopped gangs resume. -/
def RepairSteps : Prop :=
  ∀ s : State,
    let t := s.tile
    let r := s.svc.repair
    (∀ site cause g, s.failCause site = some cause → r.step = .stop → s.repairStopped = true → s.siteFailed site = true →
      s.contextsAt site = [t] → s.gang t.id.part t.id.gid = some g → g.mayChange = true → t.pl.res ≠ .swappingIn → t.id ∉ r.lost →
      (s.gangs.map fun g => (g.part, g.gid)).Nodup →
      ∃ u, exec (.salvage site) s = .next u ∧ u.tile.pl.res = .swappingOut ∧ u.tile.pad = t.pad ∧ u.svc.repair.step = .salvage ∧
        u.gang t.id.part t.id.gid = some { g with change := some ⟨[(t.id.vt, none)], [(t.id.vt, false)], [], []⟩ } ∧
        u.svc.repair.lost = if (cause = 2 ∨ cause = 3) ∧ t.lost = false then r.lost else r.lost ++ [t.id]) ∧
    (r.step = .record → ∃ u, exec .repairRecord s = .next u ∧
      u.svc.repairs = s.svc.repairs ++ (r.sites.filter fun x => !s.svc.repairs.contains x) ∧ u.svc.repair.step = .rebuild ∧
      ∀ copy : Fin 2, let l := u.host.flash.lists.get copy
        l.list = u.svc.repairs ∧ (l.rsa, l.slh) = Config.identitySign (Config.listBytes u.svc.repairs)) ∧
    (r.step = .rebuild → s.lostFields = [] → ∃ u, exec .repairRebuild s = .next u ∧ u.svc.gen = s.svc.gen + 1 ∧
      u.svc.repair.step = .resume ∧ u.parts = s.parts ∧ u.fab.mapped = s.lostRouters ∧
      ∀ x cause y, r.sites = [(x, cause)] → s.poolOf x < 64 → s.siteFailed x = true → 64 ≤ s.poolOf y → s.siteWorks y = true →
        (∀ z, 64 ≤ s.poolOf z → s.siteWorks z = true → manhattan x y ≤ manhattan x z ∧ (z < y → manhattan x y < manhattan x z)) →
        u.poolOf y = s.poolOf x ∧ ∀ z, z ≠ y → u.poolOf z = if z = x then 64 else s.poolOf z) ∧
    (r.step = .resume → r.lost = [] → ∃ u, exec .repairResume s = .next u ∧ u.svc.repair = ⟨.idle, [], []⟩ ∧
      ∀ g ∈ u.gangs, g.byRepair = false)

/-- R349 to R353, R355 to R363, R391 and 20 (Power input and cooling), with logs 16, 31, 36, 47, 54, 80: the budget interval, the ceiling,
what a sample decides, the power registers, shedding, shutdown, and the steps of repair. That a salvage goes through a version change of its
own is log 36's. -/
def Obligations.PowerEvents : Prop :=
  WaterFilling ∧ PowerGrants ∧ BudgetInterval ∧ CeilingEvents ∧ SampleDecisions ∧ SheddingAndRegisters ∧ RepairSteps

/-! ## Values of the arithmetic -/

/-- R47, R48: sums, products, quotients, a fused product and roots, rounded in each mode, with their flags. -/
def RoundedValues : Prop :=
  let add (m : RMode) (x y : W32) := fp32.add m (f32 x) (f32 y)
  let mul (m : RMode) (x y : W32) := fp32.mul m (f32 x) (f32 y)
  let div (m : RMode) (x y : W32) := fp32.div m (f32 x) (f32 y)
  -- 1 + 2^-24 and its negative; 1 + 2^-23 + 2^-24
  add .rne 0x3F800000 0x33800000 = ⟨0x3F800000, 1⟩ ∧ add .rtz 0x3F800000 0x33800000 = ⟨0x3F800000, 1⟩ ∧
  add .rup 0x3F800000 0x33800000 = ⟨0x3F800001, 1⟩ ∧ add .rdn 0x3F800000 0x33800000 = ⟨0x3F800000, 1⟩ ∧
  add .rne 0x3F800001 0x33800000 = ⟨0x3F800002, 1⟩ ∧ add .rtz 0x3F800001 0x33800000 = ⟨0x3F800001, 1⟩ ∧
  add .rtz 0xBF800000 0xB3800000 = ⟨0xBF800000, 1⟩ ∧ add .rup 0xBF800000 0xB3800000 = ⟨0xBF800000, 1⟩ ∧
  add .rdn 0xBF800000 0xB3800000 = ⟨0xBF800001, 1⟩ ∧
  -- twice the largest finite value
  mul .rne 0x7F7FFFFF 0x40000000 = ⟨0x7F800000, 5⟩ ∧ mul .rtz 0x7F7FFFFF 0x40000000 = ⟨0x7F7FFFFF, 5⟩ ∧
  mul .rup 0x7F7FFFFF 0x40000000 = ⟨0x7F800000, 5⟩ ∧ mul .rdn 0x7F7FFFFF 0x40000000 = ⟨0x7F7FFFFF, 5⟩ ∧
  mul .rne 0x7F7FFFFF 0xC0000000 = ⟨0xFF800000, 5⟩ ∧ mul .rtz 0x7F7FFFFF 0xC0000000 = ⟨0xFF7FFFFF, 5⟩ ∧
  mul .rup 0x7F7FFFFF 0xC0000000 = ⟨0xFF7FFFFF, 5⟩ ∧ mul .rdn 0x7F7FFFFF 0xC0000000 = ⟨0xFF800000, 5⟩ ∧
  -- halves of 1 and of 3 times the smallest subnormal value; half of the smallest normal one
  mul .rne 1 0x3F000000 = ⟨0, 3⟩ ∧ mul .rup 1 0x3F000000 = ⟨1, 3⟩ ∧ mul .rne 3 0x3F000000 = ⟨2, 3⟩ ∧ mul .rtz 3 0x3F000000 = ⟨1, 3⟩ ∧
  mul .rne 0x00800000 0x3F000000 = ⟨0x00400000, 0⟩ ∧
  div .rne 0x3F800000 0x40400000 = ⟨0x3EAAAAAB, 1⟩ ∧ div .rtz 0x3F800000 0x40400000 = ⟨0x3EAAAAAA, 1⟩ ∧
  -- (1 + 2^-12)^2 - (1 + 2^-11)
  fp32.fma .rne (f32 0x3F800800) (f32 0x3F800800) (f32 0xBF801000) = ⟨0x33800000, 0⟩ ∧
  sqrt32 .rne (f32 0x40000000) = ⟨0x3FB504F3, 1⟩ ∧ sqrt32 .rne (f32 0x40800000) = ⟨0x40000000, 0⟩

/-- R49 to R53, R152, R153: conversions of elements, those of the examples among them, and the block of R153's example. -/
def ConvertedValues : Prop :=
  let cvt (m : RMode) (src dst : ElemTy) (x : W32) := convertElem m dst (readElem src x)
  -- 1 + 2^-8 to BF16, with the random values of R53's example
  cvt .rne .f32 .bf16 0x3F808000 = ⟨0x3F80, 1⟩ ∧ cvt .rup .f32 .bf16 0x3F808000 = ⟨0x3F81, 1⟩ ∧
  cvt (.stoch 0x1234) .f32 .bf16 0x3F808000 = ⟨0x3F81, 1⟩ ∧ cvt (.stoch 0x9000) .f32 .bf16 0x3F808000 = ⟨0x3F80, 1⟩ ∧
  -- 65,520 and the FP32 value below it, and 2^-25, to FP16
  cvt .rne .f32 .fp16 0x477FF000 = ⟨0x7C00, 5⟩ ∧ cvt .rne .f32 .fp16 0x477FEFFF = ⟨0x7BFF, 1⟩ ∧ cvt .rne .f32 .fp16 0x33000000 = ⟨0, 3⟩ ∧
  cvt .rne .fp16 .f32 1 = ⟨0x33800000, 0⟩ ∧ cvt .rne .bf16 .f32 0xC049 = ⟨0xC0490000, 0⟩ ∧
  cvt .rne .s32 .f32 16777217 = ⟨0x4B800000, 1⟩ ∧ cvt .rup .s32 .f32 16777217 = ⟨0x4B800001, 1⟩ ∧
  -- -0.3, 2.5 and -2.5, out of range, and a NaN, to integers
  cvt .rne .f32 .n32 0xBE99999A = ⟨0, 1⟩ ∧ cvt .rne .f32 .s32 0x40200000 = ⟨2, 1⟩ ∧ cvt .rup .f32 .s32 0x40200000 = ⟨3, 1⟩ ∧
  cvt .rtz .f32 .s32 0xC0200000 = ⟨0xFFFFFFFE, 1⟩ ∧ cvt .rdn .f32 .s32 0xC0200000 = ⟨0xFFFFFFFD, 1⟩ ∧
  cvt .rne .f32 .s8 0x43960000 = ⟨0x7F, 0x10⟩ ∧ cvt .rne .f32 .n8 0xBF800000 = ⟨0, 0x10⟩ ∧ cvt .rne .f32 .s32 0x7FC00000 = ⟨0, 0x10⟩ ∧
  cvt .rne .f32 .s32 0xFF800000 = ⟨0x80000000, 0x10⟩ ∧
  cvt .rne .s32 .s8 300 = ⟨0x7F, 0⟩ ∧ cvt .rne .s32 .n8 0xFFFFFFFB = ⟨0, 0⟩ ∧ cvt .rne .s16 .f32 0x1234FFFF = ⟨0xBF800000, 0⟩ ∧
  let blk := packBlock .lb4 0 (fun _ => 0) ([0x40400000, 0x3E800000, 0xBF800000].map f32 ++ List.replicate 29 (f32 0))
  blk.1 = 0x0007E200 + 0x0593 * 2 ^ 32 ∧ ∀ x ∈ blk.2, x = 0

/-- R54 to R57, R59, R60: elements read through the decode windows, of the blocks of the examples of R58 and R153 and of others; halfwords
read through the widen windows. -/
def BlockValues : Prop :=
  let at_ (f : BlkFmt) (block i : Nat) : W32 := blockElem f (toBytes block (blkBytes f)) i
  let first (f : BlkFmt) (block n : Nat) : List W32 := (List.range n).map (at_ f block)
  first .lb4 (0x0007D9FC + 0x94E3 * 2 ^ 32) 5 = [0x3FC00000, 0xBEC00000, 0, 0x3E400000, 0] ∧
  first .lb4 (0x0007E200 + 0x0593 * 2 ^ 32) 4 = [0x40400000, 0x3E800000, 0xBF800000, 0] ∧
  -- scales 1 and 1/2: 15/8, -1/8 of the second, and -8/8 across two bytes; reserved bits of the header set
  (let block := 0xFFF7E1FC + (0x0F + 0x31 * 2 ^ 6 + 0x18 * 2 ^ 30) * 2 ^ 32
   first .lb6 block 3 = [0x3FF00000, 0xBD800000, 0] ∧ at_ .lb6 block 5 = 0xBF800000) ∧
  -- -63/32, and 32/32 of the second
  first .lb8 (0x0007E1FC + (0x7F + 0xA0 * 2 ^ 16) * 2 ^ 32) 3 = [0xBFFC0000, 0, 0x3F000000] ∧
  -- 1023/512, and -1/512 of the second
  first .lb12 (0x0007E1FC + (0x3FF * 2 ^ 12 + 0xC01 * 2 ^ 36) * 2 ^ 32) 4 = [0, 0x3FFFC000, 0, 0xBA800000] ∧
  -- the least scale; a scale that is NaN, first and second; 1.5 × 2^127 and beyond, of either sign
  at_ .lb12 (2 ^ 32) 0 = 0x00002000 ∧ first .lb4 (0x3FC + 3 * 2 ^ 32) 2 = [0x7FC00000, 0x7FC00000] ∧
  at_ .lb8 (0x3FF * 2 ^ 10 + 0x1FC + 0x3F * 2 ^ 32) 0 = 0x7FC00000 ∧
  at_ .lb4 (0x3F8 + 3 * 2 ^ 32) 0 = 0x7F400000 ∧ first .lb4 (0x3FA + 0x73 * 2 ^ 32) 2 = [0x7F800000, 0xFF800000] ∧
  widen fp16 1 = 0x33800000 ∧ widen fp16 0x7C01 = 0x7FC00000 ∧ widen fp16 0xFC00 = 0xFF800000 ∧ widen fp16 0x8000 = 0x80000000 ∧
  widen fp16 0xC200 = 0xC0400000 ∧ widen bf16 0xC049 = 0xC0490000 ∧ widen bf16 0x7F81 = 0x7FC00000 ∧ widen bf16 0x8001 = 0x80010000

/-- R136 to R140: the approximations of ordinary inputs, and the logarithm at the middle of each of its 32 intervals. -/
def ApproximatedValues : Prop :=
  rcpLane 0x40400000 = ⟨0x3EAAA97E, 1⟩ ∧ rcpLane 0xC1200000 = ⟨0xBDCCCAC7, 1⟩ ∧
  rsqLane 0x40800000 = ⟨0x3EFFFA27, 1⟩ ∧ rsqLane 0x40400000 = ⟨0x3F13CBB7, 1⟩ ∧ rsqLane 0x3FD9999A = ⟨0x3F4457C1, 1⟩ ∧
  exp2OfLane 0x3F000000 = ⟨0x3FB504F3, 1⟩ ∧ exp2OfLane 0xC3150000 = ⟨1, 0⟩ ∧ exp2OfLane 0x40400000 = ⟨0x41000000, 0⟩ ∧
  exp2OfLane 0x43000000 = ⟨0x7F800000, 5⟩ ∧ exp2OfLane 0xC3180000 = ⟨0, 3⟩ ∧ exp2OfLane 0xC06CCCCD = ⟨0x3D9D9620, 1⟩ ∧
  log2Lane 0x41000000 = ⟨0x40400000, 0⟩ ∧ log2Lane 0x40400000 = ⟨0x3FCAE00D, 1⟩ ∧ log2Lane 0x3F333333 = ⟨0xBF03BB12, 1⟩ ∧
  ((List.range 32).map fun j => (log2Lane (BitVec.ofNat 32 (0x3F800000 + (2 * j + 1) * 2 ^ 17))).bits) =
     [0x3CB73CB4, 0x3D8759C5, 0x3DDE4212, 0x3E19574F, 0x3E42615E, 0x3E6A4F72, 0x3E88983F, 0x3E9B8926,
      0x3EAE00D2, 0x3EC0052B, 0x3ED19BB0, 0x3EE2C97D, 0x3EF39355, 0x3F01FED4, 0x3F0A0650, 0x3F11E20F,
      0x3F1993E3, 0x3F211D84, 0x3F28808C, 0x3F2FBE80, 0x3F36D8CB, 0x3F3DD0C8, 0x3F44A7BA, 0x3F4B5ED7,
      0x3F51F740, 0x3F587209, 0x3F5ED039, 0x3F6512C7, 0x3F6B3A9F, 0x3F7148A1, 0x3F773DA4, 0x3F7D1A71] ∧
  tanhLane 0x3F800000 = ⟨0x3F42F7D5, 1⟩ ∧ tanhLane 0xBCA3D70A = ⟨0xBCA3D173, 1⟩ ∧ tanhLane 0xC0200000 = ⟨0xBF7C92C1, 1⟩ ∧
  tanhLane 0x41800000 = ⟨0x3F800000, 1⟩

/-- R148: words of the generator. -/
def GeneratorValues : Prop :=
  let w (i : Nat) := rngWord 0x0123456789ABCDEF 0x2005 0x100000007 i
  w 0 = 0x300FD268 ∧ w 1 = 0x28B06101 ∧ w 15 = 0xD267A79A

/-- R55, R61, R62: the sizes of the block formats; the step of the examples after R62 and R314, a NaN block, an accumulator that stays, and
an overflow. -/
def EngineValues : Prop :=
  let blk (s0 s1 : Nat) (l : List Nat) : Block := ⟨6, s0, s1, l ++ List.replicate (32 - l.length) 0⟩
  let a := blk 0x06C 0x1FC [0x3F, 0x81]
  let b := blk 0x10C 0x1FC [0x3F, 0x81]
  let step (acc : Nat) (x y : Block) := AccStep.step ⟨acc, false, false⟩ x y
  [BlkFmt.lb4, .lb6, .lb8, .lb12].map pBits = [2, 4, 6, 10] ∧ [BlkFmt.lb4, .lb6, .lb8, .lb12].map blkBytes = [20, 28, 36, 52] ∧
  step 0x46800000 a b = ⟨0x46800001, false, false⟩ ∧
  -- SA1 × SB1 = 2^-14, each 2^-7
  step 0x3FD00000 (blk 0x06C 0x1E0 [0x3F, 0x81]) (blk 0x10C 0x1E0 [0x3F, 0x81]) = ⟨0x3FD00001, false, false⟩ ∧
  step 0x3F800000 (blk 0x3FC 0x1FC [0x3F]) b = ⟨0x7FC00000, true, false⟩ ∧ step 0x7F800000 a b = ⟨0x7F800000, false, false⟩ ∧
  step 0x80000000 (blk 0x1FC 0x1FC [0]) b = ⟨0x80000000, false, false⟩ ∧
  step 0x7F7FFFFF (blk 0x3F8 0x1FC [0x3F]) (blk 0x3F8 0x1FC [0x3F]) = ⟨0x7F800000, false, true⟩ ∧
  -- 1 × -1, one element with its sign set: 1.0 + -2^-10
  step 0x3F800000 (blk 0x1FC 0x1FC [1]) (blk 0x1FC 0x1FC [0x41]) = ⟨0x3F7FC000, false, false⟩

/-- R47 to R57, R59 to R62, R136 to R140, R148, R152, R153: values that the examples give, or that follow from the rules by hand: a change of
the rounding, of the conversions, of the decode windows, of the approximations, of the generator or of the engine's step would change one
of them. -/
def Obligations.NumericValues : Prop :=
  RoundedValues ∧ ConvertedValues ∧ BlockValues ∧ ApproximatedValues ∧ GeneratorValues ∧ EngineValues

/-! ## The step, the encoding, the invariant and reset -/

/-- R4, R24, R77, R237, R241, R246, R247: when no step change and no new DUTY is due, and after the start of the cycle the tile whose turn
it is may issue, and the words at its PC, inside the code segment, stand in the fetch buffer and are exactly one instruction i, the step is
exec of i, followed by the end of the cycle. -/
def Obligations.StepRunsDecoded : Prop :=
  ∀ (s s' : State) (rest : List Turn) (i : Instr) (n : Nat),
    let t := s'.tile
    let pc := t.ex.pc.toNat
    s.svc.off = false → s.turns = ⟨none, none⟩ :: rest → s.tile.ni.stepNext = none → s.tile.ni.dutyNext = none →
    startCycle { s with turns := rest } = .next s' →
    t.counts = true → t.mayRun = true → t.ex.inh = true → t.ex.idle = false → (t.ex.prv = true ∨ t.ex.pends = []) →
    t.pl.stopDue = false → t.iss.tail = none → t.iss.ending = false → t.slotAllowed = true → t.iss.bubble ≤ t.iss.cycle → t.fetchReady = true →
    (n = 4 ∨ n = 8) → pc % 4 = 0 → pc + n ≤ t.regs.shbase.toNat → (∀ k, k < n → t.pad.bad.contains ((pc + k) / 8) = false) →
    (∀ e ∈ t.pad.old, e.1 ≠ pc ∧ e.1 ≠ pc + 4) → (∀ e ∈ t.pad.seen, e.1 ≠ pc ∧ e.1 ≠ pc + 4) → decode (Memory.bytes t.pad.bytes pc n) = .ok (i, []) →
    step s = Out.andThen (exec i s') endOfCycle

/-- The worked encodings of 03 (after R85), the table encodings of R64 to R77 and R164: these words decode to these instructions. -/
def Obligations.DecodeWords : Prop :=
  let one (w : Nat) (i : Instr) : Prop := decode (bytesOfWord w) = .ok (i, [])
  one 0x00611000 (.add 3 1 2) ∧ one 0x0484FFFF (.addi 4 4 (-1)) ∧ one 0x40A66002 (.ld 5 6 3 2) ∧
  one 0x80221900 (.vaddF 1 2 3 1) ∧ one 0x80811004 (.vfma 4 1 2 0) ∧ one 0xF43FFFC0 (.wait 0 15 15 15 15) ∧
  one 0x6C80FFF8 (.bne 4 0 (-8)) ∧ one 0xC0201400 (.mzero 5) ∧ one 0xD85F8002 (.done 31 true false) ∧ one 0xE4052C00 (.radd 10 11 .f32) ∧
  decode (bytesOfWord 0xF848D159 ++ bytesOfWord 0xFCE00389) = .ok (.addl 7 0 0x123456789, []) ∧
  decode (bytesOfWord 0xFCE00389) = .error .tailAlone

/-- R64 to R78: every well-formed instruction word or pair, with every operand, decodes to itself, whatever follows it. -/
def Obligations.RoundTrip : Prop :=
  ∀ (i : Instr) (rest : List Byte), i.isWord = true → i.wf = true → decode (encodeBytes i ++ rest) = .ok (i, rest)

/-- What every byte of global memory and of the line buffers shares: addresses rise strictly, and no entry is what an unlisted
address reads as. -/
def SharedMemoryOk (s : State) : Prop := Memory.wf s.mem.hbm = true ∧ Memory.wf s.sync.lineMem = true

/-- R278, R280, R342 with log 4: no turn of the module, whatever instruction or event it is, breaks the canonical form of global memory
and of the line buffers. -/
def Obligations.SharedMemoryKept : Prop :=
  ∀ s t : State, SharedMemoryOk s → step s = .next t → SharedMemoryOk t

/-- R41, R312, R352, R354, R379, R389, R394, with log 3: what reset leaves, for the values that the spec gives, and the state in which a
virtual tile starts. The correction of TIME at a router is log 3's. -/
def Obligations.ResetValues : Prop :=
  SharedMemoryOk State.reset ∧ State.reset.host.ctrl.boot = .rom ∧ State.reset.host.ctrl.owner = none ∧
  State.reset.power.ceil = 256 ∧ State.reset.fab.tdet = 2000 ∧ State.reset.gangs = [] ∧
  (∀ f : Fin 56, (State.reset.power.fields.get f).permits = 64 ∧ (State.reset.power.fields.get f).fall = .normal) ∧
  (∀ p : Nat, (State.reset.part p).pboost = 8 ∧ (State.reset.part p).gidCursor = 1 ∧ (State.reset.part p).queue = []) ∧
  (∀ x : Nat, let e := State.reset.siteErr x
    let r := State.reset.router x
    e.attCorr = 0 ∧ e.attUnc = 0 ∧ e.unc = 0 ∧ e.corr = 0 ∧ r.suspect = false ∧ r.failed = Config.routerFailed x ∧ r.episodes = 0 ∧
    r.gutter = 0 ∧ r.xfield = 0 ∧ r.congest = 0 ∧ r.overrun = 0 ∧ r.adj = 0 ∧ r.lag = 0 ∧ r.holdTicks = 0) ∧
  ∀ (g : Gang) (vt : Nat), let t := g.freshTile vt
    (∀ r, t.g r = 0) ∧ (∀ r, t.v r = Vector.replicate 16 0) ∧ (∀ r : MReg, r ≠ 0 → t.m r = 0) ∧ t.m 0 = 0xFFFF ∧ t.regs.vl = 16 ∧
    t.regs.fmode = 0 ∧ t.regs.fflags = 0 ∧ t.regs.psel = 0 ∧ t.regs.draws = 0 ∧ t.ex.inh = false ∧ t.ex.prv = false ∧
    t.regs.trap = ⟨0, 0, 0, 0, 0⟩ ∧ t.regs.tvec = BitVec.ofNat 19 g.image.tvec ∧
    (g.image.codeEnd < 2 ^ 19 → t.regs.shbase = BitVec.ofNat 19 g.image.codeEnd) ∧
    (∀ n, t.sh n = none) ∧ t.eng.regs = #v[0x22, 64, 128, 0, 0, 0] ∧ t.eng.acc = [] ∧ t.inb.slots = [] ∧ t.pad.bytes = g.image.pad ∧
    (∀ c, t.count c = 0) ∧ (∀ c : Fin 64, t.inb.chans.get c = g.image.chans.getD c.val Channel.fresh)
end

