-- ==== Sys2Proof/Laws/Issue.lean ====
section
/-! SUPPORT. What an issue can do (R237), said once: with its conditions met, it has the effect, the wait or the trap that its checks
give; without them, nothing changes but the stall event. -/

namespace Sys2Proof.Machine

theorem Tile.lacks_eq_nil (t : Tile) (n : Need) : t.lacks n = [] ↔ t.canIssue n := by
  unfold Tile.lacks Tile.canIssue
  constructor
  · intro h
    simp only [List.append_eq_nil_iff] at h
    obtain ⟨⟨⟨h1, h2⟩, h3⟩, h4⟩ := h
    refine ⟨?_, ?_, ?_, ?_⟩
    · intro r hr
      by_contra hc
      have : n.regs.any t.awaits = true := List.any_eq_true.mpr ⟨r, hr, by simpa using hc⟩
      simp [this] at h1
    · by_contra hc
      have : t.iss.units.free n.unit > t.iss.cycle := by omega
      rw [if_pos this] at h2
      simp at h2
    · intro c hc
      rw [hc] at h3
      by_contra hn
      have : t.count c ≥ c.limit := by omega
      simp [this] at h3
    · intro k hk
      by_contra hn
      have : (List.finRange 8).any (fun k => n.hs.getLsbD k.val && decide (t.hcount k.val ≥ 255)) = true :=
        List.any_eq_true.mpr ⟨k, List.mem_finRange k, by simp [hk]; omega⟩
      rw [if_pos this] at h4
      simp at h4
  · rintro ⟨h1, h2, h3, h4⟩
    have e1 : n.regs.any t.awaits = false := by
      rw [List.any_eq_false]
      intro r hr
      simp [h1 r hr]
    have e2 : ¬t.iss.units.free n.unit > t.iss.cycle := by omega
    have e4 : (List.finRange 8).any (fun k => n.hs.getLsbD k.val && decide (t.hcount k.val ≥ 255)) = false := by
      rw [List.any_eq_false]
      intro k _
      cases hb : n.hs.getLsbD k.val with
      | false => rw [Bool.false_and]; exact Bool.false_ne_true
      | true =>
        have := h4 k hb
        rw [Bool.true_and, decide_eq_true_eq]
        omega
    rw [e1, if_neg e2, e4]
    cases hc : n.cls with
    | none => simp
    | some c =>
      have := h3 c hc
      have : ¬t.count c ≥ c.limit := by omega
      simp [this]

theorem issue_of_ok {n : Need} {body : State → Except Stop State} {s s' : State} (h : s.tile.canIssue n) (hb : body s = .ok s') :
    issue n body s = .next s' := by
  unfold issue
  rw [(s.tile.lacks_eq_nil n).mpr h]
  simp [hb]

theorem issue_of_wait {n : Need} {body : State → Except Stop State} {s : State} {ev : Nat} (h : s.tile.canIssue n)
    (hb : body s = .error (.wait ev)) : issue n body s = .next (s.stall ev) := by
  unfold issue
  rw [(s.tile.lacks_eq_nil n).mpr h]
  simp [hb]

theorem issue_of_miss {n : Need} {body : State → Except Stop State} {s : State} {ev : Nat} {l : List Nat} (h : s.tile.canIssue n)
    (hb : body s = .error (.miss ev l)) : issue n body s = .next ((s.upd fun t => t.noteMiss l).stall ev) := by
  unfold issue
  rw [(s.tile.lacks_eq_nil n).mpr h]
  simp [hb]

theorem issue_of_trap {n : Need} {body : State → Except Stop State} {s : State} {i : TrapInfo} (h : s.tile.canIssue n)
    (hb : body s = .error (.trap i)) :
    issue n body s = .next (((s.trapHere i).upd Tile.fetchPassed).tileUncIf (i.cause = 0x0B)) := by
  unfold issue
  rw [(s.tile.lacks_eq_nil n).mpr h]
  simp [hb]

/-- Everything that an issue can do: it answers a next state in every case. -/
theorem issue_cases (n : Need) (body : State → Except Stop State) (s : State) :
    (s.tile.canIssue n ∧ ∃ s', body s = .ok s' ∧ issue n body s = .next s') ∨
    (s.tile.canIssue n ∧ ∃ i, body s = .error (.trap i) ∧
      issue n body s = .next (((s.trapHere i).upd Tile.fetchPassed).tileUncIf (i.cause = 0x0B))) ∨
    (s.tile.canIssue n ∧ ∃ ev l, body s = .error (.miss ev l) ∧ issue n body s = .next ((s.upd fun t => t.noteMiss l).stall ev)) ∨
    ∃ ev, issue n body s = .next (s.stall ev) := by
  by_cases h : s.tile.canIssue n
  · cases hb : body s with
    | ok s' => exact .inl ⟨h, s', rfl, issue_of_ok h hb⟩
    | error st =>
      cases st with
      | wait ev => exact .inr (.inr (.inr ⟨ev, issue_of_wait h hb⟩))
      | miss ev l => exact .inr (.inr (.inl ⟨h, ev, l, rfl, issue_of_miss h hb⟩))
      | trap i => exact .inr (.inl ⟨h, i, rfl, issue_of_trap h hb⟩)
  · refine .inr (.inr (.inr ?_))
    have hl : s.tile.lacks n ≠ [] := fun e => h ((s.tile.lacks_eq_nil n).mp e)
    unfold issue
    split
    · exact absurd ‹_› hl
    · split <;> exact ⟨_, rfl⟩

theorem issue_next (n : Need) (body : State → Except Stop State) (s : State) : ∃ t, issue n body s = .next t := by
  rcases issue_cases n body s with ⟨_, s', _, h⟩ | ⟨_, _, _, h⟩ | ⟨_, _, _, _, h⟩ | ⟨_, h⟩ <;> exact ⟨_, h⟩

/-- A range passes the check of its translations exactly where one is at hand for each of its addresses. -/
@[simp] theorem State.checkGap_ok_iff (s : State) (gap : Option Nat) (trap : Nat → Stop) : s.checkGap gap trap = .ok () ↔ gap = none := by
  cases gap <;> simp [State.checkGap]

/-- Where no translation is at hand for an address, and none has been found missing, the access waits for it. -/
theorem State.checkGap_miss (s : State) (va : Nat) (trap : Nat → Stop) (h : va < 2 ^ 56) (n : s.tile.ni.noLeaf.contains va = false) :
    s.checkGap (some va) trap = .error (.miss 22 [va]) := by
  have l : ¬va ≥ 2 ^ 56 := by omega
  simp only [List.contains_iff_mem, Bool.eq_false_iff, ne_eq] at n
  simp only [State.checkGap, List.contains_iff_mem, l, n, false_and, or_self, if_false]

/-- A fetch that has no choice to make leaves the state as it is. -/
theorem State.fetched_of_no_choice (s : State) (h : s.tile.fetchChoice = false) : s.fetched = s := by
  simp [State.fetched, h]

/-- Everything that a denied fetch slot can do: nothing, the choice of the fetch, or the acquire point of the fence that stands there. -/
theorem State.noteAcquire_cases (s : State) :
    s.noteAcquire = s ∨ s.noteAcquire = s.fetched ∨
    s.noteAcquire = s.fetched.upd fun t => { t with ex := { t.ex with acqWait := some (s.fetched.hostQueue t.gang.asid) } } := by
  unfold State.noteAcquire
  dsimp only
  split
  · split
    · split
      · exact .inr (.inr rfl)
      · exact .inr (.inl rfl)
    all_goals exact .inr (.inl rfl)
  · exact .inl rfl

theorem State.noteAcquire_of_tail (s : State) {x : GReg × Word} (h : s.tile.iss.tail = some x) : s.noteAcquire = s := by
  simp [State.noteAcquire, h]

end Sys2Proof.Machine
end

