-- ==== Sys2Proof/Laws/Memory.lean ====
section
/-! SUPPORT. The laws of Memory: a read after a write, and the canonical form, which every operation keeps. -/

namespace Sys2Proof.Machine

theorem Memory.wfFrom_le {lo hi : Nat} {m : Memory} (h : lo ≤ hi) (w : Memory.wfFrom hi m = true) : Memory.wfFrom lo m = true := by
  cases m with
  | nil => rfl
  | cons p t =>
    simp only [Memory.wfFrom, Bool.and_eq_true, decide_eq_true_eq] at w ⊢
    exact ⟨⟨by omega, w.1.2⟩, w.2⟩

theorem Memory.wfFrom_filter {lo : Nat} {m : Memory} (p : Host.Cell → Bool) (w : Memory.wfFrom lo m = true) :
    Memory.wfFrom lo (m.filter p) = true := by
  induction m generalizing lo with
  | nil => rfl
  | cons c t ih =>
    simp only [Memory.wfFrom, Bool.and_eq_true, decide_eq_true_eq] at w
    rw [List.filter_cons]
    split
    · simp only [Memory.wfFrom, Bool.and_eq_true, decide_eq_true_eq]
      exact ⟨w.1, ih w.2⟩
    · exact Memory.wfFrom_le (by omega) (ih w.2)

/-- Dropping entries keeps the canonical form. -/
theorem Memory.wf_filter {m : Memory} (p : Host.Cell → Bool) (w : Memory.wf m = true) : Memory.wf (m.filter p) = true :=
  Memory.wfFrom_filter p w

/-- Listing a byte at an address that is not listed keeps the canonical form. -/
theorem Memory.wfFrom_put {lo a : Nat} {b : Byte} {m : Memory} (w : Memory.wfFrom lo m = true) (h : lo ≤ a) (hb : b ≠ 0)
    (hm : ∀ c ∈ m, c.1 ≠ a) : Memory.wfFrom lo (Memory.put m a b) = true := by
  induction m generalizing lo with
  | nil => simpa [Memory.put, Memory.wfFrom, h] using hb
  | cons p t ih =>
    have hp := hm p (by simp)
    simp only [Memory.wfFrom, Bool.and_eq_true, decide_eq_true_eq] at w
    unfold Memory.put
    split
    · next ha =>
      simp only [Memory.wfFrom, Bool.and_eq_true, decide_eq_true_eq]
      exact ⟨⟨h, hb⟩, ⟨by omega, w.1.2⟩, w.2⟩
    · simp only [Memory.wfFrom, Bool.and_eq_true, decide_eq_true_eq]
      exact ⟨w.1, ih w.2 (by omega) fun c hc => hm c (by simp [hc])⟩

/-- Writing a byte keeps the canonical form. -/
theorem Memory.wf_setByte {m : Memory} (a : Nat) (b : Byte) (w : Memory.wf m = true) : Memory.wf (Memory.setByte m a b) = true := by
  have f : Memory.wfFrom 0 (m.filter fun c => decide (c.1 ≠ a)) = true := Memory.wfFrom_filter _ w
  unfold Memory.setByte
  split
  · exact f
  · next hb => exact Memory.wfFrom_put f (Nat.zero_le a) hb fun c hc => by simpa using (List.mem_filter.mp hc).2

/-- Writing bytes keeps the canonical form. -/
theorem Memory.wf_write {m : Memory} (a : Nat) (l : List Byte) (w : Memory.wf m = true) : Memory.wf (Memory.write m a l) = true := by
  induction l generalizing m a with
  | nil => exact w
  | cons b t ih => exact ih _ (Memory.wf_setByte a b w)

/-- Writing a number keeps the canonical form. -/
theorem Memory.wf_setNat {m : Memory} (a n x : Nat) (w : Memory.wf m = true) : Memory.wf (Memory.setNat m a n x) = true :=
  Memory.wf_write a _ w

theorem Memory.byte_filter {m : Memory} {a x : Nat} :
    Memory.byte (m.filter fun c => decide (c.1 ≠ a)) x = if x = a then 0 else Memory.byte m x := by
  induction m with
  | nil => simp [Memory.byte]
  | cons p t ih =>
    rw [List.filter_cons]
    by_cases h : p.1 = a
    · rw [if_neg (by simp [h]), ih]
      by_cases hx : x = a
      · simp [hx]
      · simp [Memory.byte, hx, show ¬p.1 = x by rw [h]; exact fun e => hx e.symm]
    · rw [if_pos (by simp [h])]
      simp only [Memory.byte, ih]
      by_cases hx : p.1 = x
      · simp [hx, show ¬x = a by rw [← hx]; exact h]
      · simp [hx]

theorem Memory.byte_put {m : Memory} {a x : Nat} {b : Byte} (hm : ∀ c ∈ m, c.1 ≠ a) :
    Memory.byte (Memory.put m a b) x = if x = a then b else Memory.byte m x := by
  induction m with
  | nil => simp [Memory.put, Memory.byte, eq_comm]
  | cons p t ih =>
    have hp := hm p (by simp)
    unfold Memory.put
    split
    · simp only [Memory.byte, eq_comm (a := a)]
    · simp only [Memory.byte, ih fun c hc => hm c (by simp [hc])]
      by_cases hx : p.1 = x
      · simp [hx, show ¬x = a by rw [← hx]; exact hp]
      · simp [hx]

/-- A read after a write of a byte, whether the memory is canonical or not. -/
theorem Memory.byte_setByte {m : Memory} {a x : Nat} {b : Byte} :
    Memory.byte (Memory.setByte m a b) x = if x = a then b else Memory.byte m x := by
  unfold Memory.setByte
  split
  · next hb => rw [Memory.byte_filter, hb]
  · rw [Memory.byte_put fun c hc => by simpa using (List.mem_filter.mp hc).2, Memory.byte_filter]
    split <;> rfl

/-- A read after a write of bytes, whether the memory is canonical or not. -/
theorem Memory.byte_write {m : Memory} {a x : Nat} {l : List Byte} :
    Memory.byte (Memory.write m a l) x = if a ≤ x ∧ x < a + l.length then l.getD (x - a) 0 else Memory.byte m x := by
  induction l generalizing m a with
  | nil => simp [Memory.write]
  | cons b t ih =>
    rw [Memory.write, ih, Memory.byte_setByte]
    by_cases hx : x = a
    · subst hx
      simp
    · by_cases h : a + 1 ≤ x ∧ x < a + 1 + t.length
      · have h2 : a ≤ x ∧ x < a + (b :: t).length := by simp only [List.length_cons]; omega
        have e : x - a = (x - (a + 1)) + 1 := by omega
        rw [if_pos h, if_pos h2, e, List.getD_cons_succ]
      · have h2 : ¬(a ≤ x ∧ x < a + (b :: t).length) := by simp only [List.length_cons]; omega
        rw [if_neg h, if_neg h2, if_neg hx]

/-- The n bytes of a number are n. -/
theorem toBytes_length (x n : Nat) : (toBytes x n).length = n := by
  induction n generalizing x with
  | zero => rfl
  | succ n ih => simp [toBytes, ih]

/-- A byte of a number. -/
theorem toBytes_getD {x n k : Nat} (h : k < n) : (toBytes x n).getD k 0 = BitVec.ofNat 8 (x / 2 ^ (8 * k)) := by
  induction n generalizing x k with
  | zero => omega
  | succ n ih =>
    cases k with
    | zero => simp [toBytes]
    | succ k =>
      rw [toBytes, List.getD_cons_succ, ih (by omega), Nat.div_div_eq_div_mul]
      congr 2
      rw [show 8 * (k + 1) = 8 * k + 8 by ring, pow_add]
      ring

/-- Little-endian bytes give their number back. -/
theorem ofBytes_toBytes {x n : Nat} (h : x < 2 ^ (8 * n)) : ofBytes (toBytes x n) = x := by
  induction n generalizing x with
  | zero =>
    have : x = 0 := by simpa using h
    simp [toBytes, ofBytes, this]
  | succ n ih =>
    have h2 : x / 256 < 2 ^ (8 * n) := by
      rw [Nat.div_lt_iff_lt_mul (by decide)]
      calc x < 2 ^ (8 * (n + 1)) := h
        _ = 2 ^ (8 * n) * 256 := by rw [show 8 * (n + 1) = 8 * n + 8 by ring, pow_add]; norm_num
    simp only [toBytes, ofBytes, ih h2, BitVec.toNat_ofNat]
    omega

/-! ## Sorting -/

/-- An element put into a list is the only change of its contents. -/
theorem insertInto_perm {α : Type} (le : α → α → Bool) (x : α) (l : List α) : (insertInto le x l).Perm (x :: l) := by
  induction l with
  | nil => exact .refl _
  | cons y t ih =>
    rw [insertInto]
    split
    · exact .refl _
    · exact (ih.cons y).trans (.swap x y t)

/-- Sorting changes the order alone. -/
theorem sortList_perm {α : Type} (le : α → α → Bool) (l : List α) : (sortList le l).Perm l := by
  induction l with
  | nil => exact .refl _
  | cons x t ih => exact (insertInto_perm le x _).trans (ih.cons x)

/-- The members of a list stay its members. -/
@[simp] theorem mem_sortList {α : Type} {le : α → α → Bool} {l : List α} {x : α} : x ∈ sortList le l ↔ x ∈ l :=
  (sortList_perm le l).mem_iff

end Sys2Proof.Machine
end

