-- ==== Sys2Proof/Laws/PerInstr.lean ====
section
/-! SUPPORT. Statements about every instruction, one lemma for each constructor of Instr. -/

open Sys2Proof

/-- The encoder gives words to the instructions of the opcode table that have an encoding, and to no operation or event. -/
def Sys2Proof.Laws.Shape.Statement (i : Instr) : Prop := i.isWord = true ↔ encode i ≠ []

/-- The term has words. -/
theorem Sys2Proof.Laws.Shape.word {i : Instr} (h : i.isWord = true) (e : encode i ≠ []) : Sys2Proof.Laws.Shape.Statement i :=
  ⟨fun _ => e, fun _ => h⟩

/-- The term has none. -/
theorem Sys2Proof.Laws.Shape.event {i : Instr} (h : i.isWord = false) (e : encode i = []) : Sys2Proof.Laws.Shape.Statement i :=
  ⟨fun w => by simp [h] at w, fun w => absurd e w⟩

open Sys2Proof.Laws.Shape (Statement word event)

theorem Sys2Proof.Laws.Shape.add (d a b : GReg) : Statement (.add d a b) := word rfl (List.cons_ne_nil _ _)
theorem Sys2Proof.Laws.Shape.sub (d a b : GReg) : Statement (.sub d a b) := word rfl (List.cons_ne_nil _ _)
theorem Sys2Proof.Laws.Shape.addw (d a b : GReg) : Statement (.addw d a b) := word rfl (List.cons_ne_nil _ _)
theorem Sys2Proof.Laws.Shape.subw (d a b : GReg) : Statement (.subw d a b) := word rfl (List.cons_ne_nil _ _)
theorem Sys2Proof.Laws.Shape.mul (d a b : GReg) : Statement (.mul d a b) := word rfl (List.cons_ne_nil _ _)
theorem Sys2Proof.Laws.Shape.mulh (d a b : GReg) : Statement (.mulh d a b) := word rfl (List.cons_ne_nil _ _)
theorem Sys2Proof.Laws.Shape.mulhn (d a b : GReg) : Statement (.mulhn d a b) := word rfl (List.cons_ne_nil _ _)
theorem Sys2Proof.Laws.Shape.div (d a b : GReg) : Statement (.div d a b) := word rfl (List.cons_ne_nil _ _)
theorem Sys2Proof.Laws.Shape.divn (d a b : GReg) : Statement (.divn d a b) := word rfl (List.cons_ne_nil _ _)
theorem Sys2Proof.Laws.Shape.rem (d a b : GReg) : Statement (.rem d a b) := word rfl (List.cons_ne_nil _ _)
theorem Sys2Proof.Laws.Shape.remn (d a b : GReg) : Statement (.remn d a b) := word rfl (List.cons_ne_nil _ _)
theorem Sys2Proof.Laws.Shape.lea (d a b : GReg) (c : Fin 32) : Statement (.lea d a b c) := word rfl (List.cons_ne_nil _ _)
theorem Sys2Proof.Laws.Shape.and (d a b : GReg) : Statement (.and d a b) := word rfl (List.cons_ne_nil _ _)
theorem Sys2Proof.Laws.Shape.or (d a b : GReg) : Statement (.or d a b) := word rfl (List.cons_ne_nil _ _)
theorem Sys2Proof.Laws.Shape.xor (d a b : GReg) : Statement (.xor d a b) := word rfl (List.cons_ne_nil _ _)
theorem Sys2Proof.Laws.Shape.andn (d a b : GReg) : Statement (.andn d a b) := word rfl (List.cons_ne_nil _ _)
theorem Sys2Proof.Laws.Shape.orn (d a b : GReg) : Statement (.orn d a b) := word rfl (List.cons_ne_nil _ _)
theorem Sys2Proof.Laws.Shape.shl (d a b : GReg) : Statement (.shl d a b) := word rfl (List.cons_ne_nil _ _)
theorem Sys2Proof.Laws.Shape.shr (d a b : GReg) : Statement (.shr d a b) := word rfl (List.cons_ne_nil _ _)
theorem Sys2Proof.Laws.Shape.sra (d a b : GReg) : Statement (.sra d a b) := word rfl (List.cons_ne_nil _ _)
theorem Sys2Proof.Laws.Shape.rotr (d a b : GReg) : Statement (.rotr d a b) := word rfl (List.cons_ne_nil _ _)
theorem Sys2Proof.Laws.Shape.min (d a b : GReg) : Statement (.min d a b) := word rfl (List.cons_ne_nil _ _)
theorem Sys2Proof.Laws.Shape.max (d a b : GReg) : Statement (.max d a b) := word rfl (List.cons_ne_nil _ _)
theorem Sys2Proof.Laws.Shape.minn (d a b : GReg) : Statement (.minn d a b) := word rfl (List.cons_ne_nil _ _)
theorem Sys2Proof.Laws.Shape.maxn (d a b : GReg) : Statement (.maxn d a b) := word rfl (List.cons_ne_nil _ _)
theorem Sys2Proof.Laws.Shape.seq (d a b : GReg) : Statement (.seq d a b) := word rfl (List.cons_ne_nil _ _)
theorem Sys2Proof.Laws.Shape.sne (d a b : GReg) : Statement (.sne d a b) := word rfl (List.cons_ne_nil _ _)
theorem Sys2Proof.Laws.Shape.slt (d a b : GReg) : Statement (.slt d a b) := word rfl (List.cons_ne_nil _ _)
theorem Sys2Proof.Laws.Shape.sltn (d a b : GReg) : Statement (.sltn d a b) := word rfl (List.cons_ne_nil _ _)
theorem Sys2Proof.Laws.Shape.sle (d a b : GReg) : Statement (.sle d a b) := word rfl (List.cons_ne_nil _ _)
theorem Sys2Proof.Laws.Shape.slen (d a b : GReg) : Statement (.slen d a b) := word rfl (List.cons_ne_nil _ _)
theorem Sys2Proof.Laws.Shape.csel (d a b c : GReg) : Statement (.csel d a b c) := word rfl (List.cons_ne_nil _ _)
theorem Sys2Proof.Laws.Shape.clz (d a : GReg) : Statement (.clz d a) := word rfl (List.cons_ne_nil _ _)
theorem Sys2Proof.Laws.Shape.ctz (d a : GReg) : Statement (.ctz d a) := word rfl (List.cons_ne_nil _ _)
theorem Sys2Proof.Laws.Shape.popc (d a : GReg) : Statement (.popc d a) := word rfl (List.cons_ne_nil _ _)
theorem Sys2Proof.Laws.Shape.brev (d a : GReg) : Statement (.brev d a) := word rfl (List.cons_ne_nil _ _)
theorem Sys2Proof.Laws.Shape.bswap (d a : GReg) : Statement (.bswap d a) := word rfl (List.cons_ne_nil _ _)
theorem Sys2Proof.Laws.Shape.addi (d a : GReg) (imm : BitVec 16) : Statement (.addi d a imm) := word rfl (List.cons_ne_nil _ _)
theorem Sys2Proof.Laws.Shape.andi (d a : GReg) (imm : BitVec 16) : Statement (.andi d a imm) := word rfl (List.cons_ne_nil _ _)
theorem Sys2Proof.Laws.Shape.ori (d a : GReg) (imm : BitVec 16) : Statement (.ori d a imm) := word rfl (List.cons_ne_nil _ _)
theorem Sys2Proof.Laws.Shape.xori (d a : GReg) (imm : BitVec 16) : Statement (.xori d a imm) := word rfl (List.cons_ne_nil _ _)
theorem Sys2Proof.Laws.Shape.shli (d a : GReg) (n : Fin 64) : Statement (.shli d a n) := word rfl (List.cons_ne_nil _ _)
theorem Sys2Proof.Laws.Shape.shri (d a : GReg) (n : Fin 64) : Statement (.shri d a n) := word rfl (List.cons_ne_nil _ _)
theorem Sys2Proof.Laws.Shape.srai (d a : GReg) (n : Fin 64) : Statement (.srai d a n) := word rfl (List.cons_ne_nil _ _)
theorem Sys2Proof.Laws.Shape.slti (d a : GReg) (imm : BitVec 16) : Statement (.slti d a imm) := word rfl (List.cons_ne_nil _ _)
theorem Sys2Proof.Laws.Shape.sltni (d a : GReg) (imm : BitVec 16) : Statement (.sltni d a imm) := word rfl (List.cons_ne_nil _ _)
theorem Sys2Proof.Laws.Shape.movhi (d : GReg) (imm : BitVec 16) : Statement (.movhi d imm) := word rfl (List.cons_ne_nil _ _)
theorem Sys2Proof.Laws.Shape.bext (d a : GReg) (len1 pos : Fin 64) : Statement (.bext d a len1 pos) := word rfl (List.cons_ne_nil _ _)
theorem Sys2Proof.Laws.Shape.bins (d a : GReg) (len1 pos : Fin 64) : Statement (.bins d a len1 pos) := word rfl (List.cons_ne_nil _ _)
theorem Sys2Proof.Laws.Shape.addl (d a : GReg) (imm : BitVec 36) : Statement (.addl d a imm) := word rfl (List.cons_ne_nil _ _)
theorem Sys2Proof.Laws.Shape.catl (d a : GReg) (imm : BitVec 36) : Statement (.catl d a imm) := word rfl (List.cons_ne_nil _ _)
theorem Sys2Proof.Laws.Shape.ld (d a : GReg) (z : Fin 8) (off : BitVec 13) : Statement (.ld d a z off) := word rfl (List.cons_ne_nil _ _)
theorem Sys2Proof.Laws.Shape.ldn (d a : GReg) (z : Fin 8) (off : BitVec 13) : Statement (.ldn d a z off) := word rfl (List.cons_ne_nil _ _)
theorem Sys2Proof.Laws.Shape.st (v a : GReg) (z : Fin 8) (off : BitVec 13) : Statement (.st v a z off) := word rfl (List.cons_ne_nil _ _)
theorem Sys2Proof.Laws.Shape.gld (d a : GReg) (z : Fin 8) (off : BitVec 13) : Statement (.gld d a z off) := word rfl (List.cons_ne_nil _ _)
theorem Sys2Proof.Laws.Shape.gldn (d a : GReg) (z : Fin 8) (off : BitVec 13) : Statement (.gldn d a z off) := word rfl (List.cons_ne_nil _ _)
theorem Sys2Proof.Laws.Shape.gst (v a : GReg) (z : Fin 8) (off : BitVec 13) : Statement (.gst v a z off) := word rfl (List.cons_ne_nil _ _)
theorem Sys2Proof.Laws.Shape.b (disp : BitVec 26) : Statement (.b disp) := word rfl (List.cons_ne_nil _ _)
theorem Sys2Proof.Laws.Shape.bl (disp : BitVec 26) : Statement (.bl disp) := word rfl (List.cons_ne_nil _ _)
theorem Sys2Proof.Laws.Shape.beq (a b : GReg) (disp : BitVec 16) : Statement (.beq a b disp) := word rfl (List.cons_ne_nil _ _)
theorem Sys2Proof.Laws.Shape.bne (a b : GReg) (disp : BitVec 16) : Statement (.bne a b disp) := word rfl (List.cons_ne_nil _ _)
theorem Sys2Proof.Laws.Shape.blt (a b : GReg) (disp : BitVec 16) : Statement (.blt a b disp) := word rfl (List.cons_ne_nil _ _)
theorem Sys2Proof.Laws.Shape.bge (a b : GReg) (disp : BitVec 16) : Statement (.bge a b disp) := word rfl (List.cons_ne_nil _ _)
theorem Sys2Proof.Laws.Shape.bltn (a b : GReg) (disp : BitVec 16) : Statement (.bltn a b disp) := word rfl (List.cons_ne_nil _ _)
theorem Sys2Proof.Laws.Shape.bgen (a b : GReg) (disp : BitVec 16) : Statement (.bgen a b disp) := word rfl (List.cons_ne_nil _ _)
theorem Sys2Proof.Laws.Shape.jr (v : GReg) (disp : BitVec 16) : Statement (.jr v disp) := word rfl (List.cons_ne_nil _ _)
theorem Sys2Proof.Laws.Shape.jlr (v : GReg) (disp : BitVec 16) : Statement (.jlr v disp) := word rfl (List.cons_ne_nil _ _)
theorem Sys2Proof.Laws.Shape.bmany (v : MReg) (disp : BitVec 16) : Statement (.bmany v disp) := word rfl (List.cons_ne_nil _ _)
theorem Sys2Proof.Laws.Shape.bmnone (v : MReg) (disp : BitVec 16) : Statement (.bmnone v disp) := word rfl (List.cons_ne_nil _ _)
theorem Sys2Proof.Laws.Shape.nop : Statement .nop := word rfl (List.cons_ne_nil _ _)
theorem Sys2Proof.Laws.Shape.trap (x : BitVec 12) : Statement (.trap x) := word rfl (List.cons_ne_nil _ _)
theorem Sys2Proof.Laws.Shape.sysc (x : BitVec 12) : Statement (.sysc x) := word rfl (List.cons_ne_nil _ _)
theorem Sys2Proof.Laws.Shape.brk (x : BitVec 12) : Statement (.brk x) := word rfl (List.cons_ne_nil _ _)
theorem Sys2Proof.Laws.Shape.eret : Statement .eret := word rfl (List.cons_ne_nil _ _)
theorem Sys2Proof.Laws.Shape.idle : Statement .idle := word rfl (List.cons_ne_nil _ _)
theorem Sys2Proof.Laws.Shape.mfs (d : GReg) (x : BitVec 12) : Statement (.mfs d x) := word rfl (List.cons_ne_nil _ _)
theorem Sys2Proof.Laws.Shape.mts (a : GReg) (x : BitVec 12) : Statement (.mts a x) := word rfl (List.cons_ne_nil _ _)
theorem Sys2Proof.Laws.Shape.query (d : GReg) (x : BitVec 12) : Statement (.query d x) := word rfl (List.cons_ne_nil _ _)
theorem Sys2Proof.Laws.Shape.tlbinv (a : GReg) : Statement (.tlbinv a) := word rfl (List.cons_ne_nil _ _)
theorem Sys2Proof.Laws.Shape.tlbinvAll : Statement .tlbinvAll := word rfl (List.cons_ne_nil _ _)
theorem Sys2Proof.Laws.Shape.wait (ld st cp mx ms : Fin 16) : Statement (.wait ld st cp mx ms) := word rfl (List.cons_ne_nil _ _)
theorem Sys2Proof.Laws.Shape.vaddF (d a b : VReg) (k : MReg) : Statement (.vaddF d a b k) := word rfl (List.cons_ne_nil _ _)
theorem Sys2Proof.Laws.Shape.vsubF (d a b : VReg) (k : MReg) : Statement (.vsubF d a b k) := word rfl (List.cons_ne_nil _ _)
theorem Sys2Proof.Laws.Shape.vmulF (d a b : VReg) (k : MReg) : Statement (.vmulF d a b k) := word rfl (List.cons_ne_nil _ _)
theorem Sys2Proof.Laws.Shape.vdivF (d a b : VReg) (k : MReg) : Statement (.vdivF d a b k) := word rfl (List.cons_ne_nil _ _)
theorem Sys2Proof.Laws.Shape.vfma (d a b : VReg) (k : MReg) : Statement (.vfma d a b k) := word rfl (List.cons_ne_nil _ _)
theorem Sys2Proof.Laws.Shape.vfms (d a b : VReg) (k : MReg) : Statement (.vfms d a b k) := word rfl (List.cons_ne_nil _ _)
theorem Sys2Proof.Laws.Shape.vfnma (d a b : VReg) (k : MReg) : Statement (.vfnma d a b k) := word rfl (List.cons_ne_nil _ _)
theorem Sys2Proof.Laws.Shape.vminF (d a b : VReg) (k : MReg) : Statement (.vminF d a b k) := word rfl (List.cons_ne_nil _ _)
theorem Sys2Proof.Laws.Shape.vmaxF (d a b : VReg) (k : MReg) : Statement (.vmaxF d a b k) := word rfl (List.cons_ne_nil _ _)
theorem Sys2Proof.Laws.Shape.vabsF (d a : VReg) (k : MReg) : Statement (.vabsF d a k) := word rfl (List.cons_ne_nil _ _)
theorem Sys2Proof.Laws.Shape.vnegF (d a : VReg) (k : MReg) : Statement (.vnegF d a k) := word rfl (List.cons_ne_nil _ _)
theorem Sys2Proof.Laws.Shape.vsqrt (d a : VReg) (k : MReg) : Statement (.vsqrt d a k) := word rfl (List.cons_ne_nil _ _)
theorem Sys2Proof.Laws.Shape.vrcp (d a : VReg) (k : MReg) : Statement (.vrcp d a k) := word rfl (List.cons_ne_nil _ _)
theorem Sys2Proof.Laws.Shape.vrsq (d a : VReg) (k : MReg) : Statement (.vrsq d a k) := word rfl (List.cons_ne_nil _ _)
theorem Sys2Proof.Laws.Shape.vexp2 (d a : VReg) (k : MReg) : Statement (.vexp2 d a k) := word rfl (List.cons_ne_nil _ _)
theorem Sys2Proof.Laws.Shape.vlog2 (d a : VReg) (k : MReg) : Statement (.vlog2 d a k) := word rfl (List.cons_ne_nil _ _)
theorem Sys2Proof.Laws.Shape.vtanh (d a : VReg) (k : MReg) : Statement (.vtanh d a k) := word rfl (List.cons_ne_nil _ _)
theorem Sys2Proof.Laws.Shape.vaddI (d a b : VReg) (k : MReg) (t : ElemTy) : Statement (.vaddI d a b k t) := word rfl (List.cons_ne_nil _ _)
theorem Sys2Proof.Laws.Shape.vsubI (d a b : VReg) (k : MReg) (t : ElemTy) : Statement (.vsubI d a b k t) := word rfl (List.cons_ne_nil _ _)
theorem Sys2Proof.Laws.Shape.vmulI (d a b : VReg) (k : MReg) (t : ElemTy) : Statement (.vmulI d a b k t) := word rfl (List.cons_ne_nil _ _)
theorem Sys2Proof.Laws.Shape.vminI (d a b : VReg) (k : MReg) (t : ElemTy) : Statement (.vminI d a b k t) := word rfl (List.cons_ne_nil _ _)
theorem Sys2Proof.Laws.Shape.vmaxI (d a b : VReg) (k : MReg) (t : ElemTy) : Statement (.vmaxI d a b k t) := word rfl (List.cons_ne_nil _ _)
theorem Sys2Proof.Laws.Shape.vand (d a b : VReg) (k : MReg) : Statement (.vand d a b k) := word rfl (List.cons_ne_nil _ _)
theorem Sys2Proof.Laws.Shape.vor (d a b : VReg) (k : MReg) : Statement (.vor d a b k) := word rfl (List.cons_ne_nil _ _)
theorem Sys2Proof.Laws.Shape.vxor (d a b : VReg) (k : MReg) : Statement (.vxor d a b k) := word rfl (List.cons_ne_nil _ _)
theorem Sys2Proof.Laws.Shape.vshl (d a b : VReg) (k : MReg) : Statement (.vshl d a b k) := word rfl (List.cons_ne_nil _ _)
theorem Sys2Proof.Laws.Shape.vshr (d a b : VReg) (k : MReg) : Statement (.vshr d a b k) := word rfl (List.cons_ne_nil _ _)
theorem Sys2Proof.Laws.Shape.vsra (d a b : VReg) (k : MReg) : Statement (.vsra d a b k) := word rfl (List.cons_ne_nil _ _)
theorem Sys2Proof.Laws.Shape.vcmpEqF (d : MReg) (a b : VReg) (k : MReg) : Statement (.vcmpEqF d a b k) := word rfl (List.cons_ne_nil _ _)
theorem Sys2Proof.Laws.Shape.vcmpNeF (d : MReg) (a b : VReg) (k : MReg) : Statement (.vcmpNeF d a b k) := word rfl (List.cons_ne_nil _ _)
theorem Sys2Proof.Laws.Shape.vcmpLtF (d : MReg) (a b : VReg) (k : MReg) : Statement (.vcmpLtF d a b k) := word rfl (List.cons_ne_nil _ _)
theorem Sys2Proof.Laws.Shape.vcmpLeF (d : MReg) (a b : VReg) (k : MReg) : Statement (.vcmpLeF d a b k) := word rfl (List.cons_ne_nil _ _)
theorem Sys2Proof.Laws.Shape.vcmpUnF (d : MReg) (a b : VReg) (k : MReg) : Statement (.vcmpUnF d a b k) := word rfl (List.cons_ne_nil _ _)
theorem Sys2Proof.Laws.Shape.vcmpEqI (d : MReg) (a b : VReg) (k : MReg) (t : ElemTy) : Statement (.vcmpEqI d a b k t) := word rfl (List.cons_ne_nil _ _)
theorem Sys2Proof.Laws.Shape.vcmpNeI (d : MReg) (a b : VReg) (k : MReg) (t : ElemTy) : Statement (.vcmpNeI d a b k t) := word rfl (List.cons_ne_nil _ _)
theorem Sys2Proof.Laws.Shape.vcmpLtI (d : MReg) (a b : VReg) (k : MReg) (t : ElemTy) : Statement (.vcmpLtI d a b k t) := word rfl (List.cons_ne_nil _ _)
theorem Sys2Proof.Laws.Shape.vcmpLeI (d : MReg) (a b : VReg) (k : MReg) (t : ElemTy) : Statement (.vcmpLeI d a b k t) := word rfl (List.cons_ne_nil _ _)
theorem Sys2Proof.Laws.Shape.vsel (d a b : VReg) (k : MReg) : Statement (.vsel d a b k) := word rfl (List.cons_ne_nil _ _)
theorem Sys2Proof.Laws.Shape.vbcast (d : VReg) (a : GReg) (k : MReg) : Statement (.vbcast d a k) := word rfl (List.cons_ne_nil _ _)
theorem Sys2Proof.Laws.Shape.vmovs (d : GReg) (a : VReg) (b : GReg) : Statement (.vmovs d a b) := word rfl (List.cons_ne_nil _ _)
theorem Sys2Proof.Laws.Shape.vins (d : VReg) (a b : GReg) : Statement (.vins d a b) := word rfl (List.cons_ne_nil _ _)
theorem Sys2Proof.Laws.Shape.vshuf (d a : VReg) (p : Fin 32) (k : MReg) : Statement (.vshuf d a p k) := word rfl (List.cons_ne_nil _ _)
theorem Sys2Proof.Laws.Shape.vslide (d a : VReg) (b : GReg) (k : MReg) : Statement (.vslide d a b k) := word rfl (List.cons_ne_nil _ _)
theorem Sys2Proof.Laws.Shape.vrng (d : VReg) (k : MReg) : Statement (.vrng d k) := word rfl (List.cons_ne_nil _ _)
theorem Sys2Proof.Laws.Shape.vredsumF (d a : VReg) (k : MReg) : Statement (.vredsumF d a k) := word rfl (List.cons_ne_nil _ _)
theorem Sys2Proof.Laws.Shape.vredmax (d a : VReg) (k : MReg) (t : ElemTy) : Statement (.vredmax d a k t) := word rfl (List.cons_ne_nil _ _)
theorem Sys2Proof.Laws.Shape.vredsumI (d a : VReg) (k : MReg) (t : ElemTy) : Statement (.vredsumI d a k t) := word rfl (List.cons_ne_nil _ _)
theorem Sys2Proof.Laws.Shape.vcvt (d a : VReg) (k : MReg) (src dst : ElemTy) : Statement (.vcvt d a k src dst) := word rfl (List.cons_ne_nil _ _)
theorem Sys2Proof.Laws.Shape.vpackLb (d a : VReg) (f : BlkFmt) (k : MReg) : Statement (.vpackLb d a f k) := word rfl (List.cons_ne_nil _ _)
theorem Sys2Proof.Laws.Shape.vunpkLb (d a : VReg) (f : BlkFmt) (k : MReg) : Statement (.vunpkLb d a f k) := word rfl (List.cons_ne_nil _ _)
theorem Sys2Proof.Laws.Shape.vld (d : VReg) (a : GReg) (k : MReg) (t : ElemTy) : Statement (.vld d a k t) := word rfl (List.cons_ne_nil _ _)
theorem Sys2Proof.Laws.Shape.vst (d : VReg) (a : GReg) (k : MReg) (t : ElemTy) : Statement (.vst d a k t) := word rfl (List.cons_ne_nil _ _)
theorem Sys2Proof.Laws.Shape.vlds (d : VReg) (a b : GReg) (k : MReg) (t : ElemTy) : Statement (.vlds d a b k t) := word rfl (List.cons_ne_nil _ _)
theorem Sys2Proof.Laws.Shape.vsts (d : VReg) (a b : GReg) (k : MReg) (t : ElemTy) : Statement (.vsts d a b k t) := word rfl (List.cons_ne_nil _ _)
theorem Sys2Proof.Laws.Shape.vldg (d : VReg) (a : GReg) (b : VReg) (k : MReg) (t : ElemTy) : Statement (.vldg d a b k t) := word rfl (List.cons_ne_nil _ _)
theorem Sys2Proof.Laws.Shape.vstg (d : VReg) (a : GReg) (b : VReg) (k : MReg) (t : ElemTy) : Statement (.vstg d a b k t) := word rfl (List.cons_ne_nil _ _)
theorem Sys2Proof.Laws.Shape.vldx (d : VReg) (a b : GReg) (k : MReg) (t : ElemTy) : Statement (.vldx d a b k t) := word rfl (List.cons_ne_nil _ _)
theorem Sys2Proof.Laws.Shape.vgld (d : VReg) (a : GReg) (k : MReg) (t : ElemTy) : Statement (.vgld d a k t) := word rfl (List.cons_ne_nil _ _)
theorem Sys2Proof.Laws.Shape.vgst (d : VReg) (a : GReg) (k : MReg) (t : ElemTy) : Statement (.vgst d a k t) := word rfl (List.cons_ne_nil _ _)
theorem Sys2Proof.Laws.Shape.mand (d a b : MReg) : Statement (.mand d a b) := word rfl (List.cons_ne_nil _ _)
theorem Sys2Proof.Laws.Shape.mor (d a b : MReg) : Statement (.mor d a b) := word rfl (List.cons_ne_nil _ _)
theorem Sys2Proof.Laws.Shape.mxor (d a b : MReg) : Statement (.mxor d a b) := word rfl (List.cons_ne_nil _ _)
theorem Sys2Proof.Laws.Shape.mnot (d a : MReg) : Statement (.mnot d a) := word rfl (List.cons_ne_nil _ _)
theorem Sys2Proof.Laws.Shape.mpop (d : GReg) (a : MReg) : Statement (.mpop d a) := word rfl (List.cons_ne_nil _ _)
theorem Sys2Proof.Laws.Shape.mfirst (d : GReg) (a : MReg) : Statement (.mfirst d a) := word rfl (List.cons_ne_nil _ _)
theorem Sys2Proof.Laws.Shape.mset (d : MReg) (a : GReg) : Statement (.mset d a) := word rfl (List.cons_ne_nil _ _)
theorem Sys2Proof.Laws.Shape.mlane (d : MReg) (a : GReg) : Statement (.mlane d a) := word rfl (List.cons_ne_nil _ _)
theorem Sys2Proof.Laws.Shape.vsetvl (d a : GReg) : Statement (.vsetvl d a) := word rfl (List.cons_ne_nil _ _)
theorem Sys2Proof.Laws.Shape.mcfg (r : Fin 8) (a : GReg) : Statement (.mcfg r a) := word rfl (List.cons_ne_nil _ _)
theorem Sys2Proof.Laws.Shape.mloadb (a b : GReg) : Statement (.mloadb a b) := word rfl (List.cons_ne_nil _ _)
theorem Sys2Proof.Laws.Shape.mzero (b : GReg) : Statement (.mzero b) := word rfl (List.cons_ne_nil _ _)
theorem Sys2Proof.Laws.Shape.mma (a b : GReg) : Statement (.mma a b) := word rfl (List.cons_ne_nil _ _)
theorem Sys2Proof.Laws.Shape.mmat (a b : GReg) : Statement (.mmat a b) := word rfl (List.cons_ne_nil _ _)
theorem Sys2Proof.Laws.Shape.macc2s (a b : GReg) (clr : Bool) (f : AccFmt) : Statement (.macc2s a b clr f) := word rfl (List.cons_ne_nil _ _)
theorem Sys2Proof.Laws.Shape.ms2acc (a b : GReg) (f : AccFmt) : Statement (.ms2acc a b f) := word rfl (List.cons_ne_nil _ _)
theorem Sys2Proof.Laws.Shape.mswap (a b : GReg) : Statement (.mswap a b) := word rfl (List.cons_ne_nil _ _)
theorem Sys2Proof.Laws.Shape.mjoin (a : GReg) : Statement (.mjoin a) := word rfl (List.cons_ne_nil _ _)
theorem Sys2Proof.Laws.Shape.mleave : Statement .mleave := word rfl (List.cons_ne_nil _ _)
theorem Sys2Proof.Laws.Shape.shdef (a b : GReg) : Statement (.shdef a b) := word rfl (List.cons_ne_nil _ _)
theorem Sys2Proof.Laws.Shape.shfree (a : GReg) : Statement (.shfree a) := word rfl (List.cons_ne_nil _ _)
theorem Sys2Proof.Laws.Shape.shrdy (a : GReg) : Statement (.shrdy a) := word rfl (List.cons_ne_nil _ _)
theorem Sys2Proof.Laws.Shape.shstat (d a : GReg) (word1 : Bool) : Statement (.shstat d a word1) := word rfl (List.cons_ne_nil _ _)
theorem Sys2Proof.Laws.Shape.shset (a b : GReg) (n : Fin 64) : Statement (.shset a b n) := word rfl (List.cons_ne_nil _ _)
theorem Sys2Proof.Laws.Shape.cpin (a b : GReg) (sc : Scope) (acq xp : Bool) : Statement (.cpin a b sc acq xp) := word rfl (List.cons_ne_nil _ _)
theorem Sys2Proof.Laws.Shape.cpout (a b : GReg) (sc : Scope) (rel : Bool) : Statement (.cpout a b sc rel) := word rfl (List.cons_ne_nil _ _)
theorem Sys2Proof.Laws.Shape.cpdeal (a b : GReg) (sc : Scope) (acq xp : Bool) : Statement (.cpdeal a b sc acq xp) := word rfl (List.cons_ne_nil _ _)
theorem Sys2Proof.Laws.Shape.cpt (a b : GReg) (xp : Bool) : Statement (.cpt a b xp) := word rfl (List.cons_ne_nil _ _)
theorem Sys2Proof.Laws.Shape.send (a b : GReg) (sc : Scope) (rel : Bool) : Statement (.send a b sc rel) := word rfl (List.cons_ne_nil _ _)
theorem Sys2Proof.Laws.Shape.sendv (a : GReg) (b : VReg) (sc : Scope) (rel : Bool) : Statement (.sendv a b sc rel) := word rfl (List.cons_ne_nil _ _)
theorem Sys2Proof.Laws.Shape.bind (c : Fin 64) (a : GReg) : Statement (.bind c a) := word rfl (List.cons_ne_nil _ _)
theorem Sys2Proof.Laws.Shape.unbind (c : Fin 64) : Statement (.unbind c) := word rfl (List.cons_ne_nil _ _)
theorem Sys2Proof.Laws.Shape.chmask (a b : GReg) : Statement (.chmask a b) := word rfl (List.cons_ne_nil _ _)
theorem Sys2Proof.Laws.Shape.done (a : GReg) (fin keep : Bool) : Statement (.done a fin keep) := word rfl (List.cons_ne_nil _ _)
theorem Sys2Proof.Laws.Shape.inrd (d a : GReg) (cur : Bool) : Statement (.inrd d a cur) := word rfl (List.cons_ne_nil _ _)
theorem Sys2Proof.Laws.Shape.inskip (d : GReg) : Statement (.inskip d) := word rfl (List.cons_ne_nil _ _)
theorem Sys2Proof.Laws.Shape.callat (a b : GReg) (sc : Scope) (rel : Bool) : Statement (.callat a b sc rel) := word rfl (List.cons_ne_nil _ _)
theorem Sys2Proof.Laws.Shape.cadd (a b : GReg) (sc : Scope) (rel : Bool) : Statement (.cadd a b sc rel) := word rfl (List.cons_ne_nil _ _)
theorem Sys2Proof.Laws.Shape.cwait (a b : GReg) (sc : Scope) (acq nopend : Bool) (texp : Fin 32) : Statement (.cwait a b sc acq nopend texp) := word rfl (List.cons_ne_nil _ _)
theorem Sys2Proof.Laws.Shape.crd (d a : GReg) (pend : Bool) : Statement (.crd d a pend) := word rfl (List.cons_ne_nil _ _)
theorem Sys2Proof.Laws.Shape.cexp (a b : GReg) : Statement (.cexp a b) := word rfl (List.cons_ne_nil _ _)
theorem Sys2Proof.Laws.Shape.cset (a b : GReg) : Statement (.cset a b) := word rfl (List.cons_ne_nil _ _)
theorem Sys2Proof.Laws.Shape.axchg (a b : GReg) (dw : Bool) : Statement (.axchg a b dw) := word rfl (List.cons_ne_nil _ _)
theorem Sys2Proof.Laws.Shape.acas (a b c : GReg) (dw : Bool) : Statement (.acas a b c dw) := word rfl (List.cons_ne_nil _ _)
theorem Sys2Proof.Laws.Shape.aadd (a b : GReg) (dw : Bool) : Statement (.aadd a b dw) := word rfl (List.cons_ne_nil _ _)
theorem Sys2Proof.Laws.Shape.amin (a b : GReg) (dw nat : Bool) : Statement (.amin a b dw nat) := word rfl (List.cons_ne_nil _ _)
theorem Sys2Proof.Laws.Shape.amax (a b : GReg) (dw nat : Bool) : Statement (.amax a b dw nat) := word rfl (List.cons_ne_nil _ _)
theorem Sys2Proof.Laws.Shape.radd (a b : GReg) (t : RedTy) : Statement (.radd a b t) := word rfl (List.cons_ne_nil _ _)
theorem Sys2Proof.Laws.Shape.rmin (a b : GReg) (t : RedTy) : Statement (.rmin a b t) := word rfl (List.cons_ne_nil _ _)
theorem Sys2Proof.Laws.Shape.rmax (a b : GReg) (t : RedTy) : Statement (.rmax a b t) := word rfl (List.cons_ne_nil _ _)
theorem Sys2Proof.Laws.Shape.rseal (a b : GReg) : Statement (.rseal a b) := word rfl (List.cons_ne_nil _ _)
theorem Sys2Proof.Laws.Shape.handover (h : HReg) (a b : GReg) (read : Bool) : Statement (.handover h a b read) := word rfl (List.cons_ne_nil _ _)
theorem Sys2Proof.Laws.Shape.hset (h : HReg) (a b : GReg) : Statement (.hset h a b) := word rfl (List.cons_ne_nil _ _)
theorem Sys2Proof.Laws.Shape.fence (acq rel : Bool) (sc : Scope) (hs : BitVec 8) : Statement (.fence acq rel sc hs) := word rfl (List.cons_ne_nil _ _)
theorem Sys2Proof.Laws.Shape.fencea (acq rel : Bool) (sc : Scope) : Statement (.fencea acq rel sc) := word rfl (List.cons_ne_nil _ _)
theorem Sys2Proof.Laws.Shape.gstop (a b : GReg) : Statement (.gstop a b) := word rfl (List.cons_ne_nil _ _)
theorem Sys2Proof.Laws.Shape.gresume (a b : GReg) : Statement (.gresume a b) := word rfl (List.cons_ne_nil _ _)
theorem Sys2Proof.Laws.Shape.asynchronousTrap : Statement .asynchronousTrap := event rfl rfl
theorem Sys2Proof.Laws.Shape.loadArrival (n : Nat) : Statement (.loadArrival n) := event rfl rfl
theorem Sys2Proof.Laws.Shape.globalStoreVisible (n : Nat) : Statement (.globalStoreVisible n) := event rfl rfl
theorem Sys2Proof.Laws.Shape.accessPerformedAtHome (store : Bool) (n lane : Nat) : Statement (.accessPerformedAtHome store n lane) := event rfl rfl
theorem Sys2Proof.Laws.Shape.translationWalk (va : Nat) : Statement (.translationWalk va) := event rfl rfl
theorem Sys2Proof.Laws.Shape.messageArrival (n : Nat) : Statement (.messageArrival n) := event rfl rfl
theorem Sys2Proof.Laws.Shape.msAcknowledgement (n : Nat) : Statement (.msAcknowledgement n) := event rfl rfl
theorem Sys2Proof.Laws.Shape.overflowMove : Statement .overflowMove := event rfl rfl
theorem Sys2Proof.Laws.Shape.waiterRequest : Statement .waiterRequest := event rfl rfl
theorem Sys2Proof.Laws.Shape.counterOperation (src : CtrSource) : Statement (.counterOperation src) := event rfl rfl
theorem Sys2Proof.Laws.Shape.denyBitUpdate (table engine : Nat) : Statement (.denyBitUpdate table engine) := event rfl rfl
theorem Sys2Proof.Laws.Shape.cwaitRelease : Statement .cwaitRelease := event rfl rfl
theorem Sys2Proof.Laws.Shape.cwtimeout : Statement .cwtimeout := event rfl rfl
theorem Sys2Proof.Laws.Shape.atomicApply (n : Nat) : Statement (.atomicApply n) := event rfl rfl
theorem Sys2Proof.Laws.Shape.reductionAccept (n : Nat) : Statement (.reductionAccept n) := event rfl rfl
theorem Sys2Proof.Laws.Shape.sealAccept (n : Nat) : Statement (.sealAccept n) := event rfl rfl
theorem Sys2Proof.Laws.Shape.faultwaitExpiry (asid idx : Nat) : Statement (.faultwaitExpiry asid idx) := event rfl rfl
theorem Sys2Proof.Laws.Shape.fillLanding (n off len : Nat) : Statement (.fillLanding n off len) := event rfl rfl
theorem Sys2Proof.Laws.Shape.releasePoint (n : Nat) : Statement (.releasePoint n) := event rfl rfl
theorem Sys2Proof.Laws.Shape.visibilityPoint (n : Nat) : Statement (.visibilityPoint n) := event rfl rfl
theorem Sys2Proof.Laws.Shape.copyFault (n va : Nat) : Statement (.copyFault n va) := event rfl rfl
theorem Sys2Proof.Laws.Shape.remoteFill (n : Nat) : Statement (.remoteFill n) := event rfl rfl
theorem Sys2Proof.Laws.Shape.mswapPairing (n : Nat) : Statement (.mswapPairing n) := event rfl rfl
theorem Sys2Proof.Laws.Shape.joinNotice (n : Nat) : Statement (.joinNotice n) := event rfl rfl
theorem Sys2Proof.Laws.Shape.mjoinComplete (plan : Nat) : Statement (.mjoinComplete plan) := event rfl rfl
theorem Sys2Proof.Laws.Shape.mmatRowDelivery (n : Nat) : Statement (.mmatRowDelivery n) := event rfl rfl
theorem Sys2Proof.Laws.Shape.leaveNotice (n : Nat) : Statement (.leaveNotice n) := event rfl rfl
theorem Sys2Proof.Laws.Shape.mxOperationStart : Statement .mxOperationStart := event rfl rfl
theorem Sys2Proof.Laws.Shape.mxOperationComplete : Statement .mxOperationComplete := event rfl rfl
theorem Sys2Proof.Laws.Shape.backgroundChecksum (mac : Fin 16) : Statement (.backgroundChecksum mac) := event rfl rfl
theorem Sys2Proof.Laws.Shape.scrub (arr : ArrayAt) (addr : Nat) (res : ScrubResult) : Statement (.scrub arr addr res) := event rfl rfl
theorem Sys2Proof.Laws.Shape.launch (func port : Nat) (data : Option (BitVec 512)) : Statement (.launch func port data) := event rfl rfl
theorem Sys2Proof.Laws.Shape.launchStart (part : Nat) : Statement (.launchStart part) := event rfl rfl
theorem Sys2Proof.Laws.Shape.seed (func : FuncAt) (v : Word) : Statement (.seed func v) := event rfl rfl
theorem Sys2Proof.Laws.Shape.mbdata (func port entry : Nat) (data : Option (BitVec 512)) : Statement (.mbdata func port entry data) := event rfl rfl
theorem Sys2Proof.Laws.Shape.compack (func : FuncAt) (v : Word) : Statement (.compack func v) := event rfl rfl
theorem Sys2Proof.Laws.Shape.completionRecordPost (func : Nat) : Statement (.completionRecordPost func) := event rfl rfl
theorem Sys2Proof.Laws.Shape.treeReport : Statement .treeReport := event rfl rfl
theorem Sys2Proof.Laws.Shape.gangClose (part gid : Nat) : Statement (.gangClose part gid) := event rfl rfl
theorem Sys2Proof.Laws.Shape.retirement (part gid : Nat) : Statement (.retirement part gid) := event rfl rfl
theorem Sys2Proof.Laws.Shape.hostCxlMemRead (port hdm len : Nat) : Statement (.hostCxlMemRead port hdm len) := event rfl rfl
theorem Sys2Proof.Laws.Shape.hostCxlMemWrite (port hdm : Nat) (bytes : List (Option Byte)) : Statement (.hostCxlMemWrite port hdm bytes) := event rfl rfl
theorem Sys2Proof.Laws.Shape.hostWritePerform (port : Nat) : Statement (.hostWritePerform port) := event rfl rfl
theorem Sys2Proof.Laws.Shape.semaRead (m : Nat) : Statement (.semaRead m) := event rfl rfl
theorem Sys2Proof.Laws.Shape.semaWrite (m : Nat) : Statement (.semaWrite m) := event rfl rfl
theorem Sys2Proof.Laws.Shape.unfreeze (m : Nat) (v : Word) : Statement (.unfreeze m v) := event rfl rfl
theorem Sys2Proof.Laws.Shape.controlWindowWrite (m : Nat) (addr : WinAddr) (v : Word) : Statement (.controlWindowWrite m addr v) := event rfl rfl
theorem Sys2Proof.Laws.Shape.papply (m part : Nat) (v : Word) : Statement (.papply m part v) := event rfl rfl
theorem Sys2Proof.Laws.Shape.prepareImage : Statement .prepareImage := event rfl rfl
theorem Sys2Proof.Laws.Shape.dropImage : Statement .dropImage := event rfl rfl
theorem Sys2Proof.Laws.Shape.removeGang : Statement .removeGang := event rfl rfl
theorem Sys2Proof.Laws.Shape.assignAsid : Statement .assignAsid := event rfl rfl
theorem Sys2Proof.Laws.Shape.selectPlacementTable : Statement .selectPlacementTable := event rfl rfl
theorem Sys2Proof.Laws.Shape.countersignMap : Statement .countersignMap := event rfl rfl
theorem Sys2Proof.Laws.Shape.mode (src : ReqSource) : Statement (.mode src) := event rfl rfl
theorem Sys2Proof.Laws.Shape.modeChangeSwitch (n : Nat) : Statement (.modeChangeSwitch n) := event rfl rfl
theorem Sys2Proof.Laws.Shape.map (src : ReqSource) : Statement (.map src) := event rfl rfl
theorem Sys2Proof.Laws.Shape.unmap (src : ReqSource) : Statement (.unmap src) := event rfl rfl
theorem Sys2Proof.Laws.Shape.resolve (src : ReqSource) : Statement (.resolve src) := event rfl rfl
theorem Sys2Proof.Laws.Shape.abandon (src : ReqSource) : Statement (.abandon src) := event rfl rfl
theorem Sys2Proof.Laws.Shape.freectr (src : ReqSource) : Statement (.freectr src) := event rfl rfl
theorem Sys2Proof.Laws.Shape.handoverPerform (n : Nat) : Statement (.handoverPerform n) := event rfl rfl
theorem Sys2Proof.Laws.Shape.gangStopComplete (part gid : Nat) : Statement (.gangStopComplete part gid) := event rfl rfl
theorem Sys2Proof.Laws.Shape.prepare (part gid tr : Nat) : Statement (.prepare part gid tr) := event rfl rfl
theorem Sys2Proof.Laws.Shape.commit (part gid tr : Nat) : Statement (.commit part gid tr) := event rfl rfl
theorem Sys2Proof.Laws.Shape.abort (part gid tr : Nat) : Statement (.abort part gid tr) := event rfl rfl
theorem Sys2Proof.Laws.Shape.versionChangeComplete (part gid : Nat) : Statement (.versionChangeComplete part gid) := event rfl rfl
theorem Sys2Proof.Laws.Shape.demandSwap (part : Nat) : Statement (.demandSwap part) := event rfl rfl
theorem Sys2Proof.Laws.Shape.quiesceComplete : Statement .quiesceComplete := event rfl rfl
theorem Sys2Proof.Laws.Shape.swapIn : Statement .swapIn := event rfl rfl
theorem Sys2Proof.Laws.Shape.wholeGangSwap (part gid : Nat) : Statement (.wholeGangSwap part gid) := event rfl rfl
theorem Sys2Proof.Laws.Shape.proxyWaiterRelease : Statement .proxyWaiterRelease := event rfl rfl
theorem Sys2Proof.Laws.Shape.packetRouting (site port lane : Nat) : Statement (.packetRouting site port lane) := event rfl rfl
theorem Sys2Proof.Laws.Shape.timeoutDetector (site port lane : Nat) : Statement (.timeoutDetector site port lane) := event rfl rfl
theorem Sys2Proof.Laws.Shape.ridgeToken : Statement .ridgeToken := event rfl rfl
theorem Sys2Proof.Laws.Shape.gutterDelivery (site port : Nat) : Statement (.gutterDelivery site port) := event rfl rfl
theorem Sys2Proof.Laws.Shape.syncPulse (site : Nat) : Statement (.syncPulse site) := event rfl rfl
theorem Sys2Proof.Laws.Shape.tdetcfg (v : Nat) : Statement (.tdetcfg v) := event rfl rfl
theorem Sys2Proof.Laws.Shape.budgetInterval : Statement .budgetInterval := event rfl rfl
theorem Sys2Proof.Laws.Shape.stepChange : Statement .stepChange := event rfl rfl
theorem Sys2Proof.Laws.Shape.stepPauseEnd : Statement .stepPauseEnd := event rfl rfl
theorem Sys2Proof.Laws.Shape.fetchdutyUpdate : Statement .fetchdutyUpdate := event rfl rfl
theorem Sys2Proof.Laws.Shape.telemetrySample (freq volt : Nat) : Statement (.telemetrySample freq volt) := event rfl rfl
theorem Sys2Proof.Laws.Shape.lossSample : Statement .lossSample := event rfl rfl
theorem Sys2Proof.Laws.Shape.shedStop (part gid : Nat) : Statement (.shedStop part gid) := event rfl rfl
theorem Sys2Proof.Laws.Shape.graceExpiry : Statement .graceExpiry := event rfl rfl
theorem Sys2Proof.Laws.Shape.pcap (func : FuncAt) (v : Nat) : Statement (.pcap func v) := event rfl rfl
theorem Sys2Proof.Laws.Shape.pboost (func : FuncAt) (v : Nat) : Statement (.pboost func v) := event rfl rfl
theorem Sys2Proof.Laws.Shape.outletTemperatureHigh : Statement .outletTemperatureHigh := event rfl rfl
theorem Sys2Proof.Laws.Shape.thermalShutdown : Statement .thermalShutdown := event rfl rfl
theorem Sys2Proof.Laws.Shape.inputVoltageFault : Statement .inputVoltageFault := event rfl rfl
theorem Sys2Proof.Laws.Shape.powerUp (ctl : Nat) (puf : Bool) : Statement (.powerUp ctl puf) := event rfl rfl
theorem Sys2Proof.Laws.Shape.bootTimeout (ctl : Nat) : Statement (.bootTimeout ctl) := event rfl rfl
theorem Sys2Proof.Laws.Shape.selftest : Statement .selftest := event rfl rfl
theorem Sys2Proof.Laws.Shape.linkDown (m : Nat) : Statement (.linkDown m) := event rfl rfl
theorem Sys2Proof.Laws.Shape.hotReset (m : Nat) : Statement (.hotReset m) := event rfl rfl
theorem Sys2Proof.Laws.Shape.moduleReset : Statement .moduleReset := event rfl rfl
theorem Sys2Proof.Laws.Shape.spdmRequest (nonce : Challenge) : Statement (.spdmRequest nonce) := event rfl rfl
theorem Sys2Proof.Laws.Shape.heartbeatProbe (site : Nat) (reply : Bool) : Statement (.heartbeatProbe site reply) := event rfl rfl
theorem Sys2Proof.Laws.Shape.linkCrcFailure (a b : Nat) : Statement (.linkCrcFailure a b) := event rfl rfl
theorem Sys2Proof.Laws.Shape.salvage (site : Nat) : Statement (.salvage site) := event rfl rfl
theorem Sys2Proof.Laws.Shape.repairRecord : Statement .repairRecord := event rfl rfl
theorem Sys2Proof.Laws.Shape.repairRebuild : Statement .repairRebuild := event rfl rfl
theorem Sys2Proof.Laws.Shape.repairResume : Statement .repairResume := event rfl rfl
theorem Sys2Proof.Laws.Shape.unassignedEncoding (w : W32) (second : Option W32) : Statement (.unassignedEncoding w second) := event rfl rfl
theorem Sys2Proof.Laws.Shape.fetchFault (addr : Word) (ecc : Bool) : Statement (.fetchFault addr ecc) := event rfl rfl
theorem Sys2Proof.Laws.Shape.registerToRegisterWrite (n : Nat) : Statement (.registerToRegisterWrite n) := event rfl rfl
theorem Sys2Proof.Laws.Shape.tileCycle : Statement .tileCycle := event rfl rfl
theorem Sys2Proof.Laws.Shape.waferTimeTick : Statement .waferTimeTick := event rfl rfl
theorem Sys2Proof.Laws.Shape.outletTemperatureNormal : Statement .outletTemperatureNormal := event rfl rfl
theorem Sys2Proof.Laws.Shape.requestKindNotListed (src : ReqSource) : Statement (.requestKindNotListed src) := event rfl rfl
end

