-- ==== Sys2Proof/Laws/State.lean ====
section
/-! SUPPORT. What each update of the state leaves alone, field by field. -/

namespace Sys2Proof.Machine

@[simp] theorem Tile.setG_id (t : Tile) (r : GReg) (x : Word) : (t.setG r x).id = t.id := by
  unfold Tile.setG; split <;> rfl
@[simp] theorem Tile.setG_gang (t : Tile) (r : GReg) (x : Word) : (t.setG r x).gang = t.gang := by
  unfold Tile.setG; split <;> rfl
@[simp] theorem Tile.setG_ex (t : Tile) (r : GReg) (x : Word) : (t.setG r x).ex = t.ex := by
  unfold Tile.setG; split <;> rfl
@[simp] theorem Tile.setG_inb (t : Tile) (r : GReg) (x : Word) : (t.setG r x).inb = t.inb := by
  unfold Tile.setG; split <;> rfl
@[simp] theorem Tile.setG_eng (t : Tile) (r : GReg) (x : Word) : (t.setG r x).eng = t.eng := by
  unfold Tile.setG; split <;> rfl
@[simp] theorem Tile.setG_pad (t : Tile) (r : GReg) (x : Word) : (t.setG r x).pad = t.pad := by
  unfold Tile.setG; split <;> rfl
@[simp] theorem Tile.setG_ops (t : Tile) (r : GReg) (x : Word) : (t.setG r x).ops = t.ops := by
  unfold Tile.setG; split <;> rfl
@[simp] theorem Tile.setG_iss (t : Tile) (r : GReg) (x : Word) : (t.setG r x).iss = t.iss := by
  unfold Tile.setG; split <;> rfl
@[simp] theorem Tile.setG_ni (t : Tile) (r : GReg) (x : Word) : (t.setG r x).ni = t.ni := by
  unfold Tile.setG; split <;> rfl
@[simp] theorem Tile.setG_pl (t : Tile) (r : GReg) (x : Word) : (t.setG r x).pl = t.pl := by
  unfold Tile.setG; split <;> rfl

@[simp] theorem Tile.setM_id (t : Tile) (r : MReg) (x : Mask) : (t.setM r x).id = t.id := by
  unfold Tile.setM; split <;> rfl
@[simp] theorem Tile.setM_gang (t : Tile) (r : MReg) (x : Mask) : (t.setM r x).gang = t.gang := by
  unfold Tile.setM; split <;> rfl
@[simp] theorem Tile.setM_ex (t : Tile) (r : MReg) (x : Mask) : (t.setM r x).ex = t.ex := by
  unfold Tile.setM; split <;> rfl
@[simp] theorem Tile.setM_inb (t : Tile) (r : MReg) (x : Mask) : (t.setM r x).inb = t.inb := by
  unfold Tile.setM; split <;> rfl
@[simp] theorem Tile.setM_eng (t : Tile) (r : MReg) (x : Mask) : (t.setM r x).eng = t.eng := by
  unfold Tile.setM; split <;> rfl
@[simp] theorem Tile.setM_pad (t : Tile) (r : MReg) (x : Mask) : (t.setM r x).pad = t.pad := by
  unfold Tile.setM; split <;> rfl
@[simp] theorem Tile.setM_ops (t : Tile) (r : MReg) (x : Mask) : (t.setM r x).ops = t.ops := by
  unfold Tile.setM; split <;> rfl
@[simp] theorem Tile.setM_iss (t : Tile) (r : MReg) (x : Mask) : (t.setM r x).iss = t.iss := by
  unfold Tile.setM; split <;> rfl
@[simp] theorem Tile.setM_ni (t : Tile) (r : MReg) (x : Mask) : (t.setM r x).ni = t.ni := by
  unfold Tile.setM; split <;> rfl
@[simp] theorem Tile.setM_pl (t : Tile) (r : MReg) (x : Mask) : (t.setM r x).pl = t.pl := by
  unfold Tile.setM; split <;> rfl

@[simp] theorem Tile.setV_id (t : Tile) (r : VReg) (l : Mask) (x : VVal) : (t.setV r l x).id = t.id := rfl
@[simp] theorem Tile.setV_gang (t : Tile) (r : VReg) (l : Mask) (x : VVal) : (t.setV r l x).gang = t.gang := rfl
@[simp] theorem Tile.setV_ex (t : Tile) (r : VReg) (l : Mask) (x : VVal) : (t.setV r l x).ex = t.ex := rfl
@[simp] theorem Tile.setV_inb (t : Tile) (r : VReg) (l : Mask) (x : VVal) : (t.setV r l x).inb = t.inb := rfl
@[simp] theorem Tile.setV_eng (t : Tile) (r : VReg) (l : Mask) (x : VVal) : (t.setV r l x).eng = t.eng := rfl
@[simp] theorem Tile.setV_pad (t : Tile) (r : VReg) (l : Mask) (x : VVal) : (t.setV r l x).pad = t.pad := rfl
@[simp] theorem Tile.setV_ops (t : Tile) (r : VReg) (l : Mask) (x : VVal) : (t.setV r l x).ops = t.ops := rfl
@[simp] theorem Tile.setV_iss (t : Tile) (r : VReg) (l : Mask) (x : VVal) : (t.setV r l x).iss = t.iss := rfl
@[simp] theorem Tile.setV_ni (t : Tile) (r : VReg) (l : Mask) (x : VVal) : (t.setV r l x).ni = t.ni := rfl
@[simp] theorem Tile.setV_pl (t : Tile) (r : VReg) (l : Mask) (x : VVal) : (t.setV r l x).pl = t.pl := rfl

@[simp] theorem Tile.setSh_id (t : Tile) (n : Fin 64) (x : Option Shingle) : (t.setSh n x).id = t.id := rfl
@[simp] theorem Tile.setSh_gang (t : Tile) (n : Fin 64) (x : Option Shingle) : (t.setSh n x).gang = t.gang := rfl
@[simp] theorem Tile.setSh_regs (t : Tile) (n : Fin 64) (x : Option Shingle) : (t.setSh n x).regs = t.regs := rfl
@[simp] theorem Tile.setSh_ex (t : Tile) (n : Fin 64) (x : Option Shingle) : (t.setSh n x).ex = t.ex := rfl
@[simp] theorem Tile.setSh_inb (t : Tile) (n : Fin 64) (x : Option Shingle) : (t.setSh n x).inb = t.inb := rfl
@[simp] theorem Tile.setSh_pad (t : Tile) (n : Fin 64) (x : Option Shingle) : (t.setSh n x).pad = t.pad := rfl
@[simp] theorem Tile.setSh_ops (t : Tile) (n : Fin 64) (x : Option Shingle) : (t.setSh n x).ops = t.ops := rfl
@[simp] theorem Tile.setSh_iss (t : Tile) (n : Fin 64) (x : Option Shingle) : (t.setSh n x).iss = t.iss := rfl
@[simp] theorem Tile.setSh_ni (t : Tile) (n : Fin 64) (x : Option Shingle) : (t.setSh n x).ni = t.ni := rfl
@[simp] theorem Tile.setSh_pl (t : Tile) (n : Fin 64) (x : Option Shingle) : (t.setSh n x).pl = t.pl := rfl

@[simp] theorem Tile.event_id (t : Tile) (e n : Nat) : (t.event e n).id = t.id := rfl
@[simp] theorem Tile.event_gang (t : Tile) (e n : Nat) : (t.event e n).gang = t.gang := rfl
@[simp] theorem Tile.event_ex (t : Tile) (e n : Nat) : (t.event e n).ex = t.ex := rfl
@[simp] theorem Tile.event_inb (t : Tile) (e n : Nat) : (t.event e n).inb = t.inb := rfl
@[simp] theorem Tile.event_eng (t : Tile) (e n : Nat) : (t.event e n).eng = t.eng := rfl
@[simp] theorem Tile.event_pad (t : Tile) (e n : Nat) : (t.event e n).pad = t.pad := rfl
@[simp] theorem Tile.event_ops (t : Tile) (e n : Nat) : (t.event e n).ops = t.ops := rfl
@[simp] theorem Tile.event_iss (t : Tile) (e n : Nat) : (t.event e n).iss = t.iss := rfl
@[simp] theorem Tile.event_ni (t : Tile) (e n : Nat) : (t.event e n).ni = t.ni := rfl
@[simp] theorem Tile.event_pl (t : Tile) (e n : Nat) : (t.event e n).pl = t.pl := rfl

@[simp] theorem Tile.eventIf_id (t : Tile) (b : Bool) (e : Nat) : (t.eventIf b e).id = t.id := by
  unfold Tile.eventIf; split <;> rfl
@[simp] theorem Tile.eventIf_gang (t : Tile) (b : Bool) (e : Nat) : (t.eventIf b e).gang = t.gang := by
  unfold Tile.eventIf; split <;> rfl
@[simp] theorem Tile.eventIf_ex (t : Tile) (b : Bool) (e : Nat) : (t.eventIf b e).ex = t.ex := by
  unfold Tile.eventIf; split <;> rfl
@[simp] theorem Tile.eventIf_inb (t : Tile) (b : Bool) (e : Nat) : (t.eventIf b e).inb = t.inb := by
  unfold Tile.eventIf; split <;> rfl
@[simp] theorem Tile.eventIf_eng (t : Tile) (b : Bool) (e : Nat) : (t.eventIf b e).eng = t.eng := by
  unfold Tile.eventIf; split <;> rfl
@[simp] theorem Tile.eventIf_pad (t : Tile) (b : Bool) (e : Nat) : (t.eventIf b e).pad = t.pad := by
  unfold Tile.eventIf; split <;> rfl
@[simp] theorem Tile.eventIf_ops (t : Tile) (b : Bool) (e : Nat) : (t.eventIf b e).ops = t.ops := by
  unfold Tile.eventIf; split <;> rfl
@[simp] theorem Tile.eventIf_iss (t : Tile) (b : Bool) (e : Nat) : (t.eventIf b e).iss = t.iss := by
  unfold Tile.eventIf; split <;> rfl
@[simp] theorem Tile.eventIf_ni (t : Tile) (b : Bool) (e : Nat) : (t.eventIf b e).ni = t.ni := by
  unfold Tile.eventIf; split <;> rfl
@[simp] theorem Tile.eventIf_pl (t : Tile) (b : Bool) (e : Nat) : (t.eventIf b e).pl = t.pl := by
  unfold Tile.eventIf; split <;> rfl

@[simp] theorem Tile.occupy_id (t : Tile) (k : UnitKind) (o : Nat) : (t.occupy k o).id = t.id := rfl
@[simp] theorem Tile.occupy_gang (t : Tile) (k : UnitKind) (o : Nat) : (t.occupy k o).gang = t.gang := rfl
@[simp] theorem Tile.occupy_regs (t : Tile) (k : UnitKind) (o : Nat) : (t.occupy k o).regs = t.regs := rfl
@[simp] theorem Tile.occupy_ex (t : Tile) (k : UnitKind) (o : Nat) : (t.occupy k o).ex = t.ex := rfl
@[simp] theorem Tile.occupy_inb (t : Tile) (k : UnitKind) (o : Nat) : (t.occupy k o).inb = t.inb := rfl
@[simp] theorem Tile.occupy_eng (t : Tile) (k : UnitKind) (o : Nat) : (t.occupy k o).eng = t.eng := rfl
@[simp] theorem Tile.occupy_pad (t : Tile) (k : UnitKind) (o : Nat) : (t.occupy k o).pad = t.pad := rfl
@[simp] theorem Tile.occupy_ops (t : Tile) (k : UnitKind) (o : Nat) : (t.occupy k o).ops = t.ops := rfl
@[simp] theorem Tile.occupy_ni (t : Tile) (k : UnitKind) (o : Nat) : (t.occupy k o).ni = t.ni := rfl
@[simp] theorem Tile.occupy_pl (t : Tile) (k : UnitKind) (o : Nat) : (t.occupy k o).pl = t.pl := rfl

@[simp] theorem Tile.fetchPassed_id (t : Tile)  : (t.fetchPassed).id = t.id := rfl
@[simp] theorem Tile.fetchPassed_gang (t : Tile)  : (t.fetchPassed).gang = t.gang := rfl
@[simp] theorem Tile.fetchPassed_regs (t : Tile)  : (t.fetchPassed).regs = t.regs := rfl
@[simp] theorem Tile.fetchPassed_ex (t : Tile)  : (t.fetchPassed).ex = t.ex := rfl
@[simp] theorem Tile.fetchPassed_inb (t : Tile)  : (t.fetchPassed).inb = t.inb := rfl
@[simp] theorem Tile.fetchPassed_eng (t : Tile)  : (t.fetchPassed).eng = t.eng := rfl
@[simp] theorem Tile.fetchPassed_ops (t : Tile)  : (t.fetchPassed).ops = t.ops := rfl
@[simp] theorem Tile.fetchPassed_iss (t : Tile)  : (t.fetchPassed).iss = t.iss := rfl
@[simp] theorem Tile.fetchPassed_ni (t : Tile)  : (t.fetchPassed).ni = t.ni := rfl
@[simp] theorem Tile.fetchPassed_pl (t : Tile)  : (t.fetchPassed).pl = t.pl := rfl

@[simp] theorem Tile.issuedWords_id (t : Tile) (n : Nat) (l : List RegName) : (t.issuedWords n l).id = t.id := by
  simp [Tile.issuedWords]
@[simp] theorem Tile.issuedWords_gang (t : Tile) (n : Nat) (l : List RegName) : (t.issuedWords n l).gang = t.gang := by
  simp [Tile.issuedWords]
@[simp] theorem Tile.issuedWords_inb (t : Tile) (n : Nat) (l : List RegName) : (t.issuedWords n l).inb = t.inb := by
  simp [Tile.issuedWords]
@[simp] theorem Tile.issuedWords_eng (t : Tile) (n : Nat) (l : List RegName) : (t.issuedWords n l).eng = t.eng := by
  simp [Tile.issuedWords]
@[simp] theorem Tile.issuedWords_ops (t : Tile) (n : Nat) (l : List RegName) : (t.issuedWords n l).ops = t.ops := by
  simp [Tile.issuedWords]
@[simp] theorem Tile.issuedWords_ni (t : Tile) (n : Nat) (l : List RegName) : (t.issuedWords n l).ni = t.ni := by
  simp [Tile.issuedWords]
@[simp] theorem Tile.issuedWords_pl (t : Tile) (n : Nat) (l : List RegName) : (t.issuedWords n l).pl = t.pl := by
  simp [Tile.issuedWords]

@[simp] theorem Tile.issued_id (t : Tile) (l : List RegName) : (t.issued l).id = t.id := by
  simp [Tile.issued]
@[simp] theorem Tile.issued_gang (t : Tile) (l : List RegName) : (t.issued l).gang = t.gang := by
  simp [Tile.issued]
@[simp] theorem Tile.issued_inb (t : Tile) (l : List RegName) : (t.issued l).inb = t.inb := by
  simp [Tile.issued]
@[simp] theorem Tile.issued_eng (t : Tile) (l : List RegName) : (t.issued l).eng = t.eng := by
  simp [Tile.issued]
@[simp] theorem Tile.issued_ops (t : Tile) (l : List RegName) : (t.issued l).ops = t.ops := by
  simp [Tile.issued]
@[simp] theorem Tile.issued_ni (t : Tile) (l : List RegName) : (t.issued l).ni = t.ni := by
  simp [Tile.issued]
@[simp] theorem Tile.issued_pl (t : Tile) (l : List RegName) : (t.issued l).pl = t.pl := by
  simp [Tile.issued]

@[simp] theorem Tile.updChan_id (t : Tile) (c : Fin 64) (f : Channel → Channel) : (t.updChan c f).id = t.id := rfl
@[simp] theorem Tile.updChan_gang (t : Tile) (c : Fin 64) (f : Channel → Channel) : (t.updChan c f).gang = t.gang := rfl
@[simp] theorem Tile.updChan_regs (t : Tile) (c : Fin 64) (f : Channel → Channel) : (t.updChan c f).regs = t.regs := rfl
@[simp] theorem Tile.updChan_ex (t : Tile) (c : Fin 64) (f : Channel → Channel) : (t.updChan c f).ex = t.ex := rfl
@[simp] theorem Tile.updChan_eng (t : Tile) (c : Fin 64) (f : Channel → Channel) : (t.updChan c f).eng = t.eng := rfl
@[simp] theorem Tile.updChan_pad (t : Tile) (c : Fin 64) (f : Channel → Channel) : (t.updChan c f).pad = t.pad := rfl
@[simp] theorem Tile.updChan_ops (t : Tile) (c : Fin 64) (f : Channel → Channel) : (t.updChan c f).ops = t.ops := rfl
@[simp] theorem Tile.updChan_iss (t : Tile) (c : Fin 64) (f : Channel → Channel) : (t.updChan c f).iss = t.iss := rfl
@[simp] theorem Tile.updChan_ni (t : Tile) (c : Fin 64) (f : Channel → Channel) : (t.updChan c f).ni = t.ni := rfl
@[simp] theorem Tile.updChan_pl (t : Tile) (c : Fin 64) (f : Channel → Channel) : (t.updChan c f).pl = t.pl := rfl

@[simp] theorem Tile.endCycle_id (t : Tile)  : (t.endCycle).id = t.id := rfl
@[simp] theorem Tile.endCycle_gang (t : Tile)  : (t.endCycle).gang = t.gang := rfl
@[simp] theorem Tile.endCycle_regs (t : Tile)  : (t.endCycle).regs = t.regs := rfl
@[simp] theorem Tile.endCycle_ex (t : Tile)  : (t.endCycle).ex = t.ex := rfl
@[simp] theorem Tile.endCycle_inb (t : Tile)  : (t.endCycle).inb = t.inb := rfl
@[simp] theorem Tile.endCycle_eng (t : Tile)  : (t.endCycle).eng = t.eng := rfl
@[simp] theorem Tile.endCycle_pad (t : Tile)  : (t.endCycle).pad = t.pad := rfl
@[simp] theorem Tile.endCycle_ops (t : Tile)  : (t.endCycle).ops = t.ops := rfl
@[simp] theorem Tile.endCycle_ni (t : Tile)  : (t.endCycle).ni = t.ni := rfl
@[simp] theorem Tile.endCycle_pl (t : Tile)  : (t.endCycle).pl = t.pl := rfl

@[simp] theorem Tile.nextStamp_id (t : Tile)  : (t.nextStamp).id = t.id := rfl
@[simp] theorem Tile.nextStamp_gang (t : Tile)  : (t.nextStamp).gang = t.gang := rfl
@[simp] theorem Tile.nextStamp_regs (t : Tile)  : (t.nextStamp).regs = t.regs := rfl
@[simp] theorem Tile.nextStamp_ex (t : Tile)  : (t.nextStamp).ex = t.ex := rfl
@[simp] theorem Tile.nextStamp_inb (t : Tile)  : (t.nextStamp).inb = t.inb := rfl
@[simp] theorem Tile.nextStamp_eng (t : Tile)  : (t.nextStamp).eng = t.eng := rfl
@[simp] theorem Tile.nextStamp_pad (t : Tile)  : (t.nextStamp).pad = t.pad := rfl
@[simp] theorem Tile.nextStamp_iss (t : Tile)  : (t.nextStamp).iss = t.iss := rfl
@[simp] theorem Tile.nextStamp_ni (t : Tile)  : (t.nextStamp).ni = t.ni := rfl
@[simp] theorem Tile.nextStamp_pl (t : Tile)  : (t.nextStamp).pl = t.pl := rfl

@[simp] theorem Tile.branchTo_id (t : Tile) (a b : Word) : (t.branchTo a b).id = t.id := rfl
@[simp] theorem Tile.branchTo_gang (t : Tile) (a b : Word) : (t.branchTo a b).gang = t.gang := rfl
@[simp] theorem Tile.branchTo_regs (t : Tile) (a b : Word) : (t.branchTo a b).regs = t.regs := rfl
@[simp] theorem Tile.branchTo_inb (t : Tile) (a b : Word) : (t.branchTo a b).inb = t.inb := rfl
@[simp] theorem Tile.branchTo_eng (t : Tile) (a b : Word) : (t.branchTo a b).eng = t.eng := rfl
@[simp] theorem Tile.branchTo_pad (t : Tile) (a b : Word) : (t.branchTo a b).pad = t.pad := rfl
@[simp] theorem Tile.branchTo_ops (t : Tile) (a b : Word) : (t.branchTo a b).ops = t.ops := rfl
@[simp] theorem Tile.branchTo_ni (t : Tile) (a b : Word) : (t.branchTo a b).ni = t.ni := rfl
@[simp] theorem Tile.branchTo_pl (t : Tile) (a b : Word) : (t.branchTo a b).pl = t.pl := rfl

@[simp] theorem Tile.usePages_id (t : Tile) (a n : Nat) : (t.usePages a n).id = t.id := rfl
@[simp] theorem Tile.usePages_gang (t : Tile) (a n : Nat) : (t.usePages a n).gang = t.gang := rfl
@[simp] theorem Tile.usePages_regs (t : Tile) (a n : Nat) : (t.usePages a n).regs = t.regs := rfl
@[simp] theorem Tile.usePages_ex (t : Tile) (a n : Nat) : (t.usePages a n).ex = t.ex := rfl
@[simp] theorem Tile.usePages_inb (t : Tile) (a n : Nat) : (t.usePages a n).inb = t.inb := rfl
@[simp] theorem Tile.usePages_eng (t : Tile) (a n : Nat) : (t.usePages a n).eng = t.eng := rfl
@[simp] theorem Tile.usePages_pad (t : Tile) (a n : Nat) : (t.usePages a n).pad = t.pad := rfl
@[simp] theorem Tile.usePages_ops (t : Tile) (a n : Nat) : (t.usePages a n).ops = t.ops := rfl
@[simp] theorem Tile.usePages_iss (t : Tile) (a n : Nat) : (t.usePages a n).iss = t.iss := rfl
@[simp] theorem Tile.usePages_pl (t : Tile) (a n : Nat) : (t.usePages a n).pl = t.pl := rfl

@[simp] theorem State.upd_others (s : State) (f : Tile → Tile) : (s.upd f).others = s.others := rfl
@[simp] theorem State.upd_turns (s : State) (f : Tile → Tile) : (s.upd f).turns = s.turns := rfl
@[simp] theorem State.upd_drawn (s : State) (f : Tile → Tile) : (s.upd f).drawn = s.drawn := rfl
@[simp] theorem State.upd_mem (s : State) (f : Tile → Tile) : (s.upd f).mem = s.mem := rfl
@[simp] theorem State.upd_sync (s : State) (f : Tile → Tile) : (s.upd f).sync = s.sync := rfl
@[simp] theorem State.upd_fab (s : State) (f : Tile → Tile) : (s.upd f).fab = s.fab := rfl
@[simp] theorem State.upd_gangs (s : State) (f : Tile → Tile) : (s.upd f).gangs = s.gangs := rfl
@[simp] theorem State.upd_parts (s : State) (f : Tile → Tile) : (s.upd f).parts = s.parts := rfl
@[simp] theorem State.upd_host (s : State) (f : Tile → Tile) : (s.upd f).host = s.host := rfl
@[simp] theorem State.upd_power (s : State) (f : Tile → Tile) : (s.upd f).power = s.power := rfl
@[simp] theorem State.upd_svc (s : State) (f : Tile → Tile) : (s.upd f).svc = s.svc := rfl
@[simp] theorem State.upd_tile (s : State) (f : Tile → Tile) : (s.upd f).tile = f s.tile := rfl

@[simp] theorem State.updGang_others (s : State) (p g : Nat) (f : Gang → Gang) : (s.updGang p g f).others = s.others := rfl
@[simp] theorem State.updGang_turns (s : State) (p g : Nat) (f : Gang → Gang) : (s.updGang p g f).turns = s.turns := rfl
@[simp] theorem State.updGang_drawn (s : State) (p g : Nat) (f : Gang → Gang) : (s.updGang p g f).drawn = s.drawn := rfl
@[simp] theorem State.updGang_mem (s : State) (p g : Nat) (f : Gang → Gang) : (s.updGang p g f).mem = s.mem := rfl
@[simp] theorem State.updGang_sync (s : State) (p g : Nat) (f : Gang → Gang) : (s.updGang p g f).sync = s.sync := rfl
@[simp] theorem State.updGang_fab (s : State) (p g : Nat) (f : Gang → Gang) : (s.updGang p g f).fab = s.fab := rfl
@[simp] theorem State.updGang_parts (s : State) (p g : Nat) (f : Gang → Gang) : (s.updGang p g f).parts = s.parts := rfl
@[simp] theorem State.updGang_host (s : State) (p g : Nat) (f : Gang → Gang) : (s.updGang p g f).host = s.host := rfl
@[simp] theorem State.updGang_power (s : State) (p g : Nat) (f : Gang → Gang) : (s.updGang p g f).power = s.power := rfl
@[simp] theorem State.updGang_svc (s : State) (p g : Nat) (f : Gang → Gang) : (s.updGang p g f).svc = s.svc := rfl
@[simp] theorem State.updGang_tile (s : State) (p g : Nat) (f : Gang → Gang) : (s.updGang p g f).tile = s.tile := rfl

@[simp] theorem State.updPart_others (s : State) (p : Nat) (f : Part → Part) : (s.updPart p f).others = s.others := rfl
@[simp] theorem State.updPart_turns (s : State) (p : Nat) (f : Part → Part) : (s.updPart p f).turns = s.turns := rfl
@[simp] theorem State.updPart_drawn (s : State) (p : Nat) (f : Part → Part) : (s.updPart p f).drawn = s.drawn := rfl
@[simp] theorem State.updPart_mem (s : State) (p : Nat) (f : Part → Part) : (s.updPart p f).mem = s.mem := rfl
@[simp] theorem State.updPart_sync (s : State) (p : Nat) (f : Part → Part) : (s.updPart p f).sync = s.sync := rfl
@[simp] theorem State.updPart_fab (s : State) (p : Nat) (f : Part → Part) : (s.updPart p f).fab = s.fab := rfl
@[simp] theorem State.updPart_gangs (s : State) (p : Nat) (f : Part → Part) : (s.updPart p f).gangs = s.gangs := rfl
@[simp] theorem State.updPart_host (s : State) (p : Nat) (f : Part → Part) : (s.updPart p f).host = s.host := rfl
@[simp] theorem State.updPart_power (s : State) (p : Nat) (f : Part → Part) : (s.updPart p f).power = s.power := rfl
@[simp] theorem State.updPart_svc (s : State) (p : Nat) (f : Part → Part) : (s.updPart p f).svc = s.svc := rfl
@[simp] theorem State.updPart_tile (s : State) (p : Nat) (f : Part → Part) : (s.updPart p f).tile = s.tile := rfl

@[simp] theorem State.stall_others (s : State) (e : Nat) : (s.stall e).others = s.others := rfl
@[simp] theorem State.stall_turns (s : State) (e : Nat) : (s.stall e).turns = s.turns := rfl
@[simp] theorem State.stall_drawn (s : State) (e : Nat) : (s.stall e).drawn = s.drawn := rfl
@[simp] theorem State.stall_mem (s : State) (e : Nat) : (s.stall e).mem = s.mem := rfl
@[simp] theorem State.stall_sync (s : State) (e : Nat) : (s.stall e).sync = s.sync := rfl
@[simp] theorem State.stall_fab (s : State) (e : Nat) : (s.stall e).fab = s.fab := rfl
@[simp] theorem State.stall_gangs (s : State) (e : Nat) : (s.stall e).gangs = s.gangs := rfl
@[simp] theorem State.stall_parts (s : State) (e : Nat) : (s.stall e).parts = s.parts := rfl
@[simp] theorem State.stall_host (s : State) (e : Nat) : (s.stall e).host = s.host := rfl
@[simp] theorem State.stall_power (s : State) (e : Nat) : (s.stall e).power = s.power := rfl
@[simp] theorem State.stall_svc (s : State) (e : Nat) : (s.stall e).svc = s.svc := rfl

@[simp] theorem State.draw_others (s : State) : s.draw.2.others = s.others := rfl
@[simp] theorem State.draw_turns (s : State) : s.draw.2.turns = s.turns := rfl
@[simp] theorem State.draw_mem (s : State) : s.draw.2.mem = s.mem := rfl
@[simp] theorem State.draw_sync (s : State) : s.draw.2.sync = s.sync := rfl
@[simp] theorem State.draw_fab (s : State) : s.draw.2.fab = s.fab := rfl
@[simp] theorem State.draw_gangs (s : State) : s.draw.2.gangs = s.gangs := rfl
@[simp] theorem State.draw_parts (s : State) : s.draw.2.parts = s.parts := rfl
@[simp] theorem State.draw_host (s : State) : s.draw.2.host = s.host := rfl
@[simp] theorem State.draw_power (s : State) : s.draw.2.power = s.power := rfl
@[simp] theorem State.draw_svc (s : State) : s.draw.2.svc = s.svc := rfl
@[simp] theorem State.draw_tile (s : State) : s.draw.2.tile = s.tile := rfl

@[simp] theorem State.updPort_others (s : State) (m : Nat) (f : Port → Port) : (s.updPort m f).others = s.others := rfl
@[simp] theorem State.updPort_turns (s : State) (m : Nat) (f : Port → Port) : (s.updPort m f).turns = s.turns := rfl
@[simp] theorem State.updPort_drawn (s : State) (m : Nat) (f : Port → Port) : (s.updPort m f).drawn = s.drawn := rfl
@[simp] theorem State.updPort_mem (s : State) (m : Nat) (f : Port → Port) : (s.updPort m f).mem = s.mem := rfl
@[simp] theorem State.updPort_sync (s : State) (m : Nat) (f : Port → Port) : (s.updPort m f).sync = s.sync := rfl
@[simp] theorem State.updPort_fab (s : State) (m : Nat) (f : Port → Port) : (s.updPort m f).fab = s.fab := rfl
@[simp] theorem State.updPort_gangs (s : State) (m : Nat) (f : Port → Port) : (s.updPort m f).gangs = s.gangs := rfl
@[simp] theorem State.updPort_parts (s : State) (m : Nat) (f : Port → Port) : (s.updPort m f).parts = s.parts := rfl
@[simp] theorem State.updPort_power (s : State) (m : Nat) (f : Port → Port) : (s.updPort m f).power = s.power := rfl
@[simp] theorem State.updPort_svc (s : State) (m : Nat) (f : Port → Port) : (s.updPort m f).svc = s.svc := rfl
@[simp] theorem State.updPort_tile (s : State) (m : Nat) (f : Port → Port) : (s.updPort m f).tile = s.tile := rfl

@[simp] theorem State.updCtrl_others (s : State) (f : Control → Control) : (s.updCtrl f).others = s.others := rfl
@[simp] theorem State.updCtrl_turns (s : State) (f : Control → Control) : (s.updCtrl f).turns = s.turns := rfl
@[simp] theorem State.updCtrl_drawn (s : State) (f : Control → Control) : (s.updCtrl f).drawn = s.drawn := rfl
@[simp] theorem State.updCtrl_mem (s : State) (f : Control → Control) : (s.updCtrl f).mem = s.mem := rfl
@[simp] theorem State.updCtrl_sync (s : State) (f : Control → Control) : (s.updCtrl f).sync = s.sync := rfl
@[simp] theorem State.updCtrl_fab (s : State) (f : Control → Control) : (s.updCtrl f).fab = s.fab := rfl
@[simp] theorem State.updCtrl_gangs (s : State) (f : Control → Control) : (s.updCtrl f).gangs = s.gangs := rfl
@[simp] theorem State.updCtrl_parts (s : State) (f : Control → Control) : (s.updCtrl f).parts = s.parts := rfl
@[simp] theorem State.updCtrl_power (s : State) (f : Control → Control) : (s.updCtrl f).power = s.power := rfl
@[simp] theorem State.updCtrl_svc (s : State) (f : Control → Control) : (s.updCtrl f).svc = s.svc := rfl
@[simp] theorem State.updCtrl_tile (s : State) (f : Control → Control) : (s.updCtrl f).tile = s.tile := rfl

@[simp] theorem State.updErr_others (s : State) (site : Nat) (f : SiteErr → SiteErr) : (s.updErr site f).others = s.others := rfl
@[simp] theorem State.updErr_turns (s : State) (site : Nat) (f : SiteErr → SiteErr) : (s.updErr site f).turns = s.turns := rfl
@[simp] theorem State.updErr_drawn (s : State) (site : Nat) (f : SiteErr → SiteErr) : (s.updErr site f).drawn = s.drawn := rfl
@[simp] theorem State.updErr_mem (s : State) (site : Nat) (f : SiteErr → SiteErr) : (s.updErr site f).mem = s.mem := rfl
@[simp] theorem State.updErr_sync (s : State) (site : Nat) (f : SiteErr → SiteErr) : (s.updErr site f).sync = s.sync := rfl
@[simp] theorem State.updErr_fab (s : State) (site : Nat) (f : SiteErr → SiteErr) : (s.updErr site f).fab = s.fab := rfl
@[simp] theorem State.updErr_gangs (s : State) (site : Nat) (f : SiteErr → SiteErr) : (s.updErr site f).gangs = s.gangs := rfl
@[simp] theorem State.updErr_parts (s : State) (site : Nat) (f : SiteErr → SiteErr) : (s.updErr site f).parts = s.parts := rfl
@[simp] theorem State.updErr_host (s : State) (site : Nat) (f : SiteErr → SiteErr) : (s.updErr site f).host = s.host := rfl
@[simp] theorem State.updErr_power (s : State) (site : Nat) (f : SiteErr → SiteErr) : (s.updErr site f).power = s.power := rfl
@[simp] theorem State.updErr_tile (s : State) (site : Nat) (f : SiteErr → SiteErr) : (s.updErr site f).tile = s.tile := rfl

@[simp] theorem State.attUnc_others (s : State) (site : Nat) : (s.attUnc site).others = s.others := rfl
@[simp] theorem State.attUnc_turns (s : State) (site : Nat) : (s.attUnc site).turns = s.turns := rfl
@[simp] theorem State.attUnc_drawn (s : State) (site : Nat) : (s.attUnc site).drawn = s.drawn := rfl
@[simp] theorem State.attUnc_mem (s : State) (site : Nat) : (s.attUnc site).mem = s.mem := rfl
@[simp] theorem State.attUnc_sync (s : State) (site : Nat) : (s.attUnc site).sync = s.sync := rfl
@[simp] theorem State.attUnc_fab (s : State) (site : Nat) : (s.attUnc site).fab = s.fab := rfl
@[simp] theorem State.attUnc_gangs (s : State) (site : Nat) : (s.attUnc site).gangs = s.gangs := rfl
@[simp] theorem State.attUnc_parts (s : State) (site : Nat) : (s.attUnc site).parts = s.parts := rfl
@[simp] theorem State.attUnc_host (s : State) (site : Nat) : (s.attUnc site).host = s.host := rfl
@[simp] theorem State.attUnc_power (s : State) (site : Nat) : (s.attUnc site).power = s.power := rfl
@[simp] theorem State.attUnc_tile (s : State) (site : Nat) : (s.attUnc site).tile = s.tile := rfl

@[simp] theorem State.updRouter_others (s : State) (site : Nat) (f : Router → Router) : (s.updRouter site f).others = s.others := rfl
@[simp] theorem State.updRouter_turns (s : State) (site : Nat) (f : Router → Router) : (s.updRouter site f).turns = s.turns := rfl
@[simp] theorem State.updRouter_drawn (s : State) (site : Nat) (f : Router → Router) : (s.updRouter site f).drawn = s.drawn := rfl
@[simp] theorem State.updRouter_mem (s : State) (site : Nat) (f : Router → Router) : (s.updRouter site f).mem = s.mem := rfl
@[simp] theorem State.updRouter_sync (s : State) (site : Nat) (f : Router → Router) : (s.updRouter site f).sync = s.sync := rfl
@[simp] theorem State.updRouter_gangs (s : State) (site : Nat) (f : Router → Router) : (s.updRouter site f).gangs = s.gangs := rfl
@[simp] theorem State.updRouter_parts (s : State) (site : Nat) (f : Router → Router) : (s.updRouter site f).parts = s.parts := rfl
@[simp] theorem State.updRouter_host (s : State) (site : Nat) (f : Router → Router) : (s.updRouter site f).host = s.host := rfl
@[simp] theorem State.updRouter_power (s : State) (site : Nat) (f : Router → Router) : (s.updRouter site f).power = s.power := rfl
@[simp] theorem State.updRouter_svc (s : State) (site : Nat) (f : Router → Router) : (s.updRouter site f).svc = s.svc := rfl
@[simp] theorem State.updRouter_tile (s : State) (site : Nat) (f : Router → Router) : (s.updRouter site f).tile = s.tile := rfl

@[simp] theorem State.fetched_others (s : State) : s.fetched.others = s.others := by
  unfold State.fetched; split <;> rfl
@[simp] theorem State.fetched_turns (s : State) : s.fetched.turns = s.turns := by
  unfold State.fetched; split <;> rfl
@[simp] theorem State.fetched_mem (s : State) : s.fetched.mem = s.mem := by
  unfold State.fetched; split <;> rfl
@[simp] theorem State.fetched_sync (s : State) : s.fetched.sync = s.sync := by
  unfold State.fetched; split <;> rfl
@[simp] theorem State.fetched_fab (s : State) : s.fetched.fab = s.fab := by
  unfold State.fetched; split <;> rfl
@[simp] theorem State.fetched_gangs (s : State) : s.fetched.gangs = s.gangs := by
  unfold State.fetched; split <;> rfl
@[simp] theorem State.fetched_parts (s : State) : s.fetched.parts = s.parts := by
  unfold State.fetched; split <;> rfl
@[simp] theorem State.fetched_host (s : State) : s.fetched.host = s.host := by
  unfold State.fetched; split <;> rfl
@[simp] theorem State.fetched_power (s : State) : s.fetched.power = s.power := by
  unfold State.fetched; split <;> rfl
@[simp] theorem State.fetched_svc (s : State) : s.fetched.svc = s.svc := by
  unfold State.fetched; split <;> rfl
@[simp] theorem State.fetched_tile_id (s : State) : s.fetched.tile.id = s.tile.id := by
  unfold State.fetched; split <;> rfl
@[simp] theorem State.fetched_tile_gang (s : State) : s.fetched.tile.gang = s.tile.gang := by
  unfold State.fetched; split <;> rfl
@[simp] theorem State.fetched_tile_regs (s : State) : s.fetched.tile.regs = s.tile.regs := by
  unfold State.fetched; split <;> rfl
@[simp] theorem State.fetched_tile_ex (s : State) : s.fetched.tile.ex = s.tile.ex := by
  unfold State.fetched; split <;> rfl
@[simp] theorem State.fetched_tile_inb (s : State) : s.fetched.tile.inb = s.tile.inb := by
  unfold State.fetched; split <;> rfl
@[simp] theorem State.fetched_tile_eng (s : State) : s.fetched.tile.eng = s.tile.eng := by
  unfold State.fetched; split <;> rfl
@[simp] theorem State.fetched_tile_ops (s : State) : s.fetched.tile.ops = s.tile.ops := by
  unfold State.fetched; split <;> rfl
@[simp] theorem State.fetched_tile_iss (s : State) : s.fetched.tile.iss = s.tile.iss := by
  unfold State.fetched; split <;> rfl
@[simp] theorem State.fetched_tile_ni (s : State) : s.fetched.tile.ni = s.tile.ni := by
  unfold State.fetched; split <;> rfl
@[simp] theorem State.fetched_tile_pl (s : State) : s.fetched.tile.pl = s.tile.pl := by
  unfold State.fetched; split <;> rfl

@[simp] theorem State.later_others (s : State) : s.later.others = s.others := rfl
@[simp] theorem State.later_turns (s : State) : s.later.turns = s.turns := rfl
@[simp] theorem State.later_drawn (s : State) : s.later.drawn = s.drawn := rfl
@[simp] theorem State.later_mem (s : State) : s.later.mem = s.mem := rfl
@[simp] theorem State.later_sync (s : State) : s.later.sync = s.sync := rfl
@[simp] theorem State.later_gangs (s : State) : s.later.gangs = s.gangs := rfl
@[simp] theorem State.later_parts (s : State) : s.later.parts = s.parts := rfl
@[simp] theorem State.later_host (s : State) : s.later.host = s.host := rfl
@[simp] theorem State.later_power (s : State) : s.later.power = s.power := rfl
@[simp] theorem State.later_svc (s : State) : s.later.svc = s.svc := rfl
@[simp] theorem State.later_tile (s : State) : s.later.tile = s.tile := rfl

end Sys2Proof.Machine
end

