-- ==== Sys2Proof/Laws/Regs.lean ====
section
/-! SUPPORT. Registers read after they are written (R11 to R13), and what results, events and issue leave of the registers. -/

namespace Sys2Proof.Machine

/-- An element of a vector after one is set. -/
theorem vget_set {α : Type} {n : Nat} (v : Vector α n) (d r : Fin n) (y : α) :
    (v.set d.val y d.isLt).get r = if r = d then y else v.get r := by
  by_cases e : r = d
  · subst e
    rw [if_pos rfl]
    exact Vector.getElem_set_self ..
  · rw [if_neg e]
    exact Vector.getElem_set_ne d.isLt r.isLt fun h => e (Fin.ext h.symm)

theorem Tile.g_zero (t : Tile) : t.g 0 = 0 := rfl

/-- A scalar register after a write of one (R11). -/
theorem Tile.g_setG (t : Tile) (d r : GReg) (x : Word) : (t.setG d x).g r = if r = d ∧ d ≠ 0 then x else t.g r := by
  unfold Tile.setG Tile.g
  by_cases hd : d = 0
  · simp [hd]
  · rw [if_neg hd]
    by_cases hr : r = 0
    · subst hr
      have : ¬((0 : GReg) = d ∧ d ≠ 0) := fun h => hd h.1.symm
      rw [if_pos rfl, if_neg this, if_pos rfl]
    · rw [if_neg hr, if_neg hr]
      show (Vector.set t.regs.g d.val x d.isLt).get r = _
      rw [vget_set]
      by_cases e : r = d
      · rw [if_pos e, if_pos ⟨e, hd⟩]
      · rw [if_neg e, if_neg fun h => e h.1]

theorem Tile.g_setG_same (t : Tile) (d : GReg) (x : Word) : (t.setG d x).Has d x := by
  unfold Tile.Has
  rw [Tile.g_setG]
  by_cases hd : d = 0
  · subst hd
    rw [if_neg (fun h => h.2 rfl), if_pos rfl, Tile.g_zero]
  · rw [if_pos ⟨rfl, hd⟩, if_neg hd]

/-- A mask register after a write of one (R13). -/
theorem Tile.m_setM (t : Tile) (d r : MReg) (x : Mask) : (t.setM d x).m r = if r = d ∧ d ≠ 0 then x else t.m r := by
  unfold Tile.setM Tile.m
  by_cases hd : d = 0
  · simp [hd]
  · rw [if_neg hd]
    by_cases hr : r = 0
    · subst hr
      have : ¬((0 : MReg) = d ∧ d ≠ 0) := fun h => hd h.1.symm
      rw [if_pos rfl, if_neg this, if_pos rfl]
    · rw [if_neg hr, if_neg hr]
      show (Vector.set t.regs.m d.val x d.isLt).get r = _
      rw [vget_set]
      by_cases e : r = d
      · rw [if_pos e, if_pos ⟨e, hd⟩]
      · rw [if_neg e, if_neg fun h => e h.1]

theorem lanesOf_get (f : Fin 16 → W32) (i : Fin 16) : (lanesOf f).get i = f i := by
  fin_cases i <;> rfl

/-- A vector register after lanes of one are written (R12). -/
theorem Tile.v_setV (t : Tile) (d r : VReg) (l : Mask) (x : VVal) (i : Fin 16) :
    ((t.setV d l x).v r).get i = if r = d ∧ l.getLsbD i.val = true then x.get i else (t.v r).get i := by
  unfold Tile.setV Tile.v
  show ((Vector.set t.regs.v d.val (lanesOf fun i => if l.getLsbD i.val then x.get i else (t.regs.v.get d).get i) d.isLt).get r).get i = _
  rw [vget_set]
  by_cases e : r = d
  · subst e
    rw [if_pos rfl, lanesOf_get]
    by_cases hl : l.getLsbD i.val = true
    · rw [if_pos hl, if_pos ⟨rfl, hl⟩]
    · rw [if_neg hl, if_neg fun h => hl h.2]
  · rw [if_neg e, if_neg fun h => e h.1]

/-! ## Events -/

theorem Tile.event_regs (t : Tile) (e n : Nat) : (t.event e n).regs = { t.regs with perf := (t.event e n).regs.perf } := rfl

theorem Tile.eventIf_regs (t : Tile) (b : Bool) (e : Nat) :
    (t.eventIf b e).regs = { t.regs with perf := (t.eventIf b e).regs.perf } := by
  unfold Tile.eventIf
  split <;> rfl

/-- What an issue of n words leaves of the registers: the PERF counters may count (R252). -/
theorem Tile.issuedWords_regs (t : Tile) (n : Nat) (l : List RegName) :
    (t.issuedWords n l).regs = { t.regs with perf := (t.issuedWords n l).regs.perf } := by
  have h : (t.issuedWords n l).regs = ((t.event 1 1).eventIf (l.any t.loading) 48).regs := rfl
  rw [h, Tile.eventIf_regs, Tile.event_regs]

theorem Tile.issuedWords_ex (t : Tile) (n : Nat) (l : List RegName) :
    (t.issuedWords n l).ex = { t.ex with pc := t.ex.pc + BitVec.ofNat 64 (4 * n), branch := none, tvecFetch := false } := by
  simp [Tile.issuedWords]

theorem Tile.issuedWords_iss (t : Tile) (n : Nat) (l : List RegName) : (t.issuedWords n l).iss = { t.iss with stall := none } := by
  simp [Tile.issuedWords]

@[simp] theorem Tile.fetchPassed_bytes (t : Tile) : t.fetchPassed.pad.bytes = t.pad.bytes := rfl
@[simp] theorem Tile.fetchPassed_bad (t : Tile) : t.fetchPassed.pad.bad = t.pad.bad := rfl

theorem Tile.issuedWords_bytes (t : Tile) (n : Nat) (l : List RegName) : (t.issuedWords n l).pad.bytes = t.pad.bytes := by
  simp [Tile.issuedWords]

theorem Tile.issuedWords_bad (t : Tile) (n : Nat) (l : List RegName) : (t.issuedWords n l).pad.bad = t.pad.bad := by
  simp [Tile.issuedWords]

/-- An issue of n words, said once. -/
theorem Tile.issuedWords_same (t : Tile) (n : Nat) (l : List RegName) :
    t.SameUnits (t.issuedWords n l) ∧ (t.issuedWords n l).ops = t.ops ∧ t.SamePad (t.issuedWords n l) ∧
    t.SameRegs (t.issuedWords n l) [] ∧ t.NextPc (t.issuedWords n l) n ∧ (t.issuedWords n l).iss = { t.iss with stall := none } := by
  have hr := Tile.issuedWords_regs t n l
  refine ⟨by simp [Tile.SameUnits], by simp, ⟨Tile.issuedWords_bad t n l, fun x => by rw [Tile.issuedWords_bytes]⟩, ⟨?_, ?_, ?_, ?_⟩,
    Tile.issuedWords_ex t n l, Tile.issuedWords_iss t n l⟩
  · intro r _
    unfold Tile.g
    rw [hr]
  · intro r
    unfold Tile.v
    rw [hr]
  · intro r
    unfold Tile.m
    rw [hr]
  · unfold Tile.SameSpecial
    rw [hr]

/-! ## Results -/

theorem Tile.applyWrite_g (t : Tile) (u : Nat) (d : GReg) (x : Word) : t.applyWrite ⟨u, .g d x, none⟩ = t.setG d x := by
  have h : (t.setG d x).regs.fflags ||| (0 : BitVec 5) = (t.setG d x).regs.fflags := by simp
  unfold Tile.applyWrite
  simp only [Option.getD_none]
  rw [h]

/-- A result of latency 1 is written in the cycle of issue (R238). -/
theorem Tile.result_one (t : Tile) (d : GReg) (x : Word) : t.result 1 (.g d x) = t.setG d x := by
  unfold Tile.result
  rw [if_pos (Nat.le_refl 1), Tile.applyWrite_g]

/-- A result of a greater latency waits for its cycle (R238). -/
theorem Tile.result_late (t : Tile) {l : Nat} (h : 1 < l) (w : RegWrite) (fl : Option FFlags) :
    t.result l w fl = { t with iss := { t.iss with writes := t.iss.writes ++ [⟨t.iss.cycle + l - 1, w, fl⟩] } } := by
  unfold Tile.result
  rw [if_neg (by omega)]

theorem Tile.setG_regs (t : Tile) (d : GReg) (x : Word) : (t.setG d x).regs = { t.regs with g := (t.setG d x).regs.g } := by
  unfold Tile.setG
  split <;> rfl

end Sys2Proof.Machine
end

