-- ==== Sys2Proof/Laws/Scalar.lean ====
section
/-! SUPPORT. The shapes of the scalar instructions, each said once: a result at once, a result that waits, a pair, a branch, and a
trap that an instruction raises of itself. -/

namespace Sys2Proof.Machine

/-- What an issue of one instruction leaves, at the tile (R237): the frame but for the registers listed. -/
def Tile.KeepsBut (a b : Tile) (but : List GReg) (n : Nat) : Prop :=
  a.SameUnits b ∧ b.ops = a.ops ∧ a.SamePad b ∧ a.SameRegs b but ∧ a.NextPc b n

theorem frame_upd {s : State} {f : Tile → Tile} {but : List GReg} {n : Nat} (h : s.tile.KeepsBut (f s.tile) but n) :
    Frame s (s.upd f) but n := ⟨rfl, h⟩

/-- An issue keeps what the tile kept before it. -/
theorem Tile.keeps_issued {a b : Tile} {but : List GReg} {n : Nat} (reads : List RegName) (h1 : a.SameUnits b) (h2 : b.ops = a.ops)
    (h3 : a.SamePad b) (h4 : a.SameRegs b but) (h5 : b.ex = a.ex) : a.KeepsBut (b.issuedWords n reads) but n := by
  obtain ⟨k1, k2, k3, ⟨k4, k5, k6, k7⟩, k8, -⟩ := Tile.issuedWords_same b n reads
  obtain ⟨g, v, m, r⟩ := h4
  refine ⟨?_, k2.trans h2, ⟨k3.1.trans h3.1, fun x => (k3.2 x).trans (h3.2 x)⟩, ⟨fun r hr => (k4 r (by simp)).trans (g r hr),
    fun r => (k5 r).trans (v r), fun r => (k6 r).trans (m r), ?_⟩, ?_⟩
  · obtain ⟨e1, e2, e3, e4, e5, e6⟩ := k1
    obtain ⟨f1, f2, f3, f4, f5, f6⟩ := h1
    exact ⟨e1.trans f1, e2.trans f2, e3.trans f3, e4.trans f4, e5.trans f5, e6.trans f6⟩
  · unfold Tile.SameSpecial at *
    rw [k7, r]
  · unfold Tile.NextPc at *
    rw [k8, h5]

theorem Tile.sameRegs_setG (a : Tile) (d : GReg) (x : Word) : a.SameRegs (a.setG d x) [d] := by
  have hr := Tile.setG_regs a d x
  refine ⟨fun r hd => ?_, fun r => ?_, fun r => ?_, ?_⟩
  · rw [Tile.g_setG, if_neg]
    rintro ⟨rfl, -⟩
    exact hd (by simp)
  · unfold Tile.v
    rw [hr]
  · unfold Tile.m
    rw [hr]
  · unfold Tile.SameSpecial
    rw [hr]

theorem Tile.keeps_one (a : Tile) (d : GReg) (x : Word) (n : Nat) (reads : List RegName) :
    a.KeepsBut ((a.setG d x).issuedWords n reads) [d] n ∧ ((a.setG d x).issuedWords n reads).Has d x ∧
    ((a.setG d x).issuedWords n reads).iss = { a.iss with stall := none } := by
  refine ⟨Tile.keeps_issued reads ⟨?_, ?_, ?_, ?_, ?_, ?_⟩ (Tile.setG_ops ..) ⟨?_, fun y => ?_⟩ (a.sameRegs_setG d x) (Tile.setG_ex ..),
    ?_, ?_⟩
  · exact Tile.setG_id ..
  · exact Tile.setG_gang ..
  · exact Tile.setG_inb ..
  · exact Tile.setG_eng ..
  · exact Tile.setG_ni ..
  · exact Tile.setG_pl ..
  · rw [Tile.setG_pad]
  · rw [Tile.setG_pad]
  · unfold Tile.Has
    rw [(Tile.issuedWords_same (a.setG d x) n reads).2.2.2.1.1 d (by simp)]
    exact a.g_setG_same d x
  · rw [Tile.issuedWords_iss, Tile.setG_iss]

/-- A scalar instruction of latency 1 (R94, R239). -/
theorem scalarOp_one {s : State} {d : GReg} {reads : List RegName} {f : Tile → Word}
    (h : s.tile.canIssue { regs := .g d :: reads, reads := reads }) :
    ∃ t, scalarOp d reads .other 1 f s = .next t ∧ Frame s t [d] 1 ∧ t.tile.Has d (f s.tile) ∧ t.tile.iss.writes = s.tile.iss.writes := by
  refine ⟨_, issue_of_ok h rfl, ?_⟩
  have e : ∀ t : Tile, ((t.occupy .other 1).result 1 (.g d (f t))).issued reads = (t.setG d (f t)).issuedWords 1 reads := fun t => by
    rw [Tile.result_one]
    rfl
  simp only [e]
  obtain ⟨h1, h2, h3⟩ := s.tile.keeps_one d (f s.tile) 1 reads
  exact ⟨frame_upd (f := fun t => (t.setG d (f t)).issuedWords 1 reads) h1, h2, (congrArg Issue.writes h3).trans rfl⟩

/-- A scalar instruction of a greater latency (R238, R239). -/
theorem scalarOp_late {s : State} {d : GReg} {reads : List RegName} {u : UnitKind} {l : Nat} {f : Tile → Word} (hl : 1 < l)
    (h : s.tile.canIssue { regs := .g d :: reads, reads := reads, unit := u }) :
    ∃ t, scalarOp d reads u l f s = .next t ∧ Frame s t [] 1 ∧ s.tile.Awaiting t.tile l (.g d (f s.tile)) none := by
  refine ⟨_, issue_of_ok h rfl, ?_⟩
  simp only [Tile.result_late _ hl]
  refine ⟨frame_upd (f := fun t => ({ t.occupy u l with iss := { (t.occupy u l).iss with
    writes := (t.occupy u l).iss.writes ++ [⟨(t.occupy u l).iss.cycle + l - 1, .g d (f t), none⟩] } } : Tile).issued reads)
    (Tile.keeps_issued reads ⟨rfl, rfl, rfl, rfl, rfl, rfl⟩ rfl ⟨rfl, fun _ => rfl⟩
      ⟨fun _ _ => rfl, fun _ => rfl, fun _ => rfl, rfl⟩ rfl), ?_⟩
  exact (congrArg Issue.writes (Tile.issuedWords_iss _ 1 reads)).trans rfl

/-- A long-immediate pair (R78, R242). -/
theorem pairOp_next {s : State} {d a : GReg} {f : Word → Word} (h : s.tile.canIssue { regs := [.g d, .g a], reads := [.g a] }) :
    ∃ t, pairOp d a f s = .next t ∧ Frame s t [] 2 ∧ t.tile.iss.tail = some (d, f (s.tile.g a)) ∧
      t.tile.iss.writes = s.tile.iss.writes := by
  refine ⟨_, issue_of_ok h rfl, ?_, rfl, (congrArg Issue.writes (Tile.issuedWords_iss s.tile 2 [.g a])).trans rfl⟩
  exact frame_upd (Tile.keeps_issued (b := s.tile) [.g a] ⟨rfl, rfl, rfl, rfl, rfl, rfl⟩ rfl ⟨rfl, fun _ => rfl⟩
      ⟨fun _ _ => rfl, fun _ => rfl, fun _ => rfl, rfl⟩ rfl)

/-- A branch (R101 to R103): the next word or the target, and the link. -/
theorem branchOp_next {s : State} {reads : List RegName} {link : Bool} {taken : Tile → Bool} {target : Tile → Word}
    (h : s.tile.canIssue { regs := if link then .g 31 :: reads else reads, reads := reads }) :
    ∃ t, branchOp reads link taken target s = .next t ∧ SameModule s t ∧ s.tile.SameUnits t.tile ∧ t.tile.ops = s.tile.ops ∧
      s.tile.SamePad t.tile ∧ s.tile.SameV t.tile ∧ s.tile.SameM t.tile ∧ s.tile.SameSpecial t.tile ∧
      t.tile.iss.writes = s.tile.iss.writes ∧ s.tile.SameG t.tile (if link then [31] else []) ∧
      (link = true → t.tile.g 31 = s.tile.ex.pc + 4) ∧
      (taken s.tile = true → t.tile.ex = { s.tile.ex with pc := target s.tile, branch := some s.tile.ex.pc, tvecFetch := false } ∧
        t.tile.iss.bubble = s.tile.iss.cycle + 3) ∧
      (taken s.tile = false → s.tile.NextPc t.tile 1 ∧ t.tile.iss.bubble = s.tile.iss.bubble) := by
  refine ⟨_, issue_of_ok h rfl, rfl, ?_⟩
  have key : ∀ (a b : Tile) (but : List GReg), a.KeepsBut b but 1 → b.iss = { a.iss with stall := none } → ∀ (go : Bool) (x : Word),
      a.SameUnits (if go then b.branchTo a.ex.pc x else b) ∧ (if go then b.branchTo a.ex.pc x else b).ops = a.ops ∧
      a.SamePad (if go then b.branchTo a.ex.pc x else b) ∧ a.SameV (if go then b.branchTo a.ex.pc x else b) ∧
      a.SameM (if go then b.branchTo a.ex.pc x else b) ∧ a.SameSpecial (if go then b.branchTo a.ex.pc x else b) ∧
      (if go then b.branchTo a.ex.pc x else b).iss.writes = a.iss.writes ∧
      a.SameG (if go then b.branchTo a.ex.pc x else b) but ∧ (∀ r, (if go then b.branchTo a.ex.pc x else b).g r = b.g r) ∧
      (go = true → (if go then b.branchTo a.ex.pc x else b).ex = { a.ex with pc := x, branch := some a.ex.pc, tvecFetch := false } ∧
        (if go then b.branchTo a.ex.pc x else b).iss.bubble = a.iss.cycle + 3) ∧
      (go = false → a.NextPc (if go then b.branchTo a.ex.pc x else b) 1 ∧
        (if go then b.branchTo a.ex.pc x else b).iss.bubble = a.iss.bubble) := by
    rintro a b but ⟨u, o, p, ⟨g, v, m, r⟩, n⟩ i go x
    cases go
    · exact ⟨u, o, p, v, m, r, (congrArg Issue.writes i).trans rfl, g, fun _ => rfl, fun h => absurd h (by decide), fun _ =>
        ⟨n, (congrArg Issue.bubble i).trans rfl⟩⟩
    · refine ⟨u, o, p, v, m, r, (congrArg Issue.writes i).trans rfl, g, fun _ => rfl, fun _ => ⟨?_, ?_⟩, fun h => absurd h (by decide)⟩
      · show { b.ex with pc := x, branch := some a.ex.pc } = _
        rw [show b.ex = _ from n]
      · exact (congrArg (fun y : Issue => y.cycle + 3) i).trans rfl
  cases link
  · obtain ⟨k1, k2, k3, k4, k5, k6, k7, k8, -, k9, k10⟩ := key s.tile (s.tile.issued reads) []
      (Tile.keeps_issued reads ⟨rfl, rfl, rfl, rfl, rfl, rfl⟩ rfl ⟨rfl, fun _ => rfl⟩
        ⟨fun _ _ => rfl, fun _ => rfl, fun _ => rfl, rfl⟩ rfl) (Tile.issuedWords_iss _ 1 reads) (taken s.tile) (target s.tile)
    exact ⟨k1, k2, k3, k4, k5, k6, k7, k8, fun h => absurd h (by decide), k9, k10⟩
  · have e : (s.tile.issued reads).result 1 (.g 31 (s.tile.ex.pc + 4)) = (s.tile.issued reads).setG 31 (s.tile.ex.pc + 4) :=
      Tile.result_one ..
    obtain ⟨b1, b2, b3, b4, b5, b6⟩ := Tile.issuedWords_same s.tile 1 reads
    have kp : s.tile.KeepsBut ((s.tile.issued reads).setG 31 (s.tile.ex.pc + 4)) [31] 1 := by
      obtain ⟨c1, c2, c3, c4⟩ := (s.tile.issued reads).sameRegs_setG 31 (s.tile.ex.pc + 4)
      refine ⟨?_, (Tile.setG_ops ..).trans b2, ?_, ⟨fun r hr => (c1 r hr).trans (b4.1 r (by simp)), fun r => (c2 r).trans (b4.2.1 r),
        fun r => (c3 r).trans (b4.2.2.1 r), ?_⟩, ?_⟩
      · unfold Tile.SameUnits at b1 ⊢
        rw [Tile.setG_id, Tile.setG_gang, Tile.setG_inb, Tile.setG_eng, Tile.setG_ni, Tile.setG_pl]
        exact b1
      · unfold Tile.SamePad at b3 ⊢
        rw [Tile.setG_pad]
        exact b3
      · have b7 := b4.2.2.2
        unfold Tile.SameSpecial Tile.issued at *
        rw [c4, b7]
      · unfold Tile.NextPc at b5 ⊢
        rw [Tile.setG_ex]
        exact b5
    obtain ⟨k1, k2, k3, k4, k5, k6, k7, k8, kg, k9, k10⟩ := key s.tile _ [31] (e ▸ kp)
      ((congrArg Tile.iss e).trans ((Tile.setG_iss ..).trans b6)) (taken s.tile) (target s.tile)
    refine ⟨k1, k2, k3, k4, k5, k6, k7, k8, fun _ => (kg 31).trans ?_, k9, k10⟩
    rw [e]
    exact Tile.g_setG_same (s.tile.issued reads) 31 _

end Sys2Proof.Machine
end

