-- ==== Sys2Proof/Tests/Slice0.lean ====
section
/-! SUPPORT. Tests of single operations, with results taken from the words, tables and examples of the spec, and a witness for
the hypotheses of each statement of Certificates/Slice0/Obligations.lean. -/

namespace Sys2Proof.Tests

open Sys2Proof Sys2Proof.Machine

set_option Elab.async false

/-! ## Ill-formed terms are refused -/

/-- R65, R99: LEA shifts by at most 4, and a bit field ends inside the register. -/
theorem test_wf_fields : Instr.wf (.lea 1 2 3 5) = false ∧ Instr.wf (.lea 1 2 3 4) = true ∧ Instr.wf (.bext 1 2 32 32) = false ∧
    Instr.wf (.bext 1 2 31 32) = true ∧ Instr.wf (.bins 1 2 63 1) = false := by decide

/-- R65: an access size code above those of its instruction. -/
theorem test_wf_sizes : Instr.wf (.ld 1 2 4 0) = false ∧ Instr.wf (.ldn 1 2 3 0) = false ∧ Instr.wf (.st 1 2 4 0) = false ∧
    Instr.wf (.gld 1 2 4 0) = false ∧ Instr.wf (.gldn 1 2 3 0) = false ∧ Instr.wf (.gst 1 2 4 0) = false ∧
    Instr.wf (.ldn 1 2 2 0) = true ∧ Instr.wf (.catl 1 2 0x10000000) = false := by decide

/-- R67: a compare and branch names two different registers. -/
theorem test_wf_branches : Instr.wf (.beq 3 3 0) = false ∧ Instr.wf (.bne 3 3 0) = false ∧ Instr.wf (.blt 3 3 0) = false ∧
    Instr.wf (.bge 3 3 0) = false ∧ Instr.wf (.bltn 3 3 0) = false ∧ Instr.wf (.bgen 3 3 0) = false ∧
    Instr.wf (.bne 3 4 0) = true := by decide

/-- R72, R73: element types that an instruction does not admit. -/
theorem test_wf_types : Instr.wf (.vaddI 1 2 3 0 .s16) = false ∧ Instr.wf (.vsubI 1 2 3 0 .f32) = false ∧
    Instr.wf (.vmulI 1 2 3 0 .s8) = false ∧ Instr.wf (.vminI 1 2 3 0 .n8) = false ∧ Instr.wf (.vmaxI 1 2 3 0 .fp16) = false ∧
    Instr.wf (.vcmpEqI 1 2 3 0 .bf16) = false ∧ Instr.wf (.vcmpNeI 1 2 3 0 .bf16) = false ∧
    Instr.wf (.vcmpLtI 1 2 3 0 .bf16) = false ∧ Instr.wf (.vcmpLeI 1 2 3 0 .bf16) = false ∧
    Instr.wf (.vredmax 1 2 0 .s16) = false ∧ Instr.wf (.vredsumI 1 2 0 .f32) = false ∧
    Instr.wf (.vcvt 1 2 0 .s8 .s8) = false ∧ Instr.wf (.vaddI 1 2 3 0 .n32) = true := by decide

/-- R153, R154, R158: register pairs and blocks begin at an even register, or at a multiple of 16. -/
theorem test_wf_pairs : Instr.wf (.vpackLb 1 3 .lb4 0) = false ∧ Instr.wf (.vunpkLb 3 1 .lb4 0) = false ∧
    Instr.wf (.vldx 8 1 2 0 .f32) = false ∧ Instr.wf (.vldx 16 1 2 0 .s8) = false ∧ Instr.wf (.vldx 16 1 2 0 .s32) = true := by
  decide

/-- R168, R196, R201, R207, R208, R234: the engine and synchronisation forms. -/
theorem test_wf_engine : Instr.wf (.mcfg 6 1) = false ∧ Instr.wf (.done 1 true true) = false ∧ Instr.wf (.inrd 1 2 true) = false ∧
    Instr.wf (.callat 1 29 .tile false) = false ∧ Instr.wf (.fence false false .tile 1) = false ∧
    Instr.wf (.fence true false .tile 0) = false ∧ Instr.wf (.fence true false .tile 1) = true := by decide

/-! ## Words that the encoding tables of 03 and the worked encodings give -/

/-- The one instruction that a word decodes to. -/
def Decodes (w : Nat) (i : Instr) : Prop := (decode (bytesOfWord w)).toOption = some (i, [])

/-- R65, R66: majors 0 to 0x0E. -/
theorem test_decode_scalar : Decodes 0x00611000 (.add 3 1 2) ∧ Decodes 0x006110E0 (.div 3 1 2) ∧ Decodes 0x0484FFFF (.addi 4 4 (-1)) ∧
    Decodes 0x00853163 (.lea 4 5 6 3) ∧ Decodes 0x00E84DCA (.csel 7 8 9 10) ∧ Decodes 0x1C43003F (.srai 2 3 63) ∧
    Decodes 0x388502C8 (.bext 4 5 11 8) := by unfold Decodes; decide +kernel

/-- R67, R77: branches, and a long-immediate pair. -/
theorem test_decode_branches : Decodes 0x6C80FFF8 (.bne 4 0 (-8)) ∧ Decodes 0x6BFF0000 (.jr 31 0) ∧ Decodes 0x6CA50000 (.jlr 5 0) ∧
    Decodes 0x70420005 (.bmany 2 5) ∧
    (decode (bytesOfWord 0xF848D159 ++ bytesOfWord 0xFCE00389)).toOption = some (.addl 7 0 0x123456789, []) := by unfold Decodes; decide +kernel

/-- R66: local and global scalar memory. -/
theorem test_decode_memory : Decodes 0x40A66002 (.ld 5 6 3 2) ∧ Decodes 0x552A6003 (.gst 9 10 3 3) ∧
    Decodes 0x50225FFF (.gldn 1 2 2 0x1fff) := by unfold Decodes; decide +kernel

/-- R68 to R73: vector words. -/
theorem test_decode_vector : Decodes 0x80221900 (.vaddF 1 2 3 1) ∧ Decodes 0x80811004 (.vfma 4 1 2 0) := by
  unfold Decodes; decide +kernel

/-- R74 to R76, R164, R196: engine, message, synchronisation and system words. -/
theorem test_decode_system : Decodes 0xF43FFFC0 (.wait 0 15 15 15 15) ∧ Decodes 0xC0201400 (.mzero 5) ∧
    Decodes 0xE4052C00 (.radd 10 11 .f32) ∧ Decodes 0xE436B800 (.rseal 13 14) ∧
    Decodes 0xDC16BC00 (.cwait 13 15 .tile false false 0) := by unfold Decodes; decide +kernel

/-- R75, R196: message and system words. -/
theorem test_decode_messages : Decodes 0xF3E06007 (.mfs 31 7) ∧ Decodes 0xF0608001 (.query 3 1) ∧
    Decodes 0xD85F8002 (.done 31 true false) ∧ Decodes 0xD8218005 (.bind 5 3) ∧ Decodes 0xD8832000 (.callat 6 8 .tile false) ∧
    Decodes 0xE829000A (.fence false true .gang 0x0A) ∧ Decodes 0xF0069000 (.tlbinv 6) := by unfold Decodes; decide +kernel

/-- R74 to R77: words that no row holds. -/
theorem test_decode_refuses : (decode (bytesOfWord 0xFCE00389)).toOption = none ∧ (decode (bytesOfWord 0x2C000000)).toOption = none ∧
    (decode (bytesOfWord 0xF4000001)).toOption = none ∧ (decode (bytesOfWord 0x006117E0)).toOption = none := by
  decide +kernel

/-! ## Values -/

/-- A virtual tile that runs its activation and has nothing outstanding, in a gang of two rows and two columns. -/
def calmTile : Tile :=
  { Tile.fresh with
    id := ⟨0, 1, 0⟩, gang := { Tile.fresh.gang with rows := 2, cols := 2 }
    regs := { Regs.fresh with shbase := 0x1000, tvec := 0x200 }
    ex := { Exec.fresh with inh := true, pc := 0x100 }, pl := { Place.fresh with res := .resident, touched := true }
    iss := { Issue.fresh with cycle := 32 } }

/-- The module right after reset but for a virtual tile that runs. -/
def calm : State := { State.reset with tile := calmTile }

/-- A module whose current tile has been changed. -/
def calmWith (f : Tile → Tile) : State := { calm with tile := f calmTile }

/-- The tile with two scalar registers set, g1 and g2. -/
def withG (x y : Word) : State := calmWith fun t => (t.setG 1 x).setG 2 y

/-- Whether a step answers a next state with a property. -/
def ends (o : Out) (p : State → Bool) : Bool :=
  match o with
  | .next t => p t
  | .fault _ | .refused _ => false

/-- Whether the last result that is on its way writes a scalar register with a value. -/
def awaitsG (o : Out) (r : GReg) (x : Word) : Bool :=
  ends o fun t => decide ((t.tile.iss.writes.map PendWrite.write).getLast? = some (.g r x))

/-- Whether a vector result on its way has a value in a lane. -/
def awaitsLane (o : Out) (i : Fin 16) (x : W32) : Bool :=
  ends o fun t => match (t.tile.iss.writes.map PendWrite.write).getLast? with
    | some (.v _ lanes y) => lanes.getLsbD i.val && decide (y.get i = x)
    | _ => false

/-- The table of R96. -/
theorem test_division :
    awaitsG (exec (.div 3 1 2) (withG 7 (-2))) 3 (-3) ∧ awaitsG (exec (.rem 3 1 2) (withG 7 (-2))) 3 1 ∧
    awaitsG (exec (.divn 3 1 2) (withG 7 (-2))) 3 0 ∧ awaitsG (exec (.remn 3 1 2) (withG 7 (-2))) 3 7 ∧
    awaitsG (exec (.div 3 1 2) (withG (-7) 2)) 3 (-3) ∧ awaitsG (exec (.rem 3 1 2) (withG (-7) 2)) 3 (-1) ∧
    awaitsG (exec (.divn 3 1 2) (withG (-7) 2)) 3 0x7FFFFFFFFFFFFFFC ∧ awaitsG (exec (.div 3 1 2) (withG 5 0)) 3 (-1) ∧
    awaitsG (exec (.rem 3 1 2) (withG 5 0)) 3 5 ∧
    awaitsG (exec (.div 3 1 2) (withG 0x8000000000000000 (-1))) 3 0x8000000000000000 ∧
    awaitsG (exec (.rem 3 1 2) (withG 0x8000000000000000 (-1))) 3 0 := by decide +kernel

/-- The example of R97. -/
theorem test_narrow_and_upper :
    ends (exec (.addw 3 1 2) (withG 0x7FFFFFFF 1)) (fun t => decide (t.tile.g 3 = 0xFFFFFFFF80000000)) ∧
    ends (exec (.add 3 1 2) (withG 0x7FFFFFFF 1)) (fun t => decide (t.tile.g 3 = 0x80000000)) ∧
    awaitsG (exec (.mulh 4 2 2) (withG 0 (-1))) 4 0 ∧ awaitsG (exec (.mulhn 4 2 2) (withG 0 (-1))) 4 0xFFFFFFFFFFFFFFFE ∧
    ends (exec (.sra 5 2 2) (withG 0 (-1))) (fun t => decide (t.tile.g 5 = 0xFFFFFFFFFFFFFFFF)) := by decide +kernel

/-- R11: g0 discards what is written to it. -/
theorem test_g0 : ends (exec (.addi 0 1 5) (withG 7 0)) (fun t => decide (t.tile.g 0 = 0)) := by decide +kernel

/-- The example of R150: the tree gives 2, with NX. -/
theorem test_vredsum :
    ends (exec (.vredsumF 5 3 0) (calmWith fun t => { t with regs := { t.regs with
      vl := 4, v := t.regs.v.set 3 #v[0x4B800000, 0x3F800000, 0x3F800000, 0xCB7FFFFF, 0, 0, 0, 0, 0, 0, 0, 0, 0, 0, 0, 0] } }))
      (fun t => match t.tile.iss.writes with
        | [⟨41, .v 5 0xF x, some 1⟩] => decide (x.get 0 = 0x40000000 ∧ x.get 3 = 0x40000000)
        | _ => false) := by decide +kernel

/-- The examples of R152. -/
theorem test_vcvt :
    let s (x : W32) := calmWith fun t => { t with regs := { t.regs with v := t.regs.v.set 3 (Vector.replicate 16 x) } }
    awaitsLane (exec (.vcvt 5 3 0 .s32 .s8) (s 300)) 0 0x7F ∧ awaitsLane (exec (.vcvt 5 3 0 .s32 .n8) (s (-5))) 0 0 ∧
    awaitsLane (exec (.vcvt 5 3 0 .s16 .f32) (s 0x1234FFFF)) 0 0xBF800000 := by decide +kernel

/-- The example of R153. -/
theorem test_vpack :
    let s := calmWith fun t => { t with regs := { t.regs with
      v := t.regs.v.set 4 #v[0x40400000, 0x3E800000, 0xBF800000, 0, 0, 0, 0, 0, 0, 0, 0, 0, 0, 0, 0, 0] } }
    awaitsLane (exec (.vpackLb 2 4 .lb4 0) s) 0 0x0007E200 ∧ awaitsLane (exec (.vpackLb 2 4 .lb4 0) s) 1 0x593 ∧
    awaitsLane (exec (.vpackLb 2 4 .lb4 0) s) 2 0 := by decide +kernel

/-- The example of R156: XLATE at lane 2. -/
theorem test_vld_trap :
    ends (exec (.vld 1 5 0 .f32) (calmWith fun t => t.setG 5 0x7FFF8))
      (fun t => decide (t.tile.regs.trap.tcause = 6 ∧ t.tile.regs.trap.tval = 0x80000 ∧ t.tile.regs.trap.tinfo = 0x282 ∧
        t.tile.ex.pc = 0x200 ∧ t.tile.ex.prv = true)) := by decide +kernel

/-- R109: a wide store lands its bytes little-endian. -/
theorem test_store :
    ends (exec (.st 1 2 1 0) (withG 0x11223344 0x2000))
      (fun t => decide (t.tile.pad.bytes = [(0x2000, 0x44), (0x2001, 0x33)])) := by decide +kernel

/-- R272: FLAGS are joined, and the larger CODE stays. -/
theorem test_status : combineStatus 0x00040002 0x00010005 = 0x00050005 := by decide

/-- The example of R355. -/
theorem test_pcap :
    let r : State := { State.reset with host := { State.reset.host with ctrl := { State.reset.host.ctrl with boot := .ready } } }
    let s := r.updPart 0 fun p => { p with gov := { p.gov with caplo := 64, caphi := 192 } }
    ends (exec (.pcap ⟨0, 0⟩ 200) s) (fun t => decide ((t.part 0).pcap = 192 ∧ (t.part 0).capCnt = 1)) ∧
    ends (Out.andThen (exec (.pcap ⟨0, 0⟩ 200) s) fun s => exec (.pcap ⟨0, 0⟩ 100) s)
      (fun t => decide ((t.part 0).pcap = 100 ∧ (t.part 0).capCnt = 1)) := by decide +kernel

/-- R4, R24, R65: a fetch at PC 0, and the step runs the instruction that it finds there. -/
theorem test_step_fetches : ends (step (State.reset.withFetchWord 32 0x0484FFFF))
    (fun t => decide (t.tile.g 4 = 0xFFFFFFFFFFFFFFFF ∧ t.tile.ex.pc = 4 ∧ t.turns = [])) := by decide +kernel

/-! ## Witnesses: scalar instructions, control flow, system, traps -/

/-- A tile with nothing outstanding may issue every instruction. -/
theorem quiet_canIssue (t : Tile) (w : t.iss.writes = []) (l : t.iss.tail = none) (u : t.iss.units = ⟨0, 0, 0, 0⟩)
    (o : t.ops = Outstanding.fresh) (n : Need) : t.canIssue n := by
  refine ⟨fun r _ => ?_, ?_, fun c _ => ?_, fun k _ => ?_⟩
  · unfold Tile.awaits; rw [w, l]; cases r <;> simp
  · rw [u]; cases n.unit <;> exact Nat.zero_le _
  · unfold Tile.count; rw [o]; cases c <;> decide
  · unfold Tile.hcount; rw [o]; simp [Outstanding.fresh]

/-- The calm tile at S. -/
def calmS : State := calmWith fun t => { t with ex := { t.ex with prv := true } }

theorem calm_canIssue (n : Need) : calm.tile.canIssue n := quiet_canIssue _ rfl rfl rfl rfl n

theorem calmS_canIssue (n : Need) : calmS.tile.canIssue n := quiet_canIssue _ rfl rfl rfl rfl n

theorem witness_AluSums (n : Need) : calm.tile.canIssue n := calm_canIssue n

theorem witness_AluShifts (n : Need) : calm.tile.canIssue n := calm_canIssue n

theorem witness_AluCompares (n : Need) : calm.tile.canIssue n := calm_canIssue n

/-- The widest field, and one that ends at bit 63. -/
theorem witness_AluLogic : (∀ n, calm.tile.canIssue n) ∧ (0 : Fin 64).val + (63 : Fin 64).val < 64 ∧
    (63 : Fin 64).val + (0 : Fin 64).val < 64 := ⟨calm_canIssue, by decide⟩

theorem witness_Products (n : Need) : calm.tile.canIssue n := calm_canIssue n

theorem witness_Division (n : Need) : calm.tile.canIssue n := calm_canIssue n

theorem witness_LongImmediates (n : Need) : calm.tile.canIssue n := calm_canIssue n

/-- A branch that is taken and one that is not; a mask with a lane and one without. -/
theorem witness_Branches : (∀ n, calm.tile.canIssue n) ∧ calm.tile.g 1 = calm.tile.g 2 ∧ (withG 1 2).tile.g 1 ≠ (withG 1 2).tile.g 2 ∧
    (∃ k : Fin 16, k.val < calm.tile.regs.vl.val ∧ (calm.tile.m 0).getLsbD k.val = true) ∧
    ¬∃ k : Fin 16, k.val < calm.tile.regs.vl.val ∧ (calm.tile.m 1).getLsbD k.val = true :=
  ⟨calm_canIssue, by decide +kernel⟩

/-- A register that may be written, one that may only be read, FFLAGS with no result on its way, one that S alone reaches, and indexes next
to listed ones that are not listed. -/
theorem witness_StateMoves : (∀ n, calm.tile.canIssue n) ∧ calm.tile.access 0x010 = some .readWrite ∧
    calm.tile.access 0x018 = some .readOnly ∧ calm.tile.access 0x011 = some .readWrite ∧
    (∀ w ∈ calm.tile.iss.writes, w.flags = none) ∧ calmS.tile.access 0x005 = some .readWrite ∧ calm.tile.access 0x005 = some .hidden ∧
    calm.tile.ex.cw = none ∧
    (∀ n ∈ [0x00B, 0x012, 0x039, 0x045, 0x060, 0x108, 0x240, 0x2FF, 0x380, 0xFFF], ¬Listed (BitVec.ofNat 12 n).toNat) ∧
    ∀ n ∈ [0x000, 0x00A, 0x018, 0x01B, 0x021, 0x029, 0x041, 0x044, 0x050, 0x05F, 0x100, 0x107, 0x200, 0x23F, 0x300, 0x37F], Listed n := by
  unfold Listed
  refine ⟨calm_canIssue, ?_, ?_, ?_, ?_, ?_, ?_, rfl, ?_, ?_⟩ <;> decide +kernel

/-- A leaf that a mask covers and one that none does; a tile in an activation and one at rest; counts below 256. -/
theorem witness_StateWords :
    ({ PartRec.fresh with leafmask := 0x84 }).leafmask.getLsbD 2 = true ∧ ({ PartRec.fresh with leafmask := 0x84 }).leafmask.getLsbD 7 = true ∧
    (∀ k < 8, PartRec.fresh.leafmask.getLsbD k = false) ∧ calm.tile.ex.inh = true ∧ State.reset.tile.ex.inh = false ∧
    calm.tile.ops.loads.length < 256 ∧ calm.tile.ops.stores.length < 256 ∧ calm.tile.ops.copies.length < 256 ∧
    calm.tile.ops.mx.length < 256 ∧ calm.tile.ops.ms.length < 256 ∧ (∀ k < 8, calm.tile.hcount k < 256) ∧
    (let e : Channel := ⟨true, true, false, 7, 256, 4095, 2 ^ 17 - 1⟩
     e.quota ≤ 256 ∧ e.age ≤ 4095 ∧ e.entry < 2 ^ 17 ∧ calm.tile.inb.slots.length ≤ 256) ∧
    (let x : Shingle := ⟨.ready, 524288, 8192, 0, 0, 0⟩
     calm.tile.sh 5 = none ∧ ({ calmTile with eng := { calmTile.eng with shingles := calmTile.eng.shingles.set 5 (some x) } }).sh 5 = some x ∧
     x.wmark ≤ 524288 ∧ x.len ≤ 8192 ∧ x.base < 524288) := by decide +kernel

theorem witness_IdleAndTlb : (∀ n, calmS.tile.canIssue n) ∧ calmS.tile.ex.prv = true := ⟨calmS_canIssue, rfl⟩

/-- A tile with one load outstanding. -/
def loading : State := calmWith fun t => { t with ops := { t.ops with loads :=
  [{ stamp := 0, kind := .timed 35 true, elems := [], regs := [.g 3], hs := 1, issued := 31, aclass := 0, ecc := none }] } }

/-- Fields of 0, of 1 and of 15 against a count of 1. -/
theorem witness_Wait : ¬((0 : Fin 16).val = 15 ∨ loading.tile.count .ld ≤ (0 : Fin 16).val) ∧
    ((1 : Fin 16).val = 15 ∨ loading.tile.count .ld ≤ (1 : Fin 16).val) ∧
    ((15 : Fin 16).val = 15 ∨ loading.tile.count .ld ≤ (15 : Fin 16).val) := by decide +kernel

theorem witness_TrapsAndReturn : calm.tile.ex.prv = false ∧ calm.tile.ex.cw = none ∧ (∀ n, calm.tile.canIssue n) ∧
    calmS.tile.ex.prv = true := ⟨rfl, rfl, calm_canIssue, rfl⟩

/-- TPC and TSTAT are the first and the last register of the range. -/
theorem witness_PrivilegeTraps : calm.tile.ex.prv = false ∧ calm.tile.ex.cw = none ∧ (∀ n, calm.tile.canIssue n) ∧
    calm.tile.holds 3 = false ∧ 5 ≤ (0x005 : BitVec 12).toNat ∧ (0x00A : BitVec 12).toNat ≤ 10 :=
  ⟨rfl, rfl, calm_canIssue, by decide +kernel⟩

/-! ## Witnesses: scalar memory -/

/-- Page tables of ASID 5 with an OWNED page at 0x10000 and a REDUCE page at 0x20000, which the NI holds, for a gang of that ASID. -/
def tables : Memory :=
  [(0x1000, 0x01), (0x1001, 0x20), (0x2000, 0x01), (0x2001, 0x30), (0x3000, 0x01), (0x3001, 0x40), (0x4000, 0x01), (0x4001, 0x50),
   (0x5008, 0x3F), (0x5009, 0x20), (0x5010, 0x3F), (0x5011, 0x30), (0x5017, 0x80)]

/-- The OWNED page and the REDUCE page. -/
def ownedPage : TlbEntry := ⟨5, 0x10000, 0x10000, 0x20000, 0, 0, 15⟩
def reducePage : TlbEntry := ⟨5, 0x20000, 0x10000, 0x30000, 2, 0, 15⟩

/-- A calm tile of ASID 5 that holds both translations; g1 and g2 are set. -/
def mapped (x y : Word) : State :=
  let s := withG x y
  { s with
    tile := { s.tile with gang := { s.tile.gang with asid := 5 }, ni := { s.tile.ni with tlb := [ownedPage, reducePage] } }
    mem := { s.mem with hbm := tables, asids := [⟨5, 0, 0x1000, 0x100000, 0, 0, 0, 0, 0⟩] } }

theorem mapped_canIssue (x y : Word) (n : Need) : (mapped x y).tile.canIssue n := quiet_canIssue _ rfl rfl rfl rfl n

/-- The last word of the raw scratchpad, the first word of the LB4 window, the first byte of the inbox view; a store at the end of
the code segment. -/
theorem witness_LocalAccesses : (∀ n, calm.tile.canIssue n) ∧
    windowOf 0x7FFF8 = some (.raw, 0x7FFF8) ∧ calm.tile.gate true 2 none (Window.raw.touch 0x7FFF8 8) = .ok () ∧
    calm.tile.badLocal .raw 0x7FFF8 8 = none ∧
    windowOf 0x01000000 = some (.blk .lb4, 0) ∧ (Window.blk .lb4).wide = true ∧ calm.tile.gate true 2 none ((Window.blk .lb4).touch 0 4) = .ok () ∧
    calm.tile.badLocal (.blk .lb4) 0 4 = none ∧
    windowOf 0x08000000 = some (.inbox, 0) ∧ Window.inbox.wide = false ∧
    calm.tile.regs.shbase.toNat ≤ 0x1000 ∧ calm.tile.gate false 3 none (upFrom 0x1000 8) = .ok () := by
  refine ⟨calm_canIssue, rfl, rfl, rfl, rfl, rfl, rfl, rfl, rfl, rfl, ?_, rfl⟩
  decide

/-- The first and the last word of an OWNED page. -/
theorem witness_GlobalAccesses : (∀ n, (mapped 0 0).tile.canIssue n) ∧ Reaches (mapped 0 0) .load 0x10000 8 ownedPage ∧
    Reaches (mapped 0 0) .store 0x1FFF8 8 ownedPage := by
  refine ⟨mapped_canIssue 0 0, ?_⟩
  unfold Reaches
  decide +kernel

/-! ## Witnesses: vector instructions -/

/-- A mask with lane 0 alone, and one with no lane. -/
theorem witness_lanes : (∀ n, calm.tile.canIssue n) ∧ (∀ i, LaneOn calm.tile 0 i) ∧ (∀ i, ¬LaneOn calm.tile 1 i) := by
  refine ⟨calm_canIssue, ?_⟩
  unfold LaneOn
  decide +kernel

/-- An infinity, a NaN, a number that is not zero, and a zero. -/
theorem witness_VectorFloat : (∀ n, calm.tile.canIssue n) ∧ (f32 0x7FC00000).isNan = true ∧ (f32 0x7F800001).isSnan = true ∧
    f32 0x7F800000 = .inf false ∧ (3 : Nat) ≠ 0 := ⟨calm_canIssue, by decide +kernel⟩

theorem witness_VectorApproximations : (∀ n, calm.tile.canIssue n) ∧ (f32 0x7FC00000).isNan = true ∧
    (0x80000000 : W32).toNat % 2 ^ 31 = 0 := ⟨calm_canIssue, by decide +kernel⟩

theorem witness_VectorIntegers : (∀ n, calm.tile.canIssue n) ∧ (ElemTy.s32 = .s32 ∨ ElemTy.s32 = .n32) ∧
    (ElemTy.n32 = .s32 ∨ ElemTy.n32 = .n32) := ⟨calm_canIssue, by decide⟩

theorem witness_VectorCompares : (∀ n, calm.tile.canIssue n) ∧ (ElemTy.s32 = .s32 ∨ ElemTy.s32 = .n32) ∧
    (ElemTy.n32 = .s32 ∨ ElemTy.n32 = .n32) := ⟨calm_canIssue, by decide⟩

/-- The least enabled lane of m0 is 0, and no lane of m1 is enabled. -/
theorem witness_MasksAndLength : (∀ n, calm.tile.canIssue n) ∧ LaneOn calm.tile 0 0 ∧ (∀ j : Fin 16, (0 : Fin 16) ≤ j) ∧
    ∀ i, ¬LaneOn calm.tile 1 i := ⟨calm_canIssue, witness_lanes.2.1 0, by decide, witness_lanes.2.2⟩

/-- VMOVS of lane 15, and of lane 16, which is none. -/
theorem witness_LaneMoves : (∀ n, calm.tile.canIssue n) ∧ (15 : Fin 16).val = ((withG 15 16).tile.g 1).toNat ∧
    ((withG 15 16).tile.g 2).toNat ≥ 16 := ⟨calm_canIssue, by decide +kernel⟩

/-- VL of 16 and of 0. -/
theorem witness_RandomLanes : (∀ n, calm.tile.canIssue n) ∧ 1 ≤ calm.tile.regs.vl.val ∧
    ¬1 ≤ (calmWith fun t => { t with regs := { t.regs with vl := 0 } }).tile.regs.vl.val := ⟨calm_canIssue, by decide +kernel⟩

theorem witness_VectorReductions : (∀ n, calm.tile.canIssue n) ∧ (∀ i, LaneOn calm.tile 0 i) ∧ (∀ i, ¬LaneOn calm.tile 1 i) :=
  witness_lanes

theorem witness_VectorConversions : (∀ n, calm.tile.canIssue n) ∧ (∀ i, LaneOn calm.tile 0 i) ∧ (∀ i, ¬LaneOn calm.tile 1 i) :=
  witness_lanes

/-- The word at 0x2000 may be loaded and stored; a mask with no lane makes a load of no element. -/
theorem witness_LocalVectors : (∀ n, calm.tile.canIssue n) ∧ LoadableAt calm.tile 4 ⟨0, 1, 0x2000⟩ .raw 0x2000 ∧
    (∀ i, LaneOn calm.tile 0 i) ∧ (∀ i, ¬LaneOn calm.tile 1 i) ∧ calm.tile.regs.shbase.toNat ≤ 0x2000 ∧
    calm.tile.gate false 3 none (upFrom 0x2000 4) = .ok () ∧ calm.tile.pad.bad.contains (0x2000 / 8) = false := by
  refine ⟨calm_canIssue, ?_, witness_lanes.2.1, witness_lanes.2.2, by decide, rfl, rfl⟩
  unfold LoadableAt
  exact ⟨rfl, rfl, by decide, rfl, rfl⟩

/-- The calm tile with EMPTY shingles 3 and 4, of one block each, at 0x3000 and 0x3040. -/
def emptied : Tile := { calmTile with eng := { calmTile.eng with shingles :=
  (calmTile.eng.shingles.set 3 (some ⟨.empty, 0, 1, 0x3000, 0, 0⟩)).set 4 (some ⟨.empty, 0, 1, 0x3040, 0, 0⟩) } }

/-- Each of LocalTrap's conditions: misaligned; outside every window, at the end of the raw scratchpad; a narrow load of a decode window, a
store to it, and a store at U just below SHBASE; the first and the last byte of EMPTY shingles. -/
theorem witness_LocalTrap :
    LocalTrap emptied true 0x2001 2 4 0x2001 ∧ LocalTrap emptied true 0x80000 4 6 0x80000 ∧
    LocalTrap emptied true 0x01000000 2 7 0x01000000 ∧ LocalTrap emptied false 0x01000000 4 7 0x01000000 ∧
    LocalTrap emptied false 0xFF8 8 7 0xFF8 ∧ LocalTrap emptied true 0x3000 1 9 (0x3000 * 2 ^ 32 + 3) ∧
    LocalTrap emptied false 0x307F 1 9 (0x307F * 2 ^ 32 + 4) ∧ (∀ l, Untrapped emptied l 0x2FF8 8) ∧ ∀ l, Untrapped emptied l 0x3080 8 := by
  have holds (j : Fin 64) (sh : Shingle) : emptied.sh j = some sh → (j = 3 ∧ sh = ⟨.empty, 0, 1, 0x3000, 0, 0⟩) ∨ (j = 4 ∧ sh = ⟨.empty, 0, 1, 0x3040, 0, 0⟩) := by
    have h : ∀ j : Fin 64, emptied.sh j = if j = 3 then some ⟨.empty, 0, 1, 0x3000, 0, 0⟩ else if j = 4 then some ⟨.empty, 0, 1, 0x3040, 0, 0⟩ else none := by
      decide +kernel
    rw [h]
    split
    · rintro ⟨⟩; exact .inl ⟨‹_›, rfl⟩
    · split
      · rintro ⟨⟩; exact .inr ⟨‹_›, rfl⟩
      · rintro ⟨⟩
  have free (a : Nat) (ha : a = 0x2FF8 ∨ a = 0x3080) (l : Bool) : Untrapped emptied l a 8 := by
    refine ⟨.raw, a, by omega, by obtain rfl | rfl := ha <;> rfl, ?_, ?_, fun _ => rfl⟩
    · unfold NoPermission
      have e : emptied.regs.shbase.toNat = 0x1000 := rfl
      cases l <;> simp [e, Window.wide]
      omega
    · intro k sh hk _ b hb
      obtain ⟨-, rfl⟩ | ⟨-, rfl⟩ := holds k sh hk <;> obtain rfl | rfl := ha <;> revert b <;> decide
  refine ⟨.inl (by decide), .inr (.inl (by decide)), ?_, ?_, ?_, ?_, ?_, free _ (.inl rfl), free _ (.inr rfl)⟩
  · exact .inr (.inr ⟨.blk .lb4, 0, rfl, rfl, .inl ⟨by unfold NoPermission; decide, rfl, rfl⟩⟩)
  · exact .inr (.inr ⟨.blk .lb4, 0, rfl, rfl, .inl ⟨by unfold NoPermission; decide, rfl, rfl⟩⟩)
  · exact .inr (.inr ⟨.raw, 0xFF8, rfl, rfl, .inl ⟨by unfold NoPermission; decide, rfl, rfl⟩⟩)
  · refine .inr (.inr ⟨.raw, 0x3000, rfl, rfl, .inr ⟨by unfold NoPermission; decide, 3, 0x3000, ⟨by decide, ⟨_, rfl, rfl, rfl⟩, ?_⟩, rfl, rfl⟩⟩)
    rintro j b hb ⟨sh, hs, -, hh⟩
    obtain rfl : b = 0x3000 := by simpa [Window.touch, upFrom] using hb
    obtain ⟨rfl, rfl⟩ | ⟨rfl, rfl⟩ := holds j sh hs
    · exact ⟨Nat.le_refl _, fun h => absurd rfl h⟩
    · exact absurd hh (by decide)
  · refine .inr (.inr ⟨.raw, 0x307F, rfl, rfl, .inr ⟨by unfold NoPermission; decide, 4, 0x307F, ⟨by decide, ⟨_, rfl, rfl, rfl⟩, ?_⟩, rfl, rfl⟩⟩)
    rintro j b hb ⟨sh, hs, -, hh⟩
    obtain rfl : b = 0x307F := by simpa [Window.touch, upFrom] using hb
    obtain ⟨rfl, rfl⟩ | ⟨rfl, rfl⟩ := holds j sh hs
    · exact absurd hh (by decide)
    · exact ⟨Nat.le_refl _, fun h => absurd rfl h⟩

/-- VLD of words from 0x2FF8: lane 2 is the lowest that meets a condition, SHINGLE, and the lanes below it meet none. -/
theorem witness_MemoryTraps :
    (∀ n, emptied.canIssue n) ∧ emptied.ex.cw = none ∧ LaneOn emptied 0 2 ∧ 2 < emptied.regs.vl.val ∧ elemSize .f32 = 4 ∧
    (let ea (j : Fin 16) : Word := 0x2FF8 + BitVec.ofNat 64 (j.val * 4)
     LocalTrap emptied true (ea 2).toNat 4 9 (0x3000 * 2 ^ 32 + 3) ∧ ∀ j, j < 2 → LaneOn emptied 0 j → Untrapped emptied true (ea j).toNat 4) := by
  have ⟨_, _, _, _, _, h, _⟩ := witness_LocalTrap
  refine ⟨quiet_canIssue _ rfl rfl rfl rfl, rfl, ?_, by decide, rfl, ?_, ?_⟩
  · unfold LaneOn; decide
  · have e : ((0x2FF8 : Word) + BitVec.ofNat 64 ((2 : Fin 16).val * 4)).toNat = 0x3000 := by decide
    show LocalTrap emptied true ((0x2FF8 : Word) + BitVec.ofNat 64 ((2 : Fin 16).val * 4)).toNat 4 9 _
    rw [e]
    refine .inr (.inr ⟨.raw, 0x3000, rfl, rfl, .inr ⟨by unfold NoPermission; decide, 3, 0x3000, ⟨by decide, ⟨_, rfl, rfl, rfl⟩, ?_⟩, rfl, rfl⟩⟩)
    have none_ : ∀ j : Fin 64, j ≠ 3 → ∀ b ∈ Window.raw.touch 0x3000 4, ∀ sh ∈ emptied.sh j, sh.holds b = false := by decide +kernel
    rintro j b hb ⟨sh, hs, -, hh⟩
    by_cases c : j = 3
    · have low : ∀ b ∈ Window.raw.touch 0x3000 4, 0x3000 ≤ b := by decide
      exact ⟨low b hb, fun n => absurd c n⟩
    · exact absurd hh (by simp [none_ j c b hb sh (by simp [hs])])
  · intro j hj _
    have none_ : ∀ j : Fin 16, j < 2 → ∀ k : Fin 64, ∀ sh ∈ emptied.sh k,
        ∀ b ∈ Window.raw.touch ((0x2FF8 : Word) + BitVec.ofNat 64 (j.val * 4)).toNat 4, sh.holds b = false := by decide +kernel
    have w : ∀ j : Fin 16, j < 2 → ((0x2FF8 : Word) + BitVec.ofNat 64 (j.val * 4)).toNat % 4 = 0 ∧
        windowOf ((0x2FF8 : Word) + BitVec.ofNat 64 (j.val * 4)).toNat = some (.raw, ((0x2FF8 : Word) + BitVec.ofNat 64 (j.val * 4)).toNat) := by
      decide +kernel
    refine ⟨.raw, _, (w j hj).1, (w j hj).2, by simp [NoPermission, Window.wide], ?_, fun c => by simp at c⟩
    exact fun k sh hk _ b hb => none_ j hj k sh (by simp [hk]) b hb

/-- VL of 16 lanes of a page that the tile owns; no handle overlaps it. -/
theorem witness_GlobalVectors : (∀ n, (mapped 0 0).tile.canIssue n) ∧ LaneOn (mapped 0 0).tile 0 15 ∧
    Reaches (mapped 0 0) .load 0x1003C 4 ownedPage ∧ Reaches (mapped 0 0) .store 0x1003C 4 ownedPage ∧
    ∀ j : Fin 8, ((mapped 0 0).tile.regs.h.get j).overlaps 0x1003C 4 = false := by
  refine ⟨mapped_canIssue 0 0, ?_⟩
  unfold Reaches LaneOn
  decide +kernel

/-! ## Witnesses: engine, shingles, copies -/

/-- A fitting value of MNCOL at both ends, one that does not fit, and a register that is none. -/
theorem witness_EngineRegisters : (∀ n, (withG 128 0).tile.canIssue n) ∧ (withG 128 0).tile.ex.cw = none ∧
    1 ≤ ((withG 128 0).tile.g 1).toNat % 256 ∧ ((withG 128 0).tile.g 1).toNat % 256 ≤ 128 ∧
    ¬(1 ≤ ((withG 129 0).tile.g 1).toNat % 256 ∧ ((withG 129 0).tile.g 1).toNat % 256 ≤ 128) ∧ (6 : Fin 8).val ≥ 6 :=
  ⟨quiet_canIssue _ rfl rfl rfl rfl, by decide +kernel⟩

/-- A tile with shingle 3 READY and full, shingle 4 EMPTY, a geometry of one block, one column and one row, and a plan of one row
of two tiles, of which it is the first; g1 and g2 are set. -/
def armed (x y : Word) : State :=
  let s := withG x y
  { s with tile := { s.tile with
      eng := { s.tile.eng with
        shingles := (s.tile.eng.shingles.set 3 (some ⟨.ready, 1024, 16, 0x2000, 0, 0⟩)).set 4 (some ⟨.empty, 0, 16, 0x3000, 0, 0⟩)
        regs := #v[0x22, 1, 1, 0, 0, 0] }
      gang := { s.tile.gang with prog := { s.tile.gang.prog with plans := [⟨1, 2, 0, 0⟩], deals := [⟨64, 1, 2, 0, 0, false⟩] } } } }

theorem armed_canIssue (x y : Word) (n : Need) : (armed x y).tile.canIssue n := quiet_canIssue _ rfl rfl rfl rfl n

/-- The tile of `armed` once it has joined its plan, as source (position 0) or as a member (position 1). -/
def joined (pos : Fin 6) : State :=
  let s := armed 3 1
  { s with tile := { s.tile with eng := { s.tile.eng with joined := true, pos := pos } } }

/-- Every operation on shingle 3 fits, outside a truss, as its source, and as its member. -/
theorem witness_EngineOperations :
    let t := (armed 3 1).tile
    let g := t.geom (t.g 2)
    (∀ n, t.canIssue n) ∧ (∀ p n, (joined p).tile.canIssue n) ∧ (g.kbase + g.kb ≤ 64 ∧ g.c0 + g.n ≤ 128) ∧
    (1 ≤ g.m ∧ g.m ≤ 128 ∧ g.row0 + g.m ≤ 128 ∧ g.col0 + g.n ≤ 128) ∧
    (∀ k, 32 * g.kbase ≤ k → k < 32 * (g.kbase + g.kb) → t.eng.badRows.contains k = false) ∧
    ReadyExtent t (t.g 1) (g.kb * blkBytes g.afmt) ∧ refOff (t.g 1) % 4 = 0 ∧ g.n * 4 % 4 = 0 ∧ t.eng.joined = false ∧
    (joined 0).tile.eng.joined = true ∧ (joined 0).tile.eng.pos.val % 3 = 0 ∧ (joined 1).tile.eng.pos.val % 3 ≠ 0 := by
  refine ⟨armed_canIssue 3 1, fun _ => quiet_canIssue _ rfl rfl rfl rfl, ?_, ?_, fun _ _ _ => rfl, ⟨_, rfl, rfl, ?_⟩, ?_⟩ <;> decide +kernel

/-- A partner in the grid, a READY shingle, a plan that holds the tile, and an engine with an operation queued. -/
theorem witness_Trusses :
    let t := (armed 3 1).tile
    (∀ n, t.canIssue n) ∧ inGrid t.gang.rows t.gang.cols ((t.g 2).toNat % 2 ^ 24) = true ∧
    t.sh (refSh (t.g 1)) = some ⟨.ready, 1024, 16, 0x2000, 0, 0⟩ ∧ t.holds (refSh (t.g 1)) = false ∧
    t.eng.joined = false ∧ (armed 0 1).tile.gang.prog.plans[((armed 0 1).tile.g 1).toNat % 2 ^ 16]? = some ⟨1, 2, 0, 0⟩ ∧
    (Plan.mk 1 2 0 0).posOf t.id.vt = some 0 ∧ (0 : Nat) < 6 ∧ (joined 0).tile.eng.joined = true ∧ (joined 0).tile.ops.mx = [] ∧
    (joined 0).tile.gang.prog.plans[(joined 0).tile.eng.plan.toNat]? = some ⟨1, 2, 0, 0⟩ := by
  refine ⟨armed_canIssue 3 1, ?_⟩
  decide +kernel

/-- SHDEF's second operand for a base and a length. -/
def extent (base len : Nat) : Word := BitVec.ofNat 64 (base + len * 2 ^ 19)

/-- Shingle 5 fits right behind shingle 3 and not inside it; shingle 3 is defined; shingle 9 is not. -/
theorem witness_Shingles :
    let t := (armed 5 (extent 0x2400 16)).tile
    (∀ n, t.canIssue n) ∧ t.ex.cw = none ∧ (∀ m : Fin 64, ∀ x ∈ t.sh m, 0x2400 + 16 * 64 ≤ x.base ∨ x.base + x.len * 64 ≤ 0x2400) ∧
    t.regs.shbase.toNat ≤ 0x2400 ∧ t.sh 5 = none ∧ (∃ x ∈ t.sh 3, ¬(0x2000 + 16 * 64 ≤ x.base ∨ x.base + x.len * 64 ≤ 0x2000)) ∧
    t.holds 3 = false ∧ calmS.tile.ex.prv = true ∧ t.sh 4 = some ⟨.empty, 0, 16, 0x3000, 0, 0⟩ ∧
    t.sh 3 = some ⟨.ready, 1024, 16, 0x2000, 0, 0⟩ ∧ t.sh 9 = none := by
  refine ⟨armed_canIssue _ _, ?_⟩
  decide +kernel

/-- The tile of `armed` with the page tables of `mapped`. -/
def copying (x y : Word) : State :=
  let s := mapped x y
  { s with tile := { s.tile with eng := (armed x y).tile.eng, gang := { s.tile.gang with prog := (armed x y).tile.gang.prog } } }

theorem copying_canIssue (x y : Word) (n : Need) : (copying x y).tile.canIssue n := quiet_canIssue _ rfl rfl rfl rfl n

/-- A copy of a full shingle from and to the start of an owned page; a deal of no byte and of 128 bytes; a counter that may be named. -/
theorem witness_Copies :
    let s := copying 0 0
    (∀ x y n, (copying x y).tile.canIssue n) ∧ s.tile.handPages 0x10000 1024 = ([ownedPage], none) ∧
    RangeReaches s .copyIn 0x10000 1024 [ownedPage] ∧ RangeReaches s .copyOut 0x10000 1024 [ownedPage] ∧ CtrFree s 0 ∧ CtrFree s 7 ∧
    s.tile.sh 3 = some ⟨.ready, 1024, 16, 0x2000, 0, 0⟩ ∧ s.tile.sh 4 = some ⟨.empty, 0, 16, 0x3000, 0, 0⟩ ∧ s.tile.holds 3 = false ∧
    (∀ k, s.tile.pad.bad.contains (k / 8) = false) ∧ s.tile.gang.prog.deals[0]? = some ⟨64, 1, 2, 0, 0, false⟩ ∧
    inGrid s.tile.gang.rows s.tile.gang.cols 1 = true := by
  refine ⟨copying_canIssue, by decide +kernel, ?_, ?_, .inl rfl, .inr ?_, by decide +kernel, by decide +kernel, by decide +kernel,
    fun _ => rfl, by decide +kernel, by decide +kernel⟩
  · unfold RangeReaches; decide +kernel
  · unfold RangeReaches; decide +kernel
  · decide +kernel

/-! ## Witnesses: messages, channels, counters, ownership -/

/-- SEND from the last line of the raw scratchpad to the tile itself; CALLAT with g28 as its first argument. -/
theorem witness_Messages :
    let s := withG 0 0x7FFC0
    (∀ n, s.tile.canIssue n) ∧ inGrid s.tile.gang.rows s.tile.gang.cols ((s.tile.g 1).toNat % 2 ^ 24) = true ∧
    (s.tile.g 2).toNat % 64 = 0 ∧ windowOf (s.tile.g 2).toNat = some (.raw, 0x7FFC0) ∧
    s.tile.gate true 10 none (Window.raw.touch 0x7FFC0 64) = .ok () ∧ s.tile.badLocal .raw 0x7FFC0 64 = none ∧ (28 : GReg).val ≤ 28 := by
  refine ⟨quiet_canIssue _ rfl rfl rfl rfl, by decide +kernel, by decide +kernel, rfl, rfl, rfl, by decide⟩

/-- A tile with a current message in slot 2 of channel 1, and another in slot 5. -/
def receiving : State := calmWith fun t => { t with
  inb := { t.inb with slots := [⟨2, 1, .send, false, 0, 0⟩, ⟨5, 1, .host, false, 1, 0⟩] }
  ex := { t.ex with chan := 1, curSlot := some 2 } }

/-- An entry inside the code segment, and the first one outside, no message held in the window, an overflow allocation that suffices; the current message, a slot
that is occupied, and no current message. -/
theorem witness_Handlers :
    let t := receiving.tile
    (∀ n, t.canIssue n) ∧ (∀ n, calm.tile.canIssue n) ∧ 0xFFC % 2 ^ 19 / 4 * 4 < t.regs.shbase.toNat ∧ (∀ m ∈ t.inb.window, m.chan ≠ 1) ∧
    (receiving.part t.id.part).held = [] ∧ OverflowFits receiving t.id.part ∧
    t.ex.inh = true ∧ (true && false) = false ∧ t.ex.curSlot = some 2 ∧ t.current = some ⟨2, 1, .send, false, 0, 0⟩ ∧
    t.inb.slots.find? (fun y => decide (y.slot.val = 5 % 256)) = some ⟨5, 1, .host, false, 1, 0⟩ ∧ calm.tile.current = none ∧
    (t.ex.cw = none ∧ t.regs.shbase.toNat ≤ 0x1000 % 2 ^ 19 / 4 * 4 ∧ ¬t.regs.shbase.toNat ≤ 0xFFF % 2 ^ 19 / 4 * 4) ∧ (1 : GReg) ≠ 0 := by
  refine ⟨quiet_canIssue _ rfl rfl rfl rfl, calm_canIssue, ?_⟩
  unfold OverflowFits
  decide +kernel

/-- A CWAIT in progress at counter 7, with its release acquired or not. -/
def waiting (acq : Option (List Nat)) : State := calmWith fun t => { t with
  ex := { t.ex with cw := some ⟨7, 1, false, 0, some 100, true, true, acq.isSome, acq⟩ } }

/-- A counter that may be named, none, and one that waits, before and after its release, for a host write and for none. -/
theorem witness_Counters : (∀ x y n, (withG x y).tile.canIssue n) ∧ CtrFree (withG 7 0) 7 ∧ (7 : W32) ≠ 0 ∧ (withG 7 0).tile.ex.cw = none ∧
    (withG 7 0).tile.denied 1 (((withG 7 0).part 0).ctrHome 7) = false ∧
    (waiting none).tile.ex.cw = some ⟨7, 1, false, 0, some 100, true, true, false, none⟩ ∧
    (waiting (some [])).tile.ex.cw = some ⟨7, 1, false, 0, some 100, true, true, true, some []⟩ ∧
    (true && decide (Scope.host = .host) && (waiting (some [])).hostPending []) = false := by
  refine ⟨fun _ _ => quiet_canIssue _ rfl rfl rfl rfl, .inr ?_, ?_⟩ <;> decide +kernel

/-- The first and the last word of a REDUCE page, with and without DET. -/
theorem witness_Atomics : (∀ n, (mapped 0 0).tile.canIssue n) ∧ LineReaches (mapped 0 0) .atomic 0x20000 8 reducePage ∧
    LineReaches (mapped 0 0) .atomic 0x2FFFC 4 reducePage := by
  refine ⟨mapped_canIssue 0 0, ?_⟩
  unfold LineReaches Reaches
  decide +kernel

theorem witness_ReductionsEnter : (∀ n, (mapped 0 0).tile.canIssue n) ∧ LineReaches (mapped 0 0) .red 0x20000 4 reducePage ∧
    LineReaches (mapped 0 0) .red 0x2FFF8 8 reducePage ∧ CtrFree (mapped 0 0) 7 ∧ (7 : W32) ≠ 0 ∧ 4 % 2 ^ 32 ≠ 0 := by
  refine ⟨mapped_canIssue 0 0, ?_, ?_, .inr ?_, ?_⟩
  · unfold LineReaches Reaches; decide +kernel
  · unfold LineReaches Reaches; decide +kernel
  · decide +kernel
  · decide +kernel

/-- A handle over one owned page; its count is zero, and it is not once a load of its range is outstanding. -/
def handed (busy : Bool) : State :=
  let s := mapped 0 0
  { s with tile := { s.tile with
      regs := { s.tile.regs with h := s.tile.regs.h.set 0 ⟨0x10000, 0x10000⟩ }
      ops := if busy then loading.tile.ops else s.tile.ops } }

theorem busy_canIssue : (handed true).tile.canIssue { regs := [.g 1, .g 2], reads := [.g 1, .g 2] } := by
  refine ⟨by decide +kernel, Nat.zero_le _, fun _ h => ?_, fun _ h => ?_⟩ <;> simp at h

theorem witness_Ownership :
    let s := handed false
    let r := s.tile.regs.h.get 0
    (∀ n, s.tile.canIssue n) ∧ (handed true).tile.canIssue { regs := [.g 1, .g 2], reads := [.g 1, .g 2] } ∧ CtrFree s 7 ∧
    r.base.toNat % 65536 = 0 ∧ r.len.toNat % 65536 = 0 ∧
    inGrid s.tile.gang.rows s.tile.gang.cols 1 = true ∧ s.tile.handPages r.base.toNat 0x10000 = ([ownedPage], none) ∧
    s.modePending s.tile.gang.asid r.base.toNat r.len.toNat = false ∧
    min (r.base.toNat + r.len.toNat) (2 ^ 56) - r.base.toNat = 0x10000 ∧ r.base.toNat ≤ ownedPage.va ∧ ownedPage.va + ownedPage.size ≤ r.base.toNat + 0x10000 ∧
    permits ownedPage.perms s.tile.ex.prv .handover = true ∧ s.tile.modeFor ownedPage ownedPage.va = (0, s.tile.id.vt) ∧
    s.tile.hcount 0 = 0 ∧ (handed true).tile.hcount 0 ≠ 0 := by
  refine ⟨quiet_canIssue _ rfl rfl rfl rfl, busy_canIssue, .inr ?_, ?_⟩ <;> decide +kernel

/-- A host write queued at port 0 for ASID 0. -/
def hostWriting : State := { calm with host := { calm.host with ports := calm.host.ports.set 0 { Port.fresh with writes := [⟨0, 0, 0, 0, 0, [some 1]⟩] } } }

/-- Counts of zero and a count that is not; a queued host write and none; role 0; an empty set of handles. -/
theorem witness_Fences : (∀ k : Fin 8, (1 : BitVec 8).getLsbD k.val = true → calm.tile.hcount k.val = 0) ∧
    ¬(∀ k : Fin 8, (1 : BitVec 8).getLsbD k.val = true → loading.tile.hcount k.val = 0) ∧
    calm.tile.ops.loads = [] ∧ calm.tile.ops.stores = [] ∧ calm.tile.ops.copies = [] ∧ calm.tile.ops.mx = [] ∧ calm.tile.ops.ms = [] ∧
    calm.hostPending (calm.tile.ex.acqWait.getD (calm.hostQueue 0)) = false ∧
    hostWriting.hostPending (hostWriting.tile.ex.acqWait.getD (hostWriting.hostQueue 0)) = true ∧ loading.tile.ops.loads ≠ [] ∧
    calm.tile.ex.cw = none ∧ (0xFF : BitVec 8) ≠ 0 := by decide +kernel

/-- A live gang with one virtual tile of a 2 by 2 grid. -/
def oneGang : Gang :=
  { State.reset.newGang 0 1 ⟨0, [], 0⟩ ⟨1, 0, false, [], 2, 2, 0, 0x1000, 0x200, [], [], ⟨[], [], [], []⟩⟩ with rows := 2, cols := 2, launchSent := true }

/-- The calm module at S with the gang of its tile live, which may be stopped. -/
def ganged (f : Gang → Gang) : State := { calmS with gangs := [f oneGang] }

/-- A gang that runs, one that GSTOP stopped, one whose stop has been turned back, and a name that no gang has; the counter is none, or one
that the partition is not denied. -/
theorem witness_GangControl : (∀ n, calmS.tile.canIssue n) ∧ calmS.tile.ex.prv = true ∧
    (ganged id).tile.denied 0 (((ganged id).part 0).ctrHome 7) = false ∧ calmS.gang 0 1 = none ∧
    (∃ g, (ganged id).gang 0 1 = some g ∧ g.stopping = false ∧ g.stopWork = false ∧ g.stopDone = false) ∧
    (∃ g, (ganged fun g => { g with byGstop := true }).gang 0 1 = some g ∧ g.stopping = true) ∧
    (∃ g, (ganged fun g => { g with stopWork := true }).gang 0 1 = some g ∧ g.stopping = false ∧ g.stopWork = true) ∧
    ∃ g, (ganged fun g => { g with stopDone := true }).gang 0 1 = some g ∧ g.stopping = false ∧ g.stopDone = true := by
  refine ⟨calmS_canIssue, rfl, by decide +kernel, rfl, ⟨_, rfl, rfl, rfl, rfl⟩, ⟨_, rfl, rfl⟩, ⟨_, rfl, rfl, rfl⟩, ⟨_, rfl, rfl, rfl⟩⟩

/-! ## Witnesses: events of a tile -/

/-- A calm tile with a code word at its PC, whose block stands in the fetch buffer. -/
def coded (w : Nat) : State := calmWith fun t => { t with
  pad := { t.pad with bytes := Memory.setNat [] 0x100 4 w }
  iss := { t.iss with fetch := { t.iss.fetch with blocks := [(8, 32)] } } }

/-- A result on its way at the end of its cycle. -/
def due (w : RegWrite) : Tile := { calmTile with iss := { calmTile.iss with writes := [⟨32, w, none⟩], ending := true } }

/-- A pending trap at a boundary at U; a word that is no instruction, and a TAIL; a fetch behind the code segment, not the first at TVEC and
the first; a due result; a cycle at its start; a new DUTY at the start of a window, and a new step. -/
theorem witness_CycleEvents :
    let pending : Tile := { calmTile with ex := { calmTile.ex with pends := [⟨0x0B, 0, 8, none, false⟩] } }
    let past (b : Bool) : Tile := { calmTile with ex := { calmTile.ex with pc := 0x1000, tvecFetch := b } }
    let stepping : Tile := { calmTile with ni := { calmTile.ni with dutyNext := some 1, stepNext := some 3 } }
    (pending.ex.pends = [⟨0x0B, 0, 8, none, false⟩] ∧ pending.mayRun = true ∧ pending.ni.paused = false ∧ pending.ex.inh = true ∧
      pending.ex.prv = false ∧ pending.iss.tail = none ∧ pending.iss.ending = false ∧ pending.ex.cw = none) ∧
    ((coded 0x2C000000).tile.atIssue = true ∧ (coded 0x2C000000).tile.fetch 0 = .unassigned 0x2C000000 none ∧
      (0x2C000000 : W32).toNat / 2 ^ 26 ≠ 0x3F) ∧
    ((coded 0xFCE00389).tile.atIssue = true ∧ (coded 0xFCE00389).tile.fetch 0 = .unassigned 0xFCE00389 none ∧
      (0xFCE00389 : W32).toNat / 2 ^ 26 = 0x3F) ∧
    (∀ b, (past b).atIssue = true ∧ (past b).fetch 0 = .fault 0x1000 false ∧ (past b).ex.tvecFetch = b ∧ (past b).ex.cw = none) ∧
    (∀ w, (due w).iss.writes[0]? = some ⟨32, w, none⟩ ∧ (due w).iss.ending = true ∧ 32 ≤ (due w).iss.cycle) ∧
    (calmTile.counts = true ∧ calmTile.iss.ending = false ∧ calmTile.iss.stall = none) ∧
    (stepping.ni.dutyNext = some 1 ∧ stepping.iss.cycle % 16 = 0 ∧ stepping.iss.ending = false ∧ stepping.ni.stepNext = some 3 ∧
      stepping.counts = true ∧ stepping.iss.tail = none) := by
  refine ⟨by decide +kernel, ⟨by decide +kernel, rfl, by decide⟩, ⟨by decide +kernel, rfl, by decide⟩, ?_, fun _ => ⟨rfl, rfl, Nat.le_refl 32⟩,
    by decide +kernel, by decide +kernel⟩
  intro b; cases b <;> exact ⟨by decide +kernel, rfl, rfl, rfl⟩

/-- The two outcomes of MTS of TVEC (at and below SHBASE), of SHBASE (at and above TVEC, and above a shingle), of TSTAT, of FMODE, of TCAUSE
and of the ACLASS of TINFO. -/
theorem witness_MtsWrites :
    (calmTile.regs.shbase.toNat ≤ 0x1000 % 2 ^ 19 / 4 * 4 ∧ ¬calmTile.regs.shbase.toNat ≤ 0xFFF % 2 ^ 19 / 4 * 4) ∧
    (0x23F % 2 ^ 19 / 64 * 64 ≤ calmTile.regs.tvec.toNat ∧ calmTile.regs.tvec.toNat < 0x240 % 2 ^ 19 / 64 * 64) ∧
    (∀ n, calmTile.sh n = none) ∧
    (∃ n y, ({ calmTile.eng with shingles := calmTile.eng.shingles.set 3 (some ⟨.empty, 0, 1, 0x2000, 0, 0⟩) }).shingles.get n = some y ∧
      y.base < 0x2040) ∧ (1 % 4 < 2 ∧ ¬2 % 4 < 2) ∧ (4 % 8 < 5 ∧ ¬5 % 8 < 5) ∧
    (0x111 % 256 ≤ 0x11 ∧ ¬0x112 % 256 ≤ 0x11) ∧ (¬10 < 0xAFF / 2 ^ 8 % 16 ∧ 10 < 0xB00 / 2 ^ 8 % 16) := by
  refine ⟨by decide, by decide, fun n => ?_, ⟨3, ⟨.empty, 0, 1, 0x2000, 0, 0⟩, rfl, by decide⟩, by decide, by decide, by decide, by decide⟩
  revert n; decide +kernel

/-- Operations of the tile of `mapped`. -/
def operating (f : Outstanding → Outstanding) (g : Issue → Issue) : State :=
  let s := mapped 0 0
  { s with tile := { s.tile with ops := f s.tile.ops, iss := g s.tile.iss } }

/-- A global load of 4 bytes of the owned page, without or with its value; a local load that arrives at the end of cycle 32; a vector load of
lanes 0 and 15; CRD and an atomic with their values. -/
def globalLoad (v : Option Word) : OutLoad :=
  { stamp := 0, kind := .global .signed, elems := [⟨.g 3, 0, 0x10000, 0x20000, 4, v⟩], regs := [.g 3], hs := 0, issued := 8, aclass := 4, ecc := none }
def localLoad : OutLoad :=
  { stamp := 0, kind := .timed 32 true, elems := [⟨.g 3, 0, 0x2000, 0, 4, some 9⟩], regs := [.g 3], hs := 0, issued := 30, aclass := 2, ecc := none }
def laneLoad : OutLoad := { localLoad with
  elems := [⟨.v 3, 0, 0x2000, 0, 4, some 9⟩, ⟨.v 3, 15, 0x203C, 0, 4, some 8⟩], regs := [.v 3] }
def crdLoad (v : Option Word) : OutLoad :=
  { globalLoad v with kind := .crd 7 true, elems := [⟨.g 3, 0, 0, 0, 8, v⟩], issued := 16, aclass := 7 }

/-- A global store of 4 bytes, on its way or performed. -/
def globalStore (done : Bool) : OutStore := ⟨0, [⟨0, 0x10000, 0x20000, [1, 2, 3, 4], done⟩], false, none, 0⟩

/-- Loads that arrive in their earliest cycle: local ones, a vector load, a global one, an atomic, CRD. -/
theorem witness_MemoryEvents_arrivals :
    let at_ (b : Bool) (o : OutLoad) : State := operating (fun x => { x with loads := [o] }) fun i => { i with ending := b }
    let atomic : OutLoad := { globalLoad (some 9) with kind := .atomic .aadd 1 0 false .signed }
    (∀ o ∈ [localLoad, laneLoad], (at_ true o).tile.ops.loads[0]? = some o ∧ o.ecc = none ∧ o.kind = .timed 32 true ∧
      (at_ true o).tile.iss.cycle = 32 ∧ (at_ true o).tile.iss.ending = true ∧ (at_ true o).tile.firstDue = some 0) ∧
    (∀ o ∈ [globalLoad (some 9), atomic, crdLoad (some 9)], (at_ false o).tile.ops.loads[0]? = some o ∧ o.ecc = none ∧
      (at_ false o).tile.counts = true ∧ (at_ false o).tile.iss.ending = false ∧ (at_ false o).answering o.stamp = false) ∧
    ((globalLoad (some 9)).issued + 24 = 32 ∧ (crdLoad (some 9)).issued + 16 = 32) ∧
    ((∀ e ∈ laneLoad.elems, ∃ r v, e.reg = .v r ∧ e.val = some v) ∧ (∀ e ∈ laneLoad.elems, e.lane.val < 16) ∧
      ∀ e ∈ laneLoad.elems, ∀ f ∈ laneLoad.elems, e.reg = f.reg → e.lane = f.lane → e = f) := by
  refine ⟨by decide +kernel, by decide +kernel, by decide, ?_, by decide, by decide⟩
  intro e he
  obtain rfl | rfl : e = ⟨.v 3, 0, 0x2000, 0, 4, some 9⟩ ∨ e = ⟨.v 3, 15, 0x203C, 0, 4, some 8⟩ := by simpa [laneLoad] using he
  · exact ⟨3, 9, rfl, rfl⟩
  · exact ⟨3, 8, rfl, rfl⟩

/-- A store that is visible; a load, a store and CRD at their home. -/
theorem witness_MemoryEvents_homes :
    let v := operating (fun o => { o with stores := [globalStore true] }) id
    let r := operating (fun o => { o with loads := [globalLoad none] }) id
    let w := operating (fun o => { o with stores := [globalStore false] }) id
    let c : State := { operating (fun o => { o with loads := [crdLoad none] }) id with
      sync := { State.reset.sync with ctrs := [⟨5, 7, 3, 1, false, true, []⟩] } }
    (v.tile.ops.stores[0]? = some (globalStore true) ∧ (∀ e ∈ (globalStore true).elems, e.done = true) ∧ v.answering 0 = false) ∧
    (r.tile.ops.loads[0]? = some (globalLoad none) ∧ r.reqComingTo 0 (stackOf 0x20000) = false ∧ r.lineHeld 0 0x20000 true = false ∧
      r.badHbm 0x20000 4 = false ∧ r.tile.readsFirst 0 0x20000 4 = false) ∧
    (w.tile.ops.stores[0]? = some (globalStore false) ∧ w.reqComingTo 0 (stackOf 0x20000) = false ∧
      w.lineHeld 0 0x20000 false = false ∧ w.badPartial 0x20000 ([1, 2, 3, 4].map some) = []) ∧
    (c.tile.ops.loads[0]? = some (crdLoad none) ∧ c.reqComing 0 = false ∧ c.numberedBefore 0 (c.ctrEngine c.tile.gang.asid 7) (some 7) = false ∧
      c.sync.bad.contains (ctrKey c.tile.gang.asid 7) = false ∧ (7 : W32) ≠ 0xFFFFFFFF ∧
      c.counter c.tile.gang.asid 7 = some ⟨5, 7, 3, 1, false, true, []⟩) := by
  decide +kernel

/-- A page that an access waits for, and one that none does; an operation that is done; a CWAIT that is released in time, at its deadline and
past it, and one whose deadline has passed. -/
theorem witness_MemoryEvents_rest :
    let s := mapped 0 0
    let bare : State := { s with tile := { s.tile with ni := { s.tile.ni with tlb := [], misses := [0x10000] } } }
    let at_ (n : Nat) (c : CwState) : State := { calmWith fun t => { t with ex := { t.ex with cw := some c } } with
      fab := { State.reset.fab with time := n } }
    let freed (d : Option Nat) : CwState := ⟨7, 1, false, 0, d, true, true, true, none⟩
    (bare.tile.ni.misses.contains 0x10000 = true ∧ bare.tile.ni.paused = false ∧ bare.walk 5 0x10000 = some ownedPage ∧
      bare.tile.ni.tlb = [] ∧ bare.mem.unitTlb = [] ∧ bare.tile.ni.misses.contains 0x20000 = false ∧ bare.mem.bad = [] ∧
      (let gap : State := { bare with tile := { bare.tile with ni := { bare.tile.ni with misses := [0x40000] } } }
       gap.tile.ni.misses.contains 0x40000 = true ∧ gap.walk gap.tile.gang.asid 0x40000 = none)) ∧
    (let told : State := { s with fab := { s.fab with flits := [⟨.deny 0 2 3 0, false, 0, 0, 4, 0, 0, 0, false, false⟩] } }
     s.travelling (.deny s.tile.id.part 2 3 s.tile.pl.phys) = false ∧ told.travelling (.deny told.tile.id.part 2 3 told.tile.pl.phys) = true) ∧
    ((operating (fun o => { o with ms := [⟨0, .cadd 7 1, false, 0, true⟩] }) id).tile.ops.ms[0]? = some ⟨0, .cadd 7 1, false, 0, true⟩ ∧
      (operating (fun o => { o with ms := [⟨0, .cadd 7 1, false, 0, true⟩] }) id).answering 0 = false) ∧
    ((at_ 100 (freed (some 100))).answering 0 = false ∧ (at_ 100 (freed (some 100))).tileTime ≤ 100 ∧
      100 < (at_ 101 (freed (some 100))).tileTime ∧ (freed none).deadline = none) ∧
    (let late := at_ 101 ⟨7, 1, false, 0, some 100, true, true, false, none⟩
     100 < late.tileTime ∧ late.tile.ni.paused = false ∧ late.tile.iss.ending = false ∧ late.tile.ex.pends = []) := by
  decide +kernel

/-! ## Witnesses: events of the sync engines, of copies and of the engine -/

/-- A message for channel 1 of the calm tile. -/
def note : Msg := ⟨0, 0, 1, .op 1 0, 0, 1, .send, false, 0, 1, [7], true, some 0, false⟩

/-- A message that has arrived at a running tile with room in its inbox, and one in the overflow queue. -/
theorem witness_SyncEvents_messages :
    let s : State := { ganged id with fab := { State.reset.fab with flight := [note] } }
    let t := s.tile
    (s.fab.flight[0]? = some note ∧ note.sent = true ∧ s.travelling (.msg note.serial) = false ∧ t.id = ⟨note.part, note.gid, note.dst⟩ ∧
      note.phys = some 0 ∧ s.seen t.id 0 = some 0 ∧ note.seqno = (t.expected note).next ∧ (t.expected note).taken = [] ∧
      t.inb.window = [] ∧ t.inb.overflow = [] ∧ t.admits note.chan = true ∧ t.ex.inh = true ∧ (s.part 0).held = [] ∧ OverflowFits s note.part) ∧
    (let q : State := { s with tile := { t with inb := { t.inb with overflow := [note] } } }
     let q := q.updPart 0 fun p => { p with gov := { p.gov with ovfalloc := 65536 } }
     q.tile.admits 1 = true ∧ q.tile.inb.window = [] ∧ OverflowFits q 0) ∧ t.pl.res = .resident ∧ note.parked = false := by
  unfold OverflowFits
  decide +kernel

/-- A quota of nine of every table for partition 0. -/
def roomyPart (s : State) : State := s.updPart 0 fun p => { p with gov := { p.gov with quota := Vector.replicate 4 9 } }

/-- Few entries, none of them a waiter, leave room under a quota of nine. -/
theorem roomy_of (s : State) (q : ∀ k, (s.part 0).gov.quota.get k = 9) (c : s.sync.ctrs.length < 9) (w : ∀ x ∈ s.sync.ctrs, x.waiters = [])
    (l : s.sync.lines.length < 9) (h : s.sync.holds.length < 9) : Roomy s 0 := by
  intro table engine
  rw [q]
  have none_ (x : List Counter) (h : ∀ y ∈ x, y.waiters = []) : ∀ n, x.foldl (fun n y => n + y.waiters.length) n = n := by
    induction x with
    | nil => exact fun _ => rfl
    | cons a t ih => intro n; simp [h a (by simp), ih fun y hy => h y (by simp [hy])]
  match table with
  | 0 => exact Nat.lt_of_le_of_lt List.countP_le_length c
  | 1 =>
    show List.foldl _ 0 (List.filter _ _) < 9
    rw [none_ _ fun y hy => w y (List.mem_filter.mp hy).1]
    decide
  | 2 => exact Nat.lt_of_le_of_lt List.countP_le_length l
  | _ + 3 => exact Nat.lt_of_le_of_lt List.countP_le_length h

/-- Counter 7 of ASID 5 with VALUE 3, and one operation of the tile. -/
def counting (k : MsKind) : State :=
  let s := operating (fun o => { o with ms := [⟨0, k, false, 0, false⟩] }) id
  roomyPart { s with sync := { s.sync with
    ctrs := [⟨5, 7, 3, 0, false, false, []⟩], credits := [⟨9, 5, 1, 7, 1, -1⟩], lines := [⟨5, 0x30000, 0x20000⟩] } }

theorem counting_roomy (k : MsKind) : Roomy (counting k) 0 :=
  roomy_of _ (show ∀ j : Fin 4, (Vector.replicate 4 9).get j = 9 by decide) (show 1 < 9 by decide)
    (fun _ h => by obtain rfl := List.mem_singleton.mp h; rfl) (show 1 < 9 by decide) (show 0 < 9 by decide)

/-- A waiter whose condition holds and one whose does not; counter operations; a credit; a seal, with DET and without. -/
theorem witness_SyncEvents_counters :
    let s (k : MsKind) := counting k
    let w (thr : Word) : State := { counting .msg with tile := { (counting .msg).tile with
      ops := Outstanding.fresh, ex := { (counting .msg).tile.ex with cw := some ⟨7, thr, false, 1, none, true, false, false, none⟩ } } }
    (∀ k, (s k).tile.ops.ms[0]? = some ⟨0, k, false, 0, false⟩ ∧ (s k).reqComing 0 = false ∧ Roomy (s k) (s k).tile.id.part) ∧
    ((s (.cadd 7 1)).numberedBefore 0 ((s (.cadd 7 1)).ctrEngine 5 7) (some 7) = false ∧
      (s (.seal 7 2 0)).numberedBefore 0 ((s (.seal 7 2 0)).ctrEngine 5 7) (some 7) = false) ∧
    ((s .msg).sync.bad.contains (ctrKey 5 7) = false ∧ (7 : W32) ≠ 0xFFFFFFFF ∧ (s .msg).counter 5 7 = some ⟨5, 7, 3, 0, false, false, []⟩) ∧
    ((s .msg).sync.credits[0]? = some ⟨9, 5, 1, 7, 1, -1⟩ ∧ (s .msg).travelling (.pkt 9) = false ∧ (s (.seal 7 2 0)).sealWaits 0 = false ∧
      (s .msg).sync.rounds = [] ∧ (s (.seal 7 2 0)).tile.gang.det = false ∧ (3 : Word).toNat + 1 < 2 ^ 64 ∧ 1 < 2) ∧
    (∀ thr, Roomy (w thr) 0 ∧ (w thr).reqComing 1 = false) ∧
    ((w 3).numberedBefore 1 ((w 3).ctrEngine 5 7) (some 7) = false ∧ (3 : Word).toNat ≤ (3 : Word).toNat ∧ ¬(4 : Word).toNat ≤ (3 : Word).toNat) := by
  refine ⟨fun k => ⟨rfl, rfl, counting_roomy k⟩, by decide +kernel, by decide +kernel, by decide +kernel, fun _ => ⟨counting_roomy .msg, rfl⟩, by decide +kernel⟩

/-- The tile of `counting` with DET. -/
def exact_ (k : MsKind) : State :=
  let s := counting k
  { s with tile := { s.tile with gang := { s.tile.gang with det := true } } }

/-- An atomic and a reduction at the REDUCE page, with DET and without, and at a line that is not buffered; a seal with DET; a fault that has
waited 1,000 ms, and a hand-over of the owned page. -/
theorem witness_SyncEvents_lines :
    let a := { counting .msg with tile := { (counting .msg).tile with ops := { Outstanding.fresh with loads :=
      [{ stamp := 0, kind := .atomic .aadd 1 0 false .signed, elems := [⟨.g 3, 0, 0x20000, 0x30000, 4, none⟩], regs := [.g 3], hs := 0
         issued := 8, aclass := 6, ecc := none }] } } }
    let red (va pa : Nat) : MsKind := .red .radd .s32 va pa 1 false 0 0
    let r := counting (red 0x20000 0x30000)
    let h := counting (.handover 0 0x10000 0x10000 1 false 0)
    let hold : Hold := ⟨⟨0, 1, 0⟩, 5, 0, 0, .radd, .s32, 0x20000, 0x30000, 1, false, none⟩
    let f : State := { ganged id with
      sync := { State.reset.sync with faults := [⟨5, 0, 6, hold, [], true, 0⟩] }
      fab := { State.reset.fab with time := 1000000000 } }
    (a.reqComing 0 = false ∧ a.numberedBefore 0 (a.lineEngine 5 0x30000) none = false ∧ (∃ l ∈ a.sync.lines, l.pa = 0x30000 / 64 * 64) ∧
      a.sync.bad.contains (0x30000 / 8) = false ∧ Roomy a 0) ∧
    (r.numberedBefore 0 (r.lineEngine 5 0x30000) none = false ∧ r.walk 5 0x20000 = some reducePage ∧ permits reducePage.perms false .red = true ∧
      reducePage.mode = 2 ∧ r.tile.gang.det = false ∧ (∃ l ∈ r.sync.lines, l.pa = 0x30000 / 64 * 64) ∧ r.sync.bad.contains (0x30000 / 8) = false) ∧
    (let d := exact_ (red 0x2FFFC 0x3FFFC)
     d.tile.gang.det = true ∧ d.reqComing 0 = false ∧ d.numberedBefore 0 (d.lineEngine 5 0x3FFFC) none = false ∧
      d.walk 5 0x2FFFC = some reducePage ∧ 0x3FFFC = reducePage.pa + (0x2FFFC - reducePage.va) ∧ (∀ l ∈ d.sync.lines, l.pa ≠ 0x3FFFC / 64 * 64) ∧
      (exact_ (.seal 7 2 0)).tile.gang.det = true ∧ (exact_ (.seal 7 2 0)).sealWaits 0 = false ∧ (exact_ (.seal 7 2 0)).sync.rounds = []) ∧
    (∀ k, Roomy (exact_ k) 0) ∧
    (f.faultOf 5 0 = some ⟨5, 0, 6, hold, [], true, 0⟩ ∧ (f.part 0).gov.faultwait = 0 ∧ 0 + 1000 * 10 ^ 6 ≤ f.fab.time ∧
      (f.gang 0 1).isSome = true) ∧
    (h.tile.handleBusy 0 0 = false ∧ h.tile.rangeBusy 0x10000 0x10000 0 = false ∧ h.pagesOf 5 0x10000 0x10000 = ([ownedPage], none) ∧ h.leafAddr 5 0x10000 = some 0x5008) := by
  refine ⟨⟨rfl, by decide +kernel, by decide +kernel, by decide +kernel, counting_roomy .msg⟩, by decide +kernel, by decide +kernel,
    fun k => counting_roomy k, by decide +kernel, by decide +kernel⟩

/-- A copy of two units: CPIN of shingle 4 with its first line read, or CPOUT of shingle 3. -/
def copyOf (k : CopyKind) (released : Bool) : OutCopy :=
  { stamp := 0, kind := k, sh := if k = .cpin then 4 else 3, va := 0x10000, len := 128, pages := [(1, 0x20000)], ctr := 7, vis := 0
    flag := false, hostWait := [], buf := [(0, 9)], bad := [], units := if released then [0, 64] else [0], left := 128
    released := released, visible := false, ecc := none, hs := 0 }

/-- The tile of `copying` with a copy, a fill of shingle 4, and its shingles in the states that the copy needs. -/
def moving (c : OutCopy) : State :=
  let s := copying 0 0
  { s with tile := { s.tile with
      ops := { s.tile.ops with copies := [c], fills := [⟨.copy 0 0 0, 4, 128, 128, []⟩] }
      eng := { s.tile.eng with shingles :=
        (s.tile.eng.shingles.set 3 (some ⟨.draining, 1024, 16, 0x2000, 0, 7⟩)).set 4 (some ⟨.filling, 0, 16, 0x3000, 7, 0⟩) } } }

/-- A line that lands, a release point, a visibility point, a copy that fails. -/
theorem witness_CopyEvents_copies :
    let s := moving (copyOf .cpin false)
    let r := moving (copyOf .cpout false)
    let v := moving (copyOf .cpout true)
    (s.tile.sh 4 = some ⟨.filling, 0, 16, 0x3000, 7, 0⟩ ∧ s.tile.ops.fills[0]? = some ⟨.copy 0 0 0, 4, 128, 128, []⟩ ∧
      (Fill.mk (.copy 0 0 0) 4 128 128 []).complete = false ∧ ∀ a, a < 0 + 64 → (Fill.mk (.copy 0 0 0) 4 128 128 []).has a = false ∧
        s.fillByte ⟨.copy 0 0 0, 4, 128, 128, []⟩ a = some (some (if a = 0 then 9 else 0))) ∧
    (r.tile.ops.copies[0]? = some (copyOf .cpout false) ∧ r.tile.sh 3 = some ⟨.draining, 1024, 16, 0x2000, 0, 7⟩) ∧
    ((copyOf .cpout true).allUnits = true ∧ v.tile.ops.copies[0]? = some (copyOf .cpout true) ∧ v.answering 0 = false) ∧
    (let c := copyOf .cpin false
     let bad : State := { s with mem := { s.mem with bad := [0x20048 / 8, 0x20070 / 8] } }
     c.kind ≠ .cpt ∧ c.unitLeft 0x1007F = true ∧ s.tile.ex.pends.length < 96 ∧ copyUnit c.va c.len 0x1007F = (0x10040, 64) ∧
      bad.badHbm (c.pa 0x10048) 1 = true ∧ (∀ k, k < 8 → bad.badHbm (c.pa (0x10040 + k)) 1 = false) ∧
      ∀ k, k < 64 → s.badHbm (c.pa (0x10040 + k)) 1 = false) := by
  decide +kernel

/-- A remote fill of an EMPTY shingle at its recipient, and two tiles of one gang that exchange shingle 3. -/
theorem witness_CopyEvents_remote :
    let swap (vt q : Nat) : Tile := { (armed 3 1).tile with
      id := ⟨0, 1, vt⟩
      ops := { Outstanding.fresh with mx := [⟨0, .mswap q 0, (armed 3 1).tile.geom 0, some 3, 0, none, none, none⟩] } }
    let s : State := { ganged id with
      tile := swap 0 1, others := [swap 1 0]
      fab := { State.reset.fab with remotes := [⟨0, ⟨0, 1, 0⟩, 1, 0, 0, 4, 64, 7, some 0, false⟩] } }
    (s.seen s.tile.id 0 = some 0 ∧ s.tile.sh 4 = some ⟨.empty, 0, 16, 0x3000, 0, 0⟩ ∧ s.tile.holds 4 = false ∧
      ∀ r ∈ s.fab.remotes, r.parked = false ∧ r.phys = some 0 ∧ s.fillBehind r = false) ∧
    (s.findTile { s.tile.id with vt := 1 } = some (swap 1 0) ∧ ((swap 1 0).swapWith 0 0).isSome = true ∧ s.tile.present = true ∧
      (swap 1 0).present = true ∧ ∀ o ∈ s.tile.ops.mx, s.tile.swapLen o = 1024 ∧ (s.tile.swapBytes o 1024).2 = []) := by
  decide +kernel

/-- An engine operation that may start, and one of each kind that is complete, its rectangle at the far corner of the accumulator, its columns
the last of the store, and its rows packed. -/
theorem witness_EngineEvents_operations :
    let s (d : Option Nat) (k : MxKind) (g : Geom) : State :=
      let a := armed 3 1
      { a with tile := { a.tile with ops := { a.tile.ops with mx := [⟨0, k, g, some 3, 0, d, none, none⟩] } } }
    let near := (armed 3 1).tile.geom 1
    let far : Geom := ⟨.lb8, .lb8, 1, 64, 127, 64, 0, 0, 1, 64⟩
    let t := (s none .mma near).tile
    ((s none .mma near).sourceGone = false ∧ t.mxHead = some ⟨0, .mma, near, some 3, 0, none, none, none⟩ ∧ t.counts = true ∧
      ((t.seen 0 0).rowsFor ⟨0, .mma, near, some 3, 0, none, none, none⟩).isSome = true ∧
      t.badSource ⟨0, .mma, near, some 3, 0, none, none, none⟩ = none ∧
      t.badParity ⟨0, .mma, near, some 3, 0, none, none, none⟩ = none ∧ t.badAcc near 1 = none) ∧
    (∀ k ∈ [MxKind.mloadb, .mzero, .mma, .mmat false true 0, .mmat true false 0, .ms2acc .bf16, .macc2s true .f32 0],
      (s (some 31) k far).tile.mxHead = some ⟨0, k, far, some 3, 0, some 31, none, none⟩ ∧ 31 < (s (some 31) k far).tile.iss.cycle ∧
      ∀ e ∈ (s (some 31) k far).tile.pad.early, e.1 ≠ 0) ∧
    (far.c0 + far.n = 128 ∧ far.row0 + far.m = 128 ∧ far.col0 + far.n = 128 ∧ far.n * accSize .f32 ≤ far.rs (far.n * accSize .f32)) := by
  decide +kernel

/-- Two members of a plan of two tiles, the current one at a position, with what is on its way to it and to its mate. -/
def trussed (pos : Fin 6) (f : Tile → Tile) (l : List Notice) (rows : List RowPacket) (mate : Bool) : State :=
  { ganged (fun g => { g with image := { g.image with prog := (joined 0).tile.gang.prog } }) with
    tile := f { (joined pos).tile with id := ⟨0, 1, pos.val⟩ }
    others := [{ (joined (1 - pos)).tile with id := ⟨0, 1, 1 - pos.val⟩, eng := { (joined (1 - pos)).tile.eng with joined := mate } }]
    fab := { State.reset.fab with notices := l, rowPackets := rows } }

/-- A join notice to a present member and to a finished one; a leave notice while the source is there and after it has gone. -/
theorem witness_EngineEvents_notices :
    let join : Notice := ⟨1, ⟨0, 1, 0⟩, some 0, 1, 0, false⟩
    let leave (vt : Nat) : Notice := ⟨2, ⟨0, 1, vt⟩, some 0, 1 - vt, 0, true⟩
    let s := trussed 0 id [join, leave 0] [] true
    let done := trussed 0 (fun t => { t with pl := { t.pl with finished := true } }) [join] [] true
    let gone := trussed 1 id [leave 1] [] false
    (s.fab.notices[0]? = some join ∧ s.travelling (.pkt 1) = false ∧ s.seen join.dst 0 = some 0 ∧ s.findTile join.dst = some s.tile) ∧
    (done.findTile join.dst = some done.tile ∧ done.tile.pl.finished = true) ∧
    (s.fab.notices[1]? = some (leave 0) ∧ s.travelling (.pkt 2) = false ∧ (leave 0).dst = s.tile.id ∧ s.sourceGone = false) ∧
    (gone.fab.notices[0]? = some (leave 1) ∧ gone.travelling (.pkt 2) = false ∧ (leave 1).dst = gone.tile.id ∧ gone.sourceGone = true) := by
  decide +kernel

/-- Rows on their way to a tile outside a truss, to a member that awaits them, and to one that has moved. -/
theorem witness_EngineEvents_rows :
    let pkt (phys : Option Nat) : RowPacket := ⟨3, ⟨0, 1, 1⟩, phys, 0, 0, [[]]⟩
    let s (phys : Option Nat) := trussed 1 (fun t => { t with ops := { t.ops with
      mx := [⟨0, .mmat true false 0, t.geom 0, none, 0, none, none, none⟩] } }) [] [pkt phys] true
    let out : State := { calm with tile := { calmTile with id := ⟨0, 1, 1⟩ }, fab := { calm.fab with rowPackets := [pkt (some 0)] } }
    (out.tile.eng.joined = false ∧ (pkt none).dst = out.tile.id ∧ out.fab.rowPackets[0]? = some (pkt (some 0)) ∧ out.fab.flits = []) ∧
    (∀ phys ∈ [some 0, some 1], (s phys).fab.rowPackets[0]? = some (pkt phys) ∧ (pkt phys).dst = (s phys).tile.id ∧
      (s phys).fab.flits = [] ∧ (s phys).tile.eng.joined = true ∧ (s phys).tile.eng.plan.toNat = 0 ∧ (s phys).tile.eng.joinSerial ≤ 3 ∧
      (s phys).tile.based = some 0 ∧
      (s phys).tile.ops.mx.any (fun o => decide (o.kind = .mmat true false 0) && o.rows.isNone) = true) := by
  decide +kernel

/-- A truss of which every member joins: both members here, one of them absent; one whose members have joined already; a plan that is larger than
any pool. -/
theorem witness_EngineEvents_joins :
    let o : MxOp := ⟨0, .mjoin 0, (armed 0 1).tile.geom 0, none, 0, none, none, none⟩
    let join (t : Tile) : Tile := { t with ops := { t.ops with mx := [o] } }
    let with_ (s : State) : State := { s with tile := join s.tile, others := s.others.map join }
    let ready := trussed 0 id [] [] true
    let s := with_ ready
    let away := with_ (trussed 0 (fun t => { t with pl := { t.pl with res := .absent } }) [] [] true)
    let ids := (Plan.mk 1 2 0 0).tiles 0 1
    (∃ g, s.gang 0 1 = some g ∧ g.image.prog.plans[0]? = some ⟨1, 2, 0, 0⟩ ∧ g.mayChange = true) ∧ ids = [⟨0, 1, 0⟩, ⟨0, 1, 1⟩] ∧
    (∀ m ∈ [s, away], (∀ i ∈ ids, ∃ x ∈ m.tiles, m.findTile i = some x) ∧ ∀ x ∈ m.tiles, x.eng.joined = true ∧ x.eng.plan.toNat = 0 ∧ x.ops.mx = [o]) ∧
    o.kind = .mjoin 0 ∧
    (∀ i ∈ ids, ∃ x ∈ s.tiles, s.findTile i = some x ∧ x.pl.res = .resident ∧ x.pl.pinned = false) ∧
    (∀ x ∈ away.tiles, x.pl.res = .resident ↔ x.id ≠ ⟨0, 1, 0⟩) ∧
    (∀ x ∈ ready.tiles, x.ops.mx = []) ∧
    ∀ p, (State.reset.pool p).length < ((Plan.mk 300 300 0 0).tiles 0 1).length := by
  refine ⟨⟨_, rfl, rfl, rfl⟩, by decide +kernel, by decide +kernel, rfl, by decide +kernel, by decide +kernel, by decide +kernel, fun p => ?_⟩
  have h : (State.reset.pool p).length ≤ 57344 := Nat.le_trans (List.length_filter_le _ _) (by simp)
  have l : ((Plan.mk 300 300 0 0).tiles 0 1).length = 90000 := by
    simp only [Plan.tiles, Plan.members, List.length_map, List.length_flatMap, List.length_range]
    decide +kernel
  omega

/-- A K-row that has flipped, and a group that holds none; a scratchpad word that may be scrubbed. -/
theorem witness_EngineEvents_checks :
    let t : Tile := { calmTile with eng := { calmTile.eng with upsets := [127] } }
    (t.eng.upsets.filter (fun k => decide (k / 128 = (0 : Fin 16).val)) ≠ [] ∧ t.eng.upsets.filter (fun k => decide (k / 128 = (1 : Fin 16).val)) = []) ∧
    (calm.tile.present = true ∧ calm.tile.id.gid ≠ 0 ∧ isSite calm.tile.pl.phys = true ∧ 524287 < 524288 ∧
      calm.tile.pad.bad.contains (524287 / 8) = false) := by
  decide +kernel

/-- Where two tiles work, a module whose repair has given them to partition 0 has a pool as large as a plan of two tiles. -/
theorem witness_EngineEvents_pool (h0 : Config.working 0 = true) (h1 : Config.working 1 = true) :
    let s : State := { State.reset with svc := { State.reset.svc with pools := [(0, 0), (1, 0)] } }
    ((Plan.mk 1 2 0 0).tiles 0 1).length ≤ (s.pool 0).length := by
  intro s
  have r (n m : Nat) (h : n = 2 + m) : List.range n = List.range 2 ++ (List.range m).map (2 + ·) := h ▸ List.range_add
  have q : List.range 2 = [0, 1] := rfl
  have w (x : Nat) (i : isSite x = true) (k : Config.working x = true) (z : s.poolOf x = 0) :
      (decide (s.poolOf x = 0) && s.siteWorks x) = true := by
    have f : s.siteFailed x = false := rfl
    simp [State.siteWorks, z, i, k, f]
  show 2 ≤ _
  unfold State.pool
  rw [r 57344 57342 rfl, q]
  simp [w 0 rfl h0 rfl, w 1 rfl h1 rfl]


/-! ## Witnesses: hosts and firmware -/

/-- The module READY, partition 0 enabled with room for launches, and an image with handle 3 for a grid of 2 by 2. -/
def imageThree : Image := ⟨3, 5, false, [], 2, 2, 0, 64, 0, [], [], ⟨[], [], [], []⟩⟩
def served (f : Part → Part) : State :=
  let s : State := { calm with host := { calm.host with ctrl := { calm.host.ctrl with boot := .ready } } }
  s.updPart 0 fun p => f { p with gov := { p.gov with enable := true, livelim := 1, qdepth := 1 }, images := [imageThree] }

/-- A launch record for handle 3: class 0, tag 9, two columns, two rows. -/
def launchRecord : Nat := 0x0101 + 3 * 2 ^ 32 + 9 * 2 ^ 48 + 2 * 2 ^ 64 + 2 * 2 ^ 80

/-- `LaunchChecks` on a record whose image is prepared, in a form that is computed. -/
def checked (p : Part) (r : List Byte) (x : Image) : List Bool :=
  let f := fieldAt r
  [decide (f 0 1 = 1 ∧ f 1 1 = 1 ∧ f 2 2 < 16 ∧ f 0x0C 4 < 2 ^ 24 ∧ f 0x38 8 = 0),
   true,
   ((List.range 4).all fun k => decide (x.profiles.getD k 0 ≤ (if p.gov.profmask.getLsbD k then 0 else 1))) &&
     decide (x.detReq = true → f 2 2 / 8 % 2 = 1),
   decide (1 ≤ f 8 2 ∧ f 8 2 ≤ 4096 ∧ 1 ≤ f 0x0A 2 ∧ f 0x0A 2 ≤ 4096 ∧ (x.gridCols = 0 ∨ x.gridCols = f 8 2) ∧
     (x.gridRows = 0 ∨ x.gridRows = f 0x0A 2) ∧ (∀ q ∈ x.prog.plans, q.row0 + q.rows ≤ f 0x0A 2 ∧ q.col0 + q.cols ≤ f 8 2) ∧
     ∀ d ∈ x.prog.deals, d.row0 + d.rows ≤ f 0x0A 2 ∧ d.col0 + d.cols ≤ f 8 2),
   decide (f 0x0C 4 / 4096 < f 0x0A 2 ∧ f 0x0C 4 % 4096 < f 8 2),
   decide (f 0x10 4 = 0 ∨ x.barrier = 0 ∨ f 0x10 4 = x.barrier.toNat),
   decide (f 2 2 % 8 ≤ p.gov.hiclass),
   decide (p.queue.length < p.gov.qdepth)]

theorem checked_iff (p : Part) (r : List Byte) (x : Image) (k : Nat) (b : Prop) :
    (LaunchChecks p r (some x)).getD k b ↔ (checked p r x)[k]?.elim b (· = true) := by
  match k with
  | 2 => cases h : x.detReq <;> simp [LaunchChecks, checked, h]
  | 0 | 1 | 3 | 4 | 5 | 6 | 7 => simp [LaunchChecks, checked]
  | _ + 8 => simp [LaunchChecks, checked]

/-- Records that pass, or fail first at each check; a partition that is disabled, and a port that does not serve; a launch that starts, and a
completion ring that is full or has room. -/
theorem witness_LaunchEvents_launch :
    let s := served id
    let p := s.part 0
    let r (n : Nat) := toBytes (launchRecord + n) 64
    let why (p : Part) (n : Nat) (x : Image) : Nat := (checked p (r n) x).findIdx (!·) + 1
    let q := served fun p => { p with queue := [⟨0, r 0, 0⟩] }
    let off := served fun p => { p with gov := { p.gov with enable := false } }
    Serves s 0 ∧ Serves off 0 ∧ (off.part 0).gov.enable = false ∧ p.gov.enable = true ∧
    (p.images.find? fun i => decide (i.handle = fieldAt (r 0) 4 2)) = some imageThree ∧ (checked p (r 0) imageThree).all id = true ∧
    why p 1 imageThree = 1 ∧ (p.images.find? fun i => decide (i.handle = fieldAt (r (2 ^ 32)) 4 2)) = none ∧
    why p 0 { imageThree with detReq := true } = 3 ∧ why p (2 ^ 64) imageThree = 4 ∧ why p (2 * 2 ^ 96) imageThree = 5 ∧
    why p (7 * 2 ^ 128) { imageThree with barrier := 8 } = 6 ∧ why p (2 ^ 16) imageThree = 7 ∧
    why { p with gov := { p.gov with qdepth := 0 } } 0 imageThree = 8 ∧
    p.room = true ∧ ({ p with comphead := 256 }).room = false ∧ (q.part 0).queue = [⟨0, r 0, 0⟩] ∧
    (q.liveGangs 0).length < (q.part 0).gov.livelim ∧
    (q.part 0).images.find? (fun i => decide (i.handle = fieldAt (r 0) 4 2)) = some imageThree ∧
    ((calm.port 0).up = true ∧ calm.host.ctrl.boot ≠ .ready) := by
  unfold Serves
  and_intros <;> first | decide +kernel | rfl

/-- The gang of `ganged` with its one virtual tile finished, as its root. -/
def finished (f : Gang → Gang) : State :=
  let s := ganged f
  { s with tile := { s.tile with pl := { s.tile.pl with finished := true, status := 5 } } }

/-- A mailbox write at entries 0 and 15 for a live gang, at the port of each, and for no gang; a record that waits while the ring is full or has
room; a report of the root; a gang that closes, one that does not, and one that retires. -/
theorem witness_LaunchEvents_gang :
    let s : State := { served (fun p => { p with mbtgt := p.mbtgt.set 0 (BitVec.ofNat 64 (2 ^ 32)) }) with gangs := (ganged id).gangs }
    let f := finished id
    let c := finished fun g => { g with closed := true, status := some 5 }
    let p (head : Word) : Part := { Part.fresh with comphead := head, compq := [⟨toBytes 0 16, 5, 7⟩] }
    (∀ g ∈ s.gangs, g.launchSent = true) ∧ (15 < 16 ∧ 15 / 8 ≠ 0 % 2 ∧ 0 / 8 = 0 % 2 ∧ 15 / 8 = 1 % 2 ∧ (s.part 0).held = [] ∧ bitsOf ((s.part 0).mbtgt.get 0).toNat 47 32 = 1 ∧
      s.mailTarget 0 1 0 = true ∧ s.mailTarget 0 0 0 = false ∧ s.unaccepted (s.portMsg 0 0 1 0 0 []) = []) ∧
    ((p 0).compq = [⟨toBytes 0 16, 5, 7⟩] ∧ (p 0).room = true ∧ (p 255).room = true ∧ (p 256).room = false) ∧
    ((f.gang 0 1).isSome = true ∧ f.tile.pl.finished = true ∧ f.tile.pl.kidsLeft = 0 ∧ f.tile.count .ms = 0 ∧ f.tile.pl.reported = false ∧
      (∀ g ∈ f.gangs, f.tile.id.vt = g.root)) ∧
    (∀ g ∈ f.gangs, g.closed = false ∧ f.findTile ⟨g.part, g.gid, g.root⟩ = some f.tile ∧ f.fab.flight = [] ∧
      ∀ x ∈ f.tilesOf g.part g.gid, x.pl.finished = true ∧ x.inb.window = []) ∧
    (∀ g ∈ (ganged id).gangs, g.closed = false ∧ (ganged id).findTile ⟨g.part, g.gid, g.root⟩ = some (ganged id).tile ∧
      (ganged id).tile.pl.finished = false) ∧
    (∀ g ∈ c.gangs, g.closed = true ∧ g.status = some 5 ∧ c.countsZero g = true ∧ c.sync.holds = [] ∧ c.sync.faults = [] ∧ c.sync.rounds = []) := by
  decide +kernel

/-- Where the configuration gives the virtual tile 1 the root as its parent, its report leaves for it while it is resident, and reaches it at
once while it is absent. -/
theorem witness_LaunchEvents_parent (h : Config.treeParent 2 2 0 1 = 0) :
    let root (r : Residency) : Tile := { (finished id).tile with pl := { (finished id).tile.pl with res := r } }
    let s (r : Residency) : State := { finished id with tile := { (finished id).tile with id := ⟨0, 1, 1⟩ }, others := [root r] }
    let parent : TileId := { (s .resident).tile.id with vt := Config.treeParent 2 2 0 (s .resident).tile.id.vt }
    (s .resident).tile.id.vt ≠ 0 ∧ parent ≠ (s .resident).tile.id ∧ (s .resident).tile.present = true ∧
    (s .resident).seen parent (s .resident).tile.pl.phys = some 0 ∧ (s .absent).seen parent (s .absent).tile.pl.phys = none ∧
    (s .absent).findTile parent = some (root .absent) := by
  intro root s parent
  have e : parent = ⟨0, 1, 0⟩ := by show (⟨0, 1, Config.treeParent 2 2 0 1⟩ : TileId) = _; rw [h]
  rw [e]
  decide +kernel

/-- The least code object: one NOP, no binding, no call, no record. It stands at 0x20000, where an OPEN page of ASID 5 lies. -/
def openTables : Memory :=
  [(0x1000, 0x01), (0x1001, 0x20), (0x2000, 0x01), (0x2001, 0x30), (0x3000, 0x01), (0x3001, 0x40), (0x4000, 0x01), (0x4001, 0x50),
   (0x5008, 0x3F), (0x5009, 0x20), (0x500F, 0xC0),
   (0x20000, 0x4C), (0x20001, 0x41), (0x20002, 0x52), (0x20003, 0x51), (0x20004, 0x01), (0x20010, 0x04), (0x20018, 0x40), (0x20028, 0x48),
   (0x2002C, 0x48), (0x2002D, 0x02), (0x20030, 0x50), (0x20031, 0x02), (0x20043, 0xF0)]

/-- That page is the HDM range of partition 0, whose master owns the semaphore or not. -/
def hosted (own : Bool) : State :=
  let s := served fun p => { p with gov := { p.gov with hostasid := 5, hostva := 0x10000 } }
  { s with
    mem := { s.mem with hbm := openTables, asids := [⟨5, 0, 0x1000, 0x100000, 0, 0, 0, 0, 0⟩] }
    host := { s.host with ctrl := { s.host.ctrl with owner := if own then some 0 else none } } }

/-- A queue of one write of three bytes at the end of a word, the second not enabled, over a bad word or a good one; and of a whole bad word. -/
def writing (bad : List Nat) (data : List (Option Byte)) : State :=
  let s := hosted false
  { s with
    mem := { s.mem with bad := bad }
    host := { s.host with ports := s.host.ports.set 0 { Port.fresh with writes := [⟨0, 0, 5, 0x10005, 0x20005, data⟩] } } }

/-- The first byte and the last line of the page, good and bad, an address that no page maps, the semaphore held and not, a frozen port; queued
writes; a record that is applied as the first one and later. -/
theorem witness_HostEvents :
    let s := hosted true
    let bad : State := { s with mem := { s.mem with bad := [0x2FFF8 / 8] } }
    Serves s 0 ∧ (0 % 64 + 1 ≤ 64 ∧ 0xFFC0 % 64 + 64 ≤ 64) ∧ (s.port 0).writes = [] ∧ s.hdmAddr 0xFFC0 = (5, 0x1FFC0) ∧
    s.modePending 5 0x1FFC0 64 = false ∧ s.hostPa .hostRead 0xFFC0 = some 0x2FFC0 ∧ s.badHbm 0x2FFC0 64 = false ∧ bad.badHbm 0x2FFC0 64 = true ∧
    s.hostPa .hostWrite 0xFFC0 = some 0x2FFC0 ∧ s.hostPa .hostRead 0x20000 = none ∧ s.hostPa .hostWrite 0x20000 = none ∧
    s.host.ctrl.owner = some (Fin.ofNat 2 0) ∧ (hosted false).host.ctrl.owner ≠ some (Fin.ofNat 2 0) ∧ s.host.ctrl.cmdRun = false ∧
    (s.part 0).recorded = false ∧ ((s.updPart 0 fun p => { p with recorded := true }).part 0).recorded = true ∧
    (∀ l d, ((writing l d).port 0).writes = ⟨0, 0, 5, 0x10005, 0x20005, d⟩ :: []) ∧ 0x20005 / 8 ∈ (writing [0x20005 / 8] [some 1, none, some 3]).mem.bad := by
  unfold Serves
  and_intros <;> first | decide +kernel | exact fun _ _ => rfl

/-- A command in CMDBUF: its fields by offset, width and value. -/
def commanding (l : List (Nat × Nat × Nat)) (s : State) : State :=
  let m : Memory := l.foldl (fun m e => Memory.setNat m e.1 e.2.1 e.2.2) []
  { s with host := { s.host with ctrl := { s.host.ctrl with cmdRun := true, cmdbuf := Vector.ofFn fun k => Memory.byte m k.val } } }

/-- What `Commands` asks, in a form that is computed. -/
theorem commands_of (s : State) (n : Nat) (used : List (Nat × Nat)) (h : s.host.ctrl.cmdRun = true ∧ s.cmdField 0 1 = n ∧
    (upFrom 1 63).all (fun k => used.any (fun u => decide (u.1 ≤ k ∧ k < u.1 + u.2)) || decide (s.cmdField k 1 = 0)) = true) :
    Commands s n used := by
  refine ⟨h.1, h.2.1, fun k h1 h2 h3 => ?_⟩
  have := List.all_eq_true.mp h.2.2 k (by
    have : ∀ k : Fin 64, 1 ≤ k.val → k.val ∈ upFrom 1 63 := by decide +kernel
    exact this ⟨k, h2⟩ h1)
  simp only [Bool.or_eq_true, List.any_eq_true, decide_eq_true_eq] at this
  obtain ⟨u, hu, ha, hb⟩ | h4 := this
  · have := h3 u hu
    omega
  · exact h4

/-- PREPARE_IMAGE of n bytes at the start of the HDM range. -/
def preparing (n : Nat) : State := commanding [(0, 1, 1), (4, 2, 5), (16, 4, n)] (hosted true)

/-- Every byte of the first page translates to it. -/
theorem open_walk (n k : Nat) (h : k < 65536) : (preparing n).walk 5 (0x10000 + k) = some ⟨5, 0x10000, 0x10000, 0x20000, 3, 0, 15⟩ := by
  have e : (preparing n).asid 5 = some ⟨5, 0, 0x1000, 0x100000, 0, 0, 0, 0, 0⟩ := rfl
  have m : (preparing n).mem = (hosted true).mem := rfl
  have f : (preparing n).svc.failed = [] := rfl
  unfold State.walk
  rw [if_pos (by omega), e, f, m]
  simp only [List.any_nil, Bool.false_eq_true, if_false, levels, walkFrom, leafOf, show (0x10000 + k) / 2 ^ 52 = 0 by omega, show (0x10000 + k) / 2 ^ 43 = 0 by omega,
    show (0x10000 + k) / 2 ^ 34 = 0 by omega, show (0x10000 + k) / 2 ^ 25 = 0 by omega, show (0x10000 + k) / 2 ^ 16 = 1 by omega]
  decide +kernel

/-- A list whose every element has a result has the list of them. -/
theorem mapM_some {α β : Type} (f : α → Option β) (g : α → β) (l : List α) (h : ∀ a ∈ l, f a = some (g a)) : l.mapM f = some (l.map g) := by
  induction l with
  | nil => rfl
  | cons x t ih => simp [List.mapM_cons, h x (by simp), ih fun a ha => h a (by simp [ha])]

/-- The bytes that firmware reads. -/
theorem open_read (n : Nat) (h : n ≤ 65536) :
    (preparing n).hdmRead 0 0 n = some ((List.range n).map fun k => Memory.byte openTables (0x20000 + k)) := by
  have e : upFrom 0x10000 n = (List.range n).map fun k => 0x10000 + k := by
    have : ∀ m a, upFrom a m = (List.range m).map fun k => a + k := by
      intro m
      induction m with
      | zero => exact fun _ => rfl
      | succ m ih => intro a; simp [upFrom, ih, List.range_succ_eq_map, Function.comp_def]; omega
    exact this n _
  have u : (preparing n).hdmRead 0 0 n = (preparing n).fwRead 5 0x10000 n := if_pos (by omega)
  rw [u]
  unfold State.fwRead
  rw [e, List.mapM_map]
  exact mapM_some _ _ _ fun k hk => by
    have hk := List.mem_range.mp hk
    simp only [Function.comp_apply, open_walk n k (by omega), Option.bind_some, show (preparing n).stackGone _ = false from rfl,
      Bool.false_eq_true, if_false, show 0x20000 + (0x10000 + k - 0x10000) = 0x20000 + k by omega]
    rfl

/-- PREPARE_IMAGE of an object that loads, of 596 bytes, and of one that does not, of one byte. -/
theorem witness_CommandEvents_prepare :
    let bytes (n : Nat) := (List.range n).map fun k => Memory.byte openTables (0x20000 + k)
    let gov := (preparing 1).part 0 |>.gov
    (∀ n ∈ [596, 1], Commands (preparing n) 1 [(2, 2), (4, 2), (8, 8), (16, 4)] ∧ (preparing n).cmdField 2 2 = 0 ∧
      (preparing n).cmdField 8 8 = 0 ∧ (preparing n).cmdField 16 4 = n ∧ (∃ e, (preparing n).asid ((preparing n).cmdField 4 2) = some e ∧ e.part = 0) ∧
      (preparing n).hdmRead 0 0 n = some (bytes n)) ∧
    (loadObject gov 5 0 (bytes 596)).toBool = true ∧ (loadObject gov 5 0 (bytes 1)).toBool = false ∧ ∃ h, (preparing 1).freeHandle 0 = some h := by
  refine ⟨fun n h => ?_, ?_, ?_, ?_⟩
  · obtain rfl | rfl : n = 596 ∨ n = 1 := by simpa using h
    · refine ⟨commands_of _ _ _ (by decide +kernel), by decide +kernel, by decide +kernel, by decide +kernel, ⟨_, rfl, rfl⟩, ?_⟩
      exact open_read _ (by omega)
    · refine ⟨commands_of _ _ _ (by decide +kernel), by decide +kernel, by decide +kernel, by decide +kernel, ⟨_, rfl, rfl⟩, ?_⟩
      exact open_read _ (by omega)
  · decide +kernel
  · decide +kernel
  · have h : ((List.range 4096).filter fun h => !((preparing 1).part 0).images.any fun i => decide (i.handle = h)).length = 4095 := by
      decide +kernel
    exact ⟨_, List.getElem?_eq_getElem (Nat.mod_lt _ (by rw [h]; decide))⟩

/-- DROP_IMAGE, REMOVE_GANG, ASSIGN_ASID, SELECT and COUNTERSIGN. -/
theorem witness_CommandEvents_rest :
    let live : State := { hosted true with gangs := (ganged id).gangs }
    let d := commanding [(0, 1, 2), (4, 2, 3)] live
    let r := commanding [(0, 1, 3), (4, 2, 1)] live
    let a := commanding [(0, 1, 4), (2, 2, 6), (8, 8, 0x1000), (24, 4, 1), (28, 4, 2), (32, 4, 3)] live
    let p := commanding [(0, 1, 11), (4, 2, 1)] live
    (Commands d 2 [(2, 2), (4, 2)] ∧ (∃ i ∈ (d.part 0).images, i.handle = 3) ∧ d.imageUsed 0 3 = false) ∧
    (d.imageUsed 0 3 = false ∧ ({ d with gangs := [{ oneGang with image := imageThree }] } : State).imageUsed 0 3 = true) ∧
    (Commands r 3 [(2, 2), (4, 2)] ∧ (r.gang 0 (r.cmdField 4 2)).isSome = true) ∧
    (Commands a 4 [(2, 2), (4, 1), (8, 8), (16, 8), (24, 4), (28, 4), (32, 4)] ∧ a.cmdField 2 2 ≤ 4095 ∧ a.cmdField 4 1 ≤ 63 ∧
      a.cmdField 8 8 % 4096 = 0 ∧ a.cmdField 8 8 < 48 * 2 ^ 36 ∧ a.cmdField 16 8 % 65536 = 0 ∧ a.cmdField 16 8 + 0x30000 ≤ 2 ^ 56 ∧
      (∀ k < 3, serviceCtr (a.cmdField (24 + 4 * k) 4) = true) ∧ a.asid 6 = none) ∧
    (Commands p 11 [(2, 2), (4, 2)] ∧ (p.gang 0 (p.cmdField 4 2)).isSome = true) ∧
    let k := commanding [(0, 1, 12), (16, 4, 30176)] live
    Commands k 12 [(8, 8), (16, 4)] ∧ k.cmdField 16 4 = 30176 ∧ (k.hdmRead 0 (k.cmdField 8 8) 30176).isSome = true := by
  have e : (commanding [(0, 1, 12), (16, 4, 30176)] { hosted true with gangs := (ganged id).gangs }).cmdField 8 8 = 0 := by decide +kernel
  have read : ((commanding [(0, 1, 12), (16, 4, 30176)] { hosted true with gangs := (ganged id).gangs }).hdmRead 0 0 30176).isSome = true :=
    Option.isSome_of_eq_some (open_read 30176 (by omega))
  refine ⟨⟨commands_of _ _ _ ?_, ?_, ?_⟩, ?_, ⟨commands_of _ _ _ ?_, ?_⟩, ⟨commands_of _ _ _ ?_, ?_⟩, ⟨commands_of _ _ _ ?_, ?_⟩,
    commands_of _ _ _ ?_, ?_, e ▸ read⟩ <;> decide +kernel

/-- A request of the command buffer for ASID 5. -/
def asking (kind va len arg : Nat) (s : State) : State :=
  commanding [(0, 1, kind + 4), (2, 2, 5), (8, 8, va), (16, 8, len), (24, 8, arg)] s

/-- What `Requested` asks, in a form that is computed. -/
theorem requested_of (s : State) (kind : Nat) (r : Req) (h : s.reqOf .command = some r ∧ r.kind = kind ∧ s.cmdField 1 1 = 0 ∧
    s.cmdField 0x20 32 = 0 ∧ (s.asid r.asid).isSome = true) : Requested s .command kind r :=
  ⟨h.1, h.2.1, fun _ _ e => ReqSource.noConfusion e, fun _ => ⟨h.2.2.1, h.2.2.2.1, Option.isSome_iff_exists.mp h.2.2.2.2⟩⟩

/-- MODE, UNMAP and a range that cuts a page; a switch; MAP of a page, and of no page. -/
theorem witness_ServiceEvents_modes :
    let q (k va len : Nat) := asking k va len 1 (hosted true)
    let m : State := { commanding [(0, 1, 5), (2, 2, 5)] (hosted true) with
      mem := { (hosted true).mem with modeReqs := [⟨5, 0x10000, 0x10000, 1, 0, 0, false, .command, 0⟩] } }
    let room := (q 2 0x40000 0x10000).updPart 0 fun p => { p with gov := { p.gov with hbmalloc := 0x10000 } }
    (Requested (q 1 0x10000 0x10000) .command 1 ⟨1, 5, 0, 0x10000, 0x10000, 1⟩ ∧ ((q 1 0x10000 0x10000).wholePages 5 0x10000 0x10000).isSome = true ∧
      (q 1 0x10000 0x10000).mem.bad = []) ∧
    Requested (q 3 0x10000 0x10000) .command 3 ⟨3, 5, 0, 0x10000, 0x10000, 1⟩ ∧
    (Requested (q 1 0x10000 0x8000) .command 1 ⟨1, 5, 0, 0x10000, 0x8000, 1⟩ ∧ (q 1 0x10000 0x8000).wholePages 5 0x10000 0x8000 = none) ∧
    (m.rangeDrained ⟨5, 0x10000, 0x10000, 1, 0, 0, false, .command, 0⟩ = true ∧
      m.pagesOf 5 0x10000 0x10000 = ([⟨5, 0x10000, 0x10000, 0x20000, 3, 0, 15⟩], none) ∧ m.leafAddr 5 0x10000 = some 0x5008) ∧
    (Requested (q 2 0x40000 0x8000) .command 2 ⟨2, 5, 0, 0x40000, 0x8000, 1⟩ ∧ 0x8000 % 65536 ≠ 0) ∧
    (Requested room .command 2 ⟨2, 5, 0, 0x40000, 0x10000, 1⟩ ∧ room.allocated (room.asidPart 5) + 0x10000 ≤ (room.part (room.asidPart 5)).gov.hbmalloc ∧
      ∀ k < 1, room.walk 5 (0x40000 + k * 65536) = none) := by
  refine ⟨⟨requested_of _ _ _ ?_, ?_⟩, requested_of _ _ _ ?_, ⟨requested_of _ _ _ ?_, ?_⟩, ?_, ⟨requested_of _ _ _ ?_, ?_⟩,
    ⟨requested_of _ _ _ ?_, ?_⟩⟩ <;> decide +kernel

/-- MAP of the page at 0x40000, whose tables stand in frame 0, which firmware has taken: the last frame that the allocation covers. -/
theorem witness_ServiceEvents_map :
    let s := (asking 2 0x40000 0x10000 (1 + 15 * 2 ^ 26) (hosted true)).updPart 0 fun p => { p with gov := { p.gov with hbmalloc := 0x10000 } }
    let q : State := { s with mem := { s.mem with frames := [(0, 64)] } }
    Requested q .command 2 ⟨2, 5, 0, 0x40000, 0x10000, 1 + 15 * 2 ^ 26⟩ ∧ (1 + 15 * 2 ^ 26) / 2 ^ 30 % 2 = 0 ∧ 0x40000 % 65536 = 0 ∧
    q.walk 5 0x40000 = none ∧ q.asid 5 = some ⟨5, 0, 0x1000, 0x100000, 0, 0, 0, 0, 0⟩ ∧
    LeafPath q (fun k => q.frameUsed (k / 65536) = true) 0x40000 0x5020 0x1000 levels ∧
    q.svc.failed = [] ∧ q.allocated (q.asidPart 5) + 0x10000 = (q.part (q.asidPart 5)).gov.hbmalloc ∧ q.mem.frames.length + 2 ≤ 48 * 2 ^ 20 := by
  refine ⟨requested_of _ _ _ ?_, by decide, by decide, by decide +kernel, by decide +kernel, ?_, rfl, by decide +kernel, by decide⟩
  · decide +kernel
  · simp only [LeafPath, levels]
    decide +kernel

/-- A mode change at its turn: of an OPEN page that is unmapped, and of a REDUCE page that leaves REDUCE, with a buffered line at each of its
ends and one of another page. -/
theorem witness_ServiceEvents_leave :
    let q (va mode : Nat) (unmap : Bool) : ModeReq := ⟨5, va, 0x10000, mode, 0, 0, unmap, .command, 0⟩
    let u : State := { hosted true with mem := { (hosted true).mem with modeReqs := [q 0x10000 0 true] } }
    let r : State :=
      let s := mapped 0 0
      { s with
        mem := { s.mem with modeReqs := [q 0x20000 3 false] }
        sync := { s.sync with lines := [⟨5, 0x30000, 0x20000⟩, ⟨5, 0x3FFC0, 0x2FFC0⟩, ⟨6, 0x40000, 0⟩] } }
    (u.mem.modeReqs[0]? = some (q 0x10000 0 true) ∧ u.rangeDrained (q 0x10000 0 true) = true ∧
      u.pagesOf 5 0x10000 0x10000 = ([⟨5, 0x10000, 0x10000, 0x20000, 3, 0, 15⟩], none) ∧ u.asid 5 = some ⟨5, 0, 0x1000, 0x100000, 0, 0, 0, 0, 0⟩ ∧
      LeafPath u (fun k => k < 0x20000 ∨ 0x20000 + 0x10000 ≤ k) 0x10000 0x5008 0x1000 levels ∧ u.sync.lines = []) ∧
    (r.mem.modeReqs[0]? = some (q 0x20000 3 false) ∧ r.rangeDrained (q 0x20000 3 false) = true ∧
      r.pagesOf 5 0x20000 0x10000 = ([reducePage], none) ∧ reducePage.size = 65536 ∧ reducePage.mode = 2 ∧
      r.asid 5 = some ⟨5, 0, 0x1000, 0x100000, 0, 0, 0, 0, 0⟩ ∧
      LeafPath r (fun k => k < 0x30000 ∨ 0x30000 + 0x10000 ≤ k) 0x20000 0x5010 0x1000 levels ∧ (∀ l ∈ r.sync.lines, l.pa % 64 = 0) ∧
      (r.sync.lines.Pairwise fun l m => l.pa ≠ m.pa) ∧ r.sync.bad = []) := by
  simp only [LeafPath, levels]
  refine ⟨by decide +kernel, by decide +kernel⟩

/-- RESOLVE and ABANDON of an open fault and of none; FREECTR of counters with and without a waiter; commands 0 and 13. -/
theorem witness_ServiceEvents_rest :
    let hold : Hold := ⟨⟨0, 1, 0⟩, 5, 0, 0, .radd, .s32, 0x20000, 0x30000, 1, false, none⟩
    let base : State := { mapped 0 0 with
      gangs := (ganged id).gangs
      sync := { State.reset.sync with
        faults := [⟨5, 0, 6, hold, [], true, 0⟩], lines := [⟨5, 0x30000, 0x20000⟩], ctrs := [⟨5, 7, 3, 0, false, false, []⟩, ⟨5, 8, 3, 0, false, false, [⟨⟨0, 1, 0⟩, 9, false, false⟩]⟩] } }
    let q (k va len arg : Nat) := asking k va len arg base
    (Requested (q 4 0 0 0) .command 4 ⟨4, 5, 0, 0, 0, 0⟩ ∧ (q 4 0 0 0).openFault ⟨4, 5, 0, 0, 0, 0⟩ = some ⟨5, 0, 6, hold, [], true, 0⟩ ∧
      (∀ f ∈ (q 4 0 0 0).sync.faults, f.written = true ∧ f.behind = []) ∧ (q 4 0 0 0).sync.rounds = [] ∧ ((q 4 0 0 0).retranslate hold).toOption = some 0x30000 ∧
      (∃ l ∈ (q 4 0 0 0).sync.lines, l.pa = 0x30000 / 64 * 64) ∧ (q 4 0 0 0).sync.bad = [] ∧ ((q 4 0 0 0).gang 0 1).isSome = true) ∧
    Requested (q 5 0 0 0) .command 5 ⟨5, 5, 0, 0, 0, 0⟩ ∧
    (Requested (q 4 0 0 1) .command 4 ⟨4, 5, 0, 0, 0, 1⟩ ∧ (q 4 0 0 1).openFault ⟨4, 5, 0, 0, 0, 1⟩ = none) ∧
    (Requested (q 6 7 1 0) .command 6 ⟨6, 5, 0, 7, 1, 0⟩ ∧
      ∀ c ∈ (q 6 7 1 0).sync.ctrs, decide (c.asid = 5 ∧ 7 ≤ c.id.toNat ∧ c.id.toNat < 7 + 1) = true → c.waiters = []) ∧
    (Requested (q 6 7 2 0) .command 6 ⟨6, 5, 0, 7, 2, 0⟩ ∧
      ∃ c ∈ (q 6 7 2 0).sync.ctrs, decide (c.asid = 5 ∧ 7 ≤ c.id.toNat ∧ c.id.toNat < 7 + 2) = true ∧ c.waiters ≠ []) ∧
    ((commanding [] base).cmdField 0 1 = 0 ∧ 12 < (commanding [(0, 1, 13)] base).cmdField 0 1) := by
  refine ⟨⟨requested_of _ _ _ ?_, ?_⟩, requested_of _ _ _ ?_, ⟨requested_of _ _ _ ?_, ?_⟩, ⟨requested_of _ _ _ ?_, ?_⟩,
    ⟨requested_of _ _ _ ?_, ?_⟩, ?_⟩ <;> decide +kernel

/-! ## Witnesses: placement, fabric, boot, power, repair -/

/-- The live gang with a version change of its virtual tile 0 to nowhere, and with what its translators have acknowledged. -/
def changing (prepared committed : List Nat) (f : Gang → Gang) : State :=
  ganged fun g => f { g with change := some ⟨[(0, none)], [], prepared, committed⟩ }

/-- Translators that prepare, commit and abort, the last of them and one before; a change that completes, of a tile that comes in, goes out, or is
pinned; a tile that goes out and one that comes in. -/
theorem witness_PlacementEvents_versions :
    let s := changing [] [] id
    let l := s.translators 0 1
    let a := changing [0] [] fun g => { g with stopWork := true }
    let place (r : Residency) : State :=
      let s := ganged id
      { s with tile := { s.tile with pl := { s.tile.pl with res := r, phys := 5, stopDue := false }, ex := { s.tile.ex with inh := false } } }
    (0 ∈ l ∧ ([] : List Nat).contains 0 = false ∧ ∀ g ∈ s.gangs, g.stopWork = false) ∧
    ((∀ x ∈ (changing l [] id).translators 0 1, x ∈ l) ∧ ∀ x ∈ (changing l l id).translators 0 1, x ∈ l) ∧
    ((∀ g ∈ a.gangs, g.stopWork = true) ∧ [0].filter (· ≠ 0) = [] ∧ [0].filter (· ≠ 1) ≠ []) ∧
    (∀ r ∈ [Residency.swappingIn, .swappingOut, .resident], (place r).tile.pl.res = r ∧ (place r).tile.pl.finished = false ∧
      (place r).tile.pl.touched = true ∧ (place r).tile.inb.arrivals = [] ∧ (place r).tile.inb.overflow = [] ∧ (place r).tile.inb.window = []) ∧
    ((place .swappingOut).quiesced = true ∧ (place .swappingOut).tile.lost = false ∧ (place .swappingOut).failCause 5 = none ∧
      (∀ g ∈ (place .swappingOut).gangs, g.mayChange = true ∧ g.part = 0 ∧ g.gid = 1)) ∧
    ((place .swappingIn).comeBack = [(place .swappingIn).tile.id] ∧
      (∃ x, (place .swappingIn).findTile (place .swappingIn).tile.id = some x ∧ x.pl.res = .swappingIn) ∧
      ∀ g ∈ (place .swappingIn).gangs, (place .swappingIn).tile.id.vt = g.root) := by
  refine ⟨by decide +kernel, ⟨fun _ h => h, fun _ h => h⟩, by decide +kernel, by decide +kernel, by decide +kernel, by decide +kernel, ⟨_, rfl, rfl⟩,
    by decide +kernel⟩

/-- A fold whose step keeps an answer has one at its end. -/
theorem foldl_some (g : Option Nat → Nat → Option Nat) (h : ∀ b x, ∃ c, g (some b) x = some c) :
    ∀ (l : List Nat) (b : Nat), ∃ x, l.foldl g (some b) = some x := by
  intro l
  induction l with
  | nil => exact fun b => ⟨b, rfl⟩
  | cons a t ih =>
    intro b
    obtain ⟨c, e⟩ := h b a
    simpa only [List.foldl_cons, e] using ih c

/-- Where a free tile is left, the partition's firmware finds a place. -/
theorem placeFor_some (s : State) (g : Gang) (vt : Nat) (h : s.freeTiles g.part ≠ []) : ∃ x, s.placeFor g vt = some x := by
  unfold State.placeFor
  dsimp only
  split
  · exact ⟨_, rfl⟩
  · match e : s.freeTiles g.part with
    | [] => exact absurd e h
    | y :: t =>
      rw [List.foldl_cons]
      exact foldl_some _ (fun b x => by dsimp only; split <;> exact ⟨_, rfl⟩) t y

/-- Where site 3 works, a module whose repair has given it to partition 0 places a faulted virtual tile. -/
theorem witness_PlacementEvents_demand (h : Config.working 3 = true) :
    let s := ganged id
    let f : State := { s with
      tile := { s.tile with pl := { Place.fresh with faulted := true } }
      svc := { s.svc with pools := [(3, 0)] } }
    f.openFaults 0 = [f.tile] ∧ f.freeTiles 0 ≠ [] ∧ ∀ g ∈ f.gangs, ∃ x, f.placeFor g 0 = some x := by
  intro s f
  have e : f.siteFailed 3 = false := rfl
  have p : f.poolOf 3 = 0 := rfl
  have i : isSite 3 = true := rfl
  have m : 3 ∈ f.freeTiles 0 := by
    refine List.mem_filter.mpr ⟨List.mem_filter.mpr ⟨List.mem_range.mpr (by omega), ?_⟩, by decide +kernel⟩
    simp [State.siteWorks, e, p, i, h]
  refine ⟨by decide +kernel, List.ne_nil_of_mem m, fun g hg => ?_⟩
  obtain rfl : g = oneGang := List.mem_singleton.mp hg
  exact placeFor_some f oneGang 0 (List.ne_nil_of_mem m)

/-- A gang-stop that is complete, a gang that goes out whole, a proxy waiter that no counter holds. -/
theorem witness_PlacementEvents_stops :
    let s : State :=
      let s := ganged fun g => { g with byGstop := true, stopWork := true, stopCtrs := [⟨5, 7, 1⟩] }
      { s with tile := { s.tile with ex := { s.tile.ex with inh := false } } }
    let o : State :=
      let s := ganged fun g => { g with byFirmware := true, stopDone := true }
      { s with tile := { s.tile with pl := { s.tile.pl with stopped := true } } }
    (∀ g ∈ s.gangs, g.stopWork = true ∧ g.change = none ∧ s.drained g = true ∧ g.stopping = true) ∧
    (∀ x ∈ s.tilesOf 0 1, x.pl.stopDue = false ∧ (x.present = true → s.quiescedAt x.id = true)) ∧
    (∀ g ∈ o.gangs, g.mayChange = true ∧ o.goesOut g = true) ∧ (o.tilesOf 0 1).filter (fun x => decide (x.pl.res = .resident)) ≠ [] ∧
    (∀ x ∈ o.tilesOf 0 1, x.lost = false) ∧
    (({ Place.fresh with proxy := true }).proxy = true ∧ State.reset.sync.ctrs = []) := by
  decide +kernel

/-- Routers that work, at the sites that a list names. -/
def workingAt (l : List Nat) (f : Router → Router) : List (Nat × Router) := l.map fun x => (x, f { Router.fresh x with failed := false })

/-- A flit at the head of a lane of site 0, for a destination: the routers of site 0 and of the next one to its east work, and the one to
its south has failed. -/
def routing (dst : Nat) (gutter : Bool) (ref : PacketRef) : State :=
  { State.reset with fab := { State.reset.fab with
      time := 1000, flits := [⟨ref, true, dst, 0, 4, if gutter then 4 else 0, 0, 0, false, gutter⟩]
      routers := workingAt [0, 32] id ++ [(1, { Router.fresh 1 with failed := true })] } }

/-- Where one output leads a flit on and has a free slot, it is the flit's output, whatever the candidate tables list. -/
theorem outputFor_only (s : State) (f : Flit) (o : Nat) (only : ∀ x, s.leadsOn f x = true → x = o) (mem : o ∈ [0, 1, 2, 3, 4])
    (on : s.leadsOn f o = true) (works : s.outWorks f.site o = true) (free : s.outFree f o > 0) : s.outputFor f = some o := by
  have keep (l : List Nat) (h : ∀ x ∈ l, x = o) : l.foldl (fun (best : Option (Nat × Nat)) o =>
      let n := s.outFree f o
      match best with
      | some b => if n > b.2 then some (o, n) else best
      | none => if n > 0 then some (o, n) else none) (some (o, s.outFree f o)) = some (o, s.outFree f o) := by
    induction l with
    | nil => rfl
    | cons a l ih =>
      have e := h a List.mem_cons_self
      simp only [List.foldl_cons, e, Nat.lt_irrefl, if_false, gt_iff_lt]
      exact ih fun x hx => h x (List.mem_cons_of_mem _ hx)
  have entry : ∀ x ∈ s.entry f, s.leadsOn f x = true := by
    intro x hx
    unfold State.entry at hx
    split at hx
    · exact (List.mem_filter.mp hx).2
    · exact (List.mem_filter.mp hx).2
  have all : ∀ x ∈ s.outputs f, x = o := fun x hx => only x (entry x (List.mem_filter.mp hx).1)
  have ne : s.outputs f ≠ [] := by
    have e : s.entry f ≠ [] := by
      unfold State.entry
      split
      · exact List.ne_nil_of_mem (List.mem_filter.mpr ⟨mem, on⟩)
      · assumption
    obtain ⟨a, ha⟩ := List.exists_mem_of_ne_nil _ e
    have : a = o := only a (entry a ha)
    exact List.ne_nil_of_mem (List.mem_filter.mpr ⟨this ▸ ha, works⟩)
  unfold State.outputFor
  match e : s.outputs f with
  | [] => exact absurd e ne
  | a :: l =>
    have ea := all a (e ▸ List.mem_cons_self)
    simp only [List.foldl_cons, ea, free, if_true]
    exact congrArg _ (keep l fun x hx => all x (e ▸ List.mem_cons_of_mem _ hx))

/-- The flit of site 0. -/
def routed (dst : Nat) : Flit := ⟨.msg 0, true, dst, 0, 4, 0, 0, 0, false, false⟩

/-- The routers of the tables are the sites that work at reset. -/
theorem routing_mapped (d : Nat) (g : Bool) (r : PacketRef) (x : Nat) :
    (routing d g r).mapped x = (isSite x && !Config.routerFailed x) := by
  show (isSite x && !Config.routerFailed x && !([] : List Nat).contains x) = _
  simp

/-- The distance between two sites whose minimal paths hold working routers alone. -/
theorem plain_distance (s : State) (a b : Nat) (l : List Nat) (h : boxOf a b = l) (w : ∀ x ∈ l, s.mapped x = true) :
    s.distance a b = manhattan a b := by
  unfold State.distance State.plainBox
  rw [h, if_pos (List.all_eq_true.mpr w)]

/-- Where the routers of sites 0 and 32 work at reset and that of site 1 does not, a flit for the site to the east leads on to the east
alone, and one for its own site goes out. -/
theorem routed_outputs (h0 : Config.routerFailed 0 = false) (h32 : Config.routerFailed 32 = false) (h1 : Config.routerFailed 1 = true) :
    (routing 32 false (.msg 0)).outputFor (routed 32) = some 1 ∧ (routing 0 false (.msg 0)).outputFor (routed 0) = some 4 := by
  have far (x : Nat) (h : 5 ≤ x) : neighbour 0 x = none := by
    match x, h with
    | x + 5, _ => rfl
  have m0 (d g r) : (routing d g r).mapped 0 = true := by rw [routing_mapped, h0]; rfl
  have m32 (d g r) : (routing d g r).mapped 32 = true := by rw [routing_mapped, h32]; rfl
  have m1 (d g r) : (routing d g r).mapped 1 = false := by rw [routing_mapped, h1]; rfl
  have near : (routing 32 false (.msg 0)).distance 32 32 = 0 :=
    plain_distance _ 32 32 [32] (by decide) (by simp [m32])
  have away : (routing 32 false (.msg 0)).distance 0 32 = 1 :=
    plain_distance _ 0 32 [0, 32] (by decide) (by simp [m0, m32])
  have zero : (routing 0 false (.msg 0)).distance 0 0 = 0 :=
    plain_distance _ 0 0 [0] (by decide) (by simp [m0])
  have south : neighbour 0 2 = some 1 := by decide
  have east : neighbour 0 1 = some 32 := by decide
  constructor
  · refine outputFor_only _ _ 1 (fun x h => ?_) (by decide) (by simp [State.leadsOn, routed, east, m32, near, away]) (by decide +kernel)
      (by decide +kernel)
    have c : x = 0 ∨ x = 1 ∨ x = 2 ∨ x = 3 ∨ x = 4 ∨ 5 ≤ x := by omega
    obtain rfl | rfl | rfl | rfl | rfl | c := c
    · exact absurd h (by decide +kernel)
    · rfl
    · exact absurd h (by simp [State.leadsOn, routed, south, m1])
    · exact absurd h (by decide +kernel)
    · exact absurd h (by decide +kernel)
    · exact absurd h (by
        have e : ¬x = 4 := by omega
        simp [State.leadsOn, routed, e, far x c])
  · refine outputFor_only _ _ 4 (fun x h => ?_) (by decide) (by decide +kernel) (by decide +kernel) (by decide +kernel)
    unfold State.leadsOn at h
    split at h
    · assumption
    · split at h
      · exact absurd h (by simp [routed, zero])
      · exact absurd h (by decide)

/-- The output of a flit, which its entry lists where the entry lists one that leads on; the link that takes it; and routes in the gutter
along a row and along a column. -/
theorem witness_FabricEvents_choice (h0 : Config.routerFailed 0 = false) (h32 : Config.routerFailed 32 = false)
    (h1 : Config.routerFailed 1 = true) :
    let s := routing 32 false (.msg 0)
    s.outputFor (routed 32) = some 1 ∧ s.takesLink (routed 32) 1 32 0 = true ∧ (routing 0 false (.msg 0)).outputFor (routed 0) = some 4 ∧
    (0 ≠ 32 ∧ ∀ x ∈ gutterPath 0 32, s.mapped x = true) ∧ (32 ≠ 0 ∧ ∀ x ∈ gutterPath 32 0, s.mapped x = true) ∧
    (1 ∈ Config.candidates 0 0 (tableEntry 0 32) → 1 ∈ (Config.candidates 0 0 (tableEntry 0 32)).take 3 →
      ∃ o ∈ s.listed 0 32, s.leadsOn (routed 32) o = true) := by
  have h := (routed_outputs h0 h32 h1).1
  have m0 (d g r) : (routing d g r).mapped 0 = true := by rw [routing_mapped, h0]; rfl
  have m32 (d g r) : (routing d g r).mapped 32 = true := by rw [routing_mapped, h32]; rfl
  refine ⟨h, ?_, (routed_outputs h0 h32 h1).2, ⟨by decide, ?_⟩, ⟨by decide, ?_⟩, fun _ e => ⟨1, e, ?_⟩⟩
  · unfold State.takesLink
    rw [show (routing 32 false (.msg 0)).heads (routed 32).site = [routed 32] by decide +kernel]
    simp only [List.filter_cons, List.filter_nil, h]
    decide +kernel
  · rw [show gutterPath 0 32 = [0, 32, 32] by decide]; simp [m0, m32]
  · rw [show gutterPath 32 0 = [0, 32, 0] by decide]; simp [m0, m32]
  · have near : (routing 32 false (.msg 0)).distance 32 32 = 0 :=
      plain_distance _ 32 32 [32] (by decide) (by simp [m32])
    have away : (routing 32 false (.msg 0)).distance 0 32 = 1 :=
      plain_distance _ 0 32 [0, 32] (by decide) (by simp [m0, m32])
    simp [State.leadsOn, routed, show neighbour 0 1 = some 32 by decide, m32, near, away]

/-- Heads of lanes that go over a link, leave the fabric, and move in the gutter; a report in flight for the current tile. -/
theorem witness_FabricEvents_flits (h0 : Config.routerFailed 0 = false) (h32 : Config.routerFailed 32 = false)
    (h1 : Config.routerFailed 1 = true) :
    let s := routing 32 false (.msg 0)
    let f : Flit := routed 32
    let g : Flit := { f with lane := 4, gutter := true }
    (s.laneHead 0 4 0 = some f ∧ s.routerWorks 0 = true ∧ s.outputFor f = some 1 ∧ neighbour 0 1 = some 32 ∧ s.laneFor f 1 32 = some 0 ∧
      s.takesLink f 1 32 0 = true) ∧
    ((routing 0 false (.msg 0)).laneHead 0 4 0 = some (routed 0) ∧ (routing 0 false (.msg 0)).outputFor (routed 0) = some 4 ∧
      (routed 0).came ≤ 2 * (routing 0 false (.msg 0)).fab.time ∧
      ∀ x ∈ (routing 0 false (.msg 0)).heads 0, (routed 0).since ≤ x.since) ∧
    (let s := routing 32 true (.msg 0)
     s.gutterOut 0 32 = some 1 ∧ s.laneHead 0 4 4 = some g ∧ s.routerWorks 0 = true ∧ s.routerWorks 32 = true ∧
      ((s.router 0).link 1).next ≤ 2 * s.fab.time + 1 ∧ g.came + 2 ≤ 2 * s.fab.time ∧ s.gutterFree 0 32 (inPort 1) = true) ∧
    (let s := { routing 0 true (.pkt 5) with tile := calmTile }
     let x : Report := ⟨5, calmTile.id, 0⟩
     let s : State := { s with fab := { s.fab with reports := [x] } }
     s.laneHead 0 4 4 = some { g with ref := .pkt 5, dst := 0 } ∧ s.routerWorks 0 = true ∧ g.came ≤ 2 * s.fab.time ∧
      ({ g with ref := .pkt 5, dst := 0 } : Flit).ref = .pkt x.serial ∧ s.fab.reports = [x] ∧ x.dst = s.tile.id) := by
  have m0 (d g r) : (routing d g r).mapped 0 = true := by rw [routing_mapped, h0]; rfl
  have m32 (d g r) : (routing d g r).mapped 32 = true := by rw [routing_mapped, h32]; rfl
  refine ⟨⟨by decide +kernel, by decide +kernel, (routed_outputs h0 h32 h1).1, by decide +kernel, by decide +kernel,
    (witness_FabricEvents_choice h0 h32 h1).2.1⟩, ⟨by decide +kernel, (routed_outputs h0 h32 h1).2, by decide +kernel, by decide +kernel⟩, ⟨?_, by decide +kernel⟩,
    by decide +kernel⟩
  have p : ((gutterPath 0 32).all (routing 32 true (.msg 0)).mapped) = true := by
    rw [show gutterPath 0 32 = [0, 32, 32] by decide]; simp [m0, m32]
  unfold State.gutterOut State.gutterRule
  simp only [p, Bool.true_or, if_true]
  decide +kernel

/-- Data of a CPT in the gutter at its recipient, the current tile, whose fill has not begun, and where no fill is on its way. -/
theorem witness_FabricEvents_data :
    let x : Remote := ⟨5, ⟨0, 1, 0⟩, 1, 3, 0, 4, 64, 7, some 0, false⟩
    let s (l : List Remote) : State :=
      let r := routing 0 true (.data ⟨0, 1, 1⟩ 3 0 8)
      { r with tile := calmTile, fab := { r.fab with remotes := l } }
    let t : Tile := { calmTile with inb := { calmTile.inb with arrivals := [.fill 5] } }
    (∀ l, (s l).laneHead 0 4 4 = some { routed 0 with ref := .data ⟨0, 1, 1⟩ 3 0 8, lane := 4, gutter := true }) ∧
    (s [x]).fab.remotes = [x] ∧ (routed 0).message = true ∧ x.parked = false ∧
    CarriesData (.data ⟨0, 1, 1⟩ 3 0 8) { x.dst with vt := x.issuer } x.stamp x.recip ∧ x.dst = (s [x]).tile.id ∧
    (s [x]).tile.pl.res = .resident ∧ OverflowFits { (s [x]).updPart 0 fun p => { p with gov := { p.gov with ovfalloc := 65536 } } with tile := t } 0 := by
  unfold OverflowFits
  exact ⟨fun _ => rfl, rfl, rfl, rfl, ⟨8, rfl⟩, rfl, rfl, by decide +kernel⟩

/-- The ring of a module is that of its tables and its image. -/
theorem ringStep_congr (s t : State) (x : Nat) (m : s.fab.mapped = t.fab.mapped) (g : s.svc.gen = t.svc.gen) : s.ringStep x = t.ringStep x := by
  have f : ∀ n y, s.ringFrom n y = t.ringFrom n y := by
    intro n
    induction n with
    | zero => exact fun _ => rfl
    | succ n ih => intro y; simp only [State.ringFrom, g, ih]
  have p : s.mapped = t.mapped := funext fun y => by simp only [State.mapped, m]
  unfold State.ringStep
  rw [p, g, f]

/-- A router's state in which it has captured the token, with a number of flits drained so far. -/
def captured (site : Nat) (drained : Option Nat) (flits : List Flit) : State :=
  { State.reset with fab := { State.reset.fab with
      time := 1000, flits := flits, token := site, drained := drained
      routers := workingAt [State.reset.ringStep 0] fun r => { r with suspect := true } } }

/-- A head that has stood for TDET; the token at a router that passes it on, drains a flit, has drained 32, or has none left; where no router
of the tables works but those that the ring passes; and the token before its first router. -/
theorem witness_FabricEvents_token (h : isSite (State.reset.ringStep 0) = true) (b : Config.ringStart = 0) (w : Config.routerFailed 0 = false)
    (n : ∀ y, y ≠ 0 → isSite y = true → Config.routerFailed y = true) (z : Config.ringNext 0 0 = 0) :
    let f : Flit := routed 32
    let x := State.reset.ringStep 0
    (∀ d l, (captured 0 d l).routerWorks x = true ∧ 0 = (captured 0 d l).fab.token ∧ (captured 0 d l).ringStep 0 = x) ∧ isSite x = true ∧
    ((captured 0 none [f]).laneHead 0 4 0 = some f ∧ f.gutter = false ∧ f.since + (captured 0 none [f]).fab.tdet ≤ 2 * (captured 0 none [f]).fab.time) ∧
    ((routing 32 false (.msg 0)).router 0).suspect = false ∧ (captured 0 none [f]).fab.drained = none ∧
    (∀ k ∈ [0, 31, 32], (captured 0 (some k) [f]).fab.drained = some k ∧
      (∃ h ∈ (captured 0 (some k) [f]).heads 0, h.since + (captured 0 (some k) [f]).fab.tdet ≤ 2 * (captured 0 (some k) [f]).fab.time) ∧
      ∀ h ∈ (captured 0 (some k) [f]).fab.flits, h.gutter = true → h.site = 0 → h.port ≠ 4) ∧
    (captured 0 (some 0) []).heads 0 = [] ∧
    (∀ y, y < 57344 → State.reset.mapped y = true → y ∈ State.reset.ringFrom 57344 0) ∧
    (State.reset.fab.token = 57344 ∧ State.reset.fab.drained = none ∧ isSite Config.ringStart = true ∧
      State.reset.routerWorks Config.ringStart = true) := by
  refine ⟨fun d l => ⟨?_, rfl, ringStep_congr _ _ _ rfl rfl⟩, h, by decide +kernel, by decide +kernel, by decide +kernel, by decide +kernel, by decide +kernel, ?_,
    by decide +kernel, by decide +kernel, ?_, ?_⟩
  · show (!(tget (Router.fresh (State.reset.ringStep 0)) [(State.reset.ringStep 0, _)] (State.reset.ringStep 0)).failed) = true
    simp [tget]
  · intro y _ m
    have e : y = 0 := Decidable.byContradiction fun c => by
      have s : (isSite y && !Config.routerFailed y && !([] : List Nat).contains y) = true := m
      simp only [Bool.and_eq_true, Bool.not_eq_true'] at s
      exact absurd (n y c s.1.1) (by simp [s.1.2])
    subst e
    rw [show 57344 = 57343 + 1 from rfl, State.ringFrom]
    exact List.mem_cons.mpr (.inl z.symm)
  · rw [b]; decide +kernel
  · rw [b]
    show (!(Router.fresh 0).failed) = true
    simp [Router.fresh, w]

/-- A router whose pulse is due, one whose TIME is behind it and one whose TIME is not; a router at its own time. -/
theorem witness_FabricEvents_time :
    let p (lag : Nat) : State := { State.reset with fab := { State.reset.fab with
      time := 65536 + Config.depth 0, routers := workingAt [0] fun r => { r with lag := lag } } }
    (∀ lag ≤ 1, (((p lag).router 0).pulses + 1) * 65536 + Config.depth 0 ≤ (p lag).fab.time ∧
      ((p lag).router 0).lag ≤ (p lag).fab.time + ((p lag).router 0).adj) ∧
    (p 1).timeAt 0 < 65536 + Config.depth 0 ∧ 65536 + Config.depth 0 ≤ (p 0).timeAt 0 ∧
    (let r := State.reset.router 0; r.holdTicks = 0 ∧ r.adj ≤ r.lag + 2 ∧ r.lag ≤ r.adj + 2) := by
  refine ⟨fun lag h => ⟨?_, ?_⟩, ?_, ?_, rfl, ?_, ?_⟩
  · show (0 + 1) * 65536 + Config.depth 0 ≤ 65536 + Config.depth 0
    omega
  · show lag ≤ 65536 + Config.depth 0 + 0
    omega
  · show 65536 + Config.depth 0 + 0 - 1 < 65536 + Config.depth 0
    omega
  · show 65536 + Config.depth 0 ≤ 65536 + Config.depth 0 + 0 - 0
    omega
  · exact Nat.zero_le 2
  · exact Nat.zero_le 2

/-- The module at a boot state of controller 0, with copies of images 0 to 2 that are given. -/
def booting (b : BootState) (l : Nat → Config.FlashImage) : State :=
  let s := State.reset.updCtl 0 fun c => { c with boot := b }
  { s with host := { s.host with flash := { s.host.flash with
      images := Vector.ofFn fun k => Vector.ofFn fun c => if c.val = 0 then l k.val else { l k.val with magic := Config.flashMagic + 1 } } } }

/-- The copies of an image. -/
theorem booting_image (b : BootState) (l : Nat → Config.FlashImage) (k : Fin 3) (c : Fin 2) :
    ((booting b l).host.flash.images.get k).get c = if c.val = 0 then l k.val else { l k.val with magic := Config.flashMagic + 1 } := by
  simp only [booting, State.updCtl, Vector.get, Vector.toArray_ofFn, Array.getElem_ofFn, Fin.val_cast]
  rfl

/-- A controller at its ROM, one that verifies images, and one at its self-test; with signatures that verify, an image that verifies and
one that does not. -/
theorem witness_BootEvents_stages (rsa slh : List Byte)
    (h : ∀ k, Config.rsaVerifies (Config.flashMagic, k, Config.sha384 [], 0) rsa = true ∧
      Config.slhVerifies (Config.flashMagic, k, Config.sha384 [], 0) slh = true) :
    let image (n k : Nat) : Config.FlashImage :=
      ⟨if k < n then Config.flashMagic else Config.flashMagic + 1, k, Config.sha384 [], 0, [], rsa, slh⟩
    let has (n : Nat) (k : Fin 3) : Prop :=
      ∃ copy : Fin 2, ImageOk k.val (((booting .verify (image n)).host.flash.images.get k).get copy)
    ((State.reset.ctl 0).boot = .rom ∧ (State.reset.ctl 0).failed = false) ∧
    (∀ l, ((booting .verify l).ctl 0).boot = .verify ∧ ((booting .verify l).ctl 0).failed = false ∧ (booting .verify l).host.ctrl.boot ≠ .ready) ∧
    (∀ n k, has n k ↔ k.val < n) ∧ ∀ l, ((booting .selftest l).ctl 0).boot = .selftest := by
  refine ⟨by decide +kernel, fun l => ⟨rfl, rfl, BootState.noConfusion⟩, fun n k => ?_, fun l => rfl⟩
  simp only [booting_image]
  constructor
  · intro ⟨c, e, _⟩
    refine Decidable.byContradiction fun g => absurd e ?_
    split <;> simp
  · intro g
    exact ⟨0, by simp [ImageOk, g, h k.val]⟩

/-- Controllers of which the other one has failed; a site that answers, at its third missed probe and before; a link of two sites. -/
theorem witness_BootEvents_rest :
    let b : State := State.reset.updCtl 1 fun c => { c with failed := true }
    let s : State := { ganged id with svc := { State.reset.svc with errs := [(0, { SiteErr.fresh with misses := 2 })] } }
    ((b.ctl 0).boot ≠ .ready ∧ (b.ctl 0).boot ≠ .selftest ∧ (b.ctl 0).failed = false ∧ (b.ctl (1 - 0 % 2)).failed = true) ∧
    (s.occupied 0 = true ∧ (s.siteErr 0).misses = 2 ∧ ((ganged id).siteErr 0).misses < 2 ∧ s.svc.failed = []) ∧
    ((∃ out ∈ [0, 1, 2, 3], neighbour 0 out = some 1) ∧ 0 ≠ 1) := by
  decide +kernel

/-- Two tiles with claims, none of them late. -/
theorem witness_PowerEvents_grants :
    let ls : List Leaf := [⟨0, 0, 0, 8, 1, 1, false⟩, ⟨1, 0, 1, 16, 3, 1, false⟩]
    (∀ l ∈ ls, l.late = false) ∧ (ls.map Leaf.site).Nodup := by decide

/-- A boundary at which a tile of a working site has run, below and at the minimum draw. -/
theorem witness_PowerEvents_interval (h : Config.working 0 = true) :
    let s : State := { ganged id with fab := { State.reset.fab with time := 10000 } }
    let t := s.tile
    10000 * (s.power.interval + 1) ≤ s.fab.time ∧ t.present = true ∧ t.id.gid ≠ 0 ∧
    s.siteWorks t.pl.phys = true ∧ s.onSite t.pl.phys = some t ∧ t.pl.stopped = false ∧
    ∀ g, s.gang t.id.part t.id.gid = some g → (g.shedding && g.shedLate) = false := by
  refine ⟨by decide +kernel, by decide +kernel, by decide +kernel, ?_, by decide +kernel, by decide +kernel, fun g e => ?_⟩
  · unfold State.siteWorks
    rw [show (ganged id).tile.pl.phys = 0 from rfl, h]
    decide +kernel
  · have : g = oneGang := (Option.some.inj e).symm
    rw [this]
    decide

/-- Samples, the loss timer, the grace period, a gang that sheds at its barrier, and a master whose writes are served. -/
theorem witness_PowerEvents_timers :
    let at_ (n : Nat) (f : PowerState → PowerState) : State :=
      { State.reset with fab := { State.reset.fab with time := n }, power := f State.reset.power }
    let s : State :=
      let s := ganged fun g => { g with shedWait := true, barrier := 7 }
      { s with tile := { s.tile with ex := (waiting none).tile.ex } }
    ((at_ 1000000 id).power.graces = [] ∧ (at_ 1000000 id).power.lastLoss = none ∧ (at_ 1000000 id).power.hot = false ∧
      (at_ 1000000 id).power.lastSample + 1000000 ≤ (at_ 1000000 id).fab.time) ∧
    ((at_ 250000 fun p => { p with lastLoss := some 0 }).power.lastLoss = some 0 ∧ 0 + 250000 ≤ 250000) ∧
    ((∃ x ∈ (at_ 1000000 fun p => { p with graces := [(0, 256), (1, 200)] }).power.graces, x.1 + 1000000 ≤ 1000000) ∧
      (at_ 0 fun p => { p with graces := [(0, 256)], hot := true }).power.graces ≠ []) ∧
    ((∀ g ∈ s.gangs, g.shedWait = true ∧ g.barrier = 7 ∧ g.part = s.tile.id.part ∧ g.gid = s.tile.id.gid) ∧
      ∃ c, s.tile.ex.cw = some c ∧ c.ctr = 7 ∧ (7 : W32) ≠ 0) ∧ Serves (hosted true) 0 := by
  refine ⟨by decide +kernel, by decide +kernel, by decide +kernel, ⟨by decide +kernel, _, rfl, by decide +kernel⟩, ?_⟩
  unfold Serves
  decide +kernel

/-- A failed site whose context is readable, and one whose context is not; the steps of repair. -/
theorem witness_PowerEvents_repair :
    let r (k : RepairStep) (f : Tile → Tile) : State :=
      let s := ganged fun g => { g with byRepair := true, stopDone := true }
      { s with tile := f s.tile, svc := { s.svc with failed := [(0, 2)], repair := ⟨k, [(0, 2)], []⟩ } }
    let bad (t : Tile) : Tile := { t with pad := { t.pad with bad := [1024] } }
    ((r .stop id).failCause 0 = some 2 ∧ (r .stop id).repairStopped = true ∧ (r .stop id).siteFailed 0 = true ∧
      (r .stop id).contextsAt 0 = [(r .stop id).tile] ∧ (∀ g ∈ (r .stop id).gangs, g.mayChange = true) ∧
      ((r .stop id).gang 0 1).isSome = true ∧ (r .stop id).tile.id ∉ (r .stop id).svc.repair.lost ∧ (r .stop id).tile.pl.res ≠ .swappingIn ∧ (r .stop id).tile.lost = false ∧
      ((r .stop id).gangs.map fun g => (g.part, g.gid)).Nodup) ∧
    ((r .stop bad).contextsAt 0 = [(r .stop bad).tile] ∧ (r .stop bad).tile.lost = true) ∧
    ((r .rebuild id).lostFields = [] ∧ (r .resume id).svc.repair.lost = []) := by
  decide +kernel

/-- A failed site of a pool, and next to it a working tile of no pool. -/
theorem witness_PowerEvents_rebuild (h : Config.working 1 = true) :
    let s : State := { State.reset with svc := { State.reset.svc with
      failed := [(0, 2)], repair := ⟨.rebuild, [(0, 2)], []⟩, pools := [(0, 0), (1, 64)] } }
    s.lostFields = [] ∧ s.svc.repair.sites = [(0, 2)] ∧ s.poolOf 0 < 64 ∧ s.siteFailed 0 = true ∧ 64 ≤ s.poolOf 1 ∧ s.siteWorks 1 = true ∧
    ∀ z, 64 ≤ s.poolOf z → s.siteWorks z = true → manhattan 0 1 ≤ manhattan 0 z ∧ (z < 1 → manhattan 0 1 < manhattan 0 z) := by
  refine ⟨by decide +kernel, rfl, by decide +kernel, by decide +kernel, by decide +kernel, ?_, fun z p w => ?_⟩
  · unfold State.siteWorks
    rw [h]
    decide +kernel
  · have z0 : z ≠ 0 := fun e => absurd (e ▸ p) (by decide +kernel)
    refine ⟨?_, fun lt => absurd lt (by omega)⟩
    rw [show manhattan 0 1 = 1 by decide +kernel]
    have site : isSite z = true := by
      simp only [State.siteWorks, Bool.and_eq_true] at w
      exact w.1.1
    have site := of_decide_eq_true site
    simp only [fieldOf] at site
    simp only [manhattan, gap, siteXY, fieldOf]
    omega

/-! ## Witnesses: the step, the encoding, the invariant -/

/-- A calm tile at its turn, with an instruction of n bytes at its PC, whose block the fetch buffer holds. -/
def atTurn (pc : Word) (n w : Nat) : State :=
  { calmWith (fun t => { t with
      ex := { t.ex with pc := pc }, pad := { t.pad with bytes := Memory.setNat [] pc.toNat n w }
      iss := { t.iss with fetch := { t.iss.fetch with blocks := [(pc.toNat / 32, t.iss.cycle)] } } }) with
    turns := [⟨none, none⟩] }

/-- The conditions under which a step runs an instruction of n bytes, after the start of the cycle. -/
def runs (n : Nat) (i : Instr) (s : State) : Bool :=
  let t := s.tile
  let pc := t.ex.pc.toNat
  t.counts && t.mayRun && t.ex.inh && !t.ex.idle && t.ex.pends.isEmpty && !t.pl.stopDue && t.iss.tail.isNone && !t.iss.ending &&
  t.slotAllowed && decide (t.iss.bubble ≤ t.iss.cycle) && t.fetchReady && decide (pc % 4 = 0 ∧ pc + n ≤ t.regs.shbase.toNat) &&
  t.pad.bad.isEmpty && t.pad.old.isEmpty && t.pad.seen.isEmpty && decide ((decode (Memory.bytes t.pad.bytes pc n)).toOption = some (i, []))

/-- A word at the last address of the code segment meets every condition of a step that runs it. -/
theorem witness_StepRunsDecoded_word :
    let s := atTurn 0xFFC 4 0x0484FFFF
    (s.svc.off = false ∧ s.turns = ⟨none, none⟩ :: [] ∧ s.tile.ni.stepNext = none ∧ s.tile.ni.dutyNext = none) ∧
    ends (startCycle { s with turns := [] }) (runs 4 (.addi 4 4 (-1))) = true := by decide +kernel

/-- A pair at address 0. -/
theorem witness_StepRunsDecoded_pair :
    let s := atTurn 0 8 0xFCE00389F848D159
    (s.svc.off = false ∧ s.turns = ⟨none, none⟩ :: [] ∧ s.tile.ni.stepNext = none ∧ s.tile.ni.dutyNext = none) ∧
    ends (startCycle { s with turns := [] }) (runs 8 (.addl 7 0 0x123456789)) = true := by decide +kernel

/-- A word and a pair that are well-formed, with operands at the ends of their ranges. -/
theorem witness_RoundTrip : Instr.isWord (.bext 31 31 63 0) = true ∧ Instr.wf (.bext 31 31 63 0) = true ∧ Instr.isWord (.bext 0 0 0 63) = true ∧
    Instr.wf (.bext 0 0 0 63) = true ∧ Instr.isWord (.addl 31 31 0x800000000) = true ∧ Instr.wf (.addl 31 31 0x800000000) = true ∧
    Instr.isWord (.catl 31 31 0xFFFFFFF) = true ∧ Instr.wf (.catl 31 31 0xFFFFFFF) = true := by decide

/-- A state whose memory is not empty, from which a store reaches the step. -/
theorem witness_SharedMemoryKept : SharedMemoryOk (mapped 0 0) ∧
    ends (step { mapped 0 0 with turns := [⟨none, none⟩] }) (fun _ => true) = true := by
  unfold SharedMemoryOk
  decide +kernel

/-- Reset has the invariant, by computation. -/
theorem witness_ResetValues : SharedMemoryOk State.reset := by
  unfold SharedMemoryOk
  decide +kernel

/-! ## Witnesses: traps of what reaches beyond the tile -/

/-- The tile of `mapped` with other translations, an address that the walk has found unmapped, and deny bits. -/
def mappedWith (tlb : List TlbEntry) (gone : List Nat) (deny : List (Nat × Nat)) (x y : Word) : State :=
  let s := mapped x y
  { s with tile := { s.tile with ni := { s.tile.ni with tlb := tlb, noLeaf := gone, deny := deny } } }

/-- The owned page with no permission. -/
def closedPage : TlbEntry := { ownedPage with perms := 0 }

/-- A misaligned address, the first address past the space, one that no leaf maps, a page that may not be written, and a REDUCE page. -/
theorem witness_GlobalTraps :
    (∀ x y n, (mapped x y).tile.canIssue n) ∧ (mapped 0 0).tile.ex.cw = none ∧ GlobalTrap (mapped 0 0) .load 0x10001 8 0x04 ∧
    GlobalTrap (mapped 0 0) .store (2 ^ 56) 8 0x06 ∧ GlobalTrap (mappedWith [] [0x40000] [] 0 0) .load 0x40000 8 0x06 ∧
    GlobalTrap (mappedWith [closedPage] [] [] 0 0) .store 0x10000 8 0x07 ∧ GlobalTrap (mapped 0 0) .load 0x20000 8 0x08 := by
  refine ⟨mapped_canIssue, rfl, .inl (by decide), .inr (.inl (by decide)), .inr (.inr ⟨by decide, by decide, by decide +kernel, .inl ?_⟩),
    .inr (.inr ⟨by decide, by decide, by decide +kernel, .inr ⟨closedPage, rfl, .inl ?_⟩⟩),
    .inr (.inr ⟨by decide, by decide, by decide +kernel, .inr ⟨reducePage, rfl, .inr ?_⟩⟩)⟩ <;> decide +kernel

/-- Lanes 0 and 1 stand at the end of the owned page, and lane 2 at the start of the REDUCE page. -/
theorem witness_GlobalTraps_lanes :
    let s := mapped 0x1FFF8 0
    let at_ (j : Fin 16) : Word := s.tile.g 1 + BitVec.ofNat 64 (j.val * elemSize .f32)
    (∀ i, LaneOn s.tile 0 i) ∧ GlobalTrap s .load (at_ 2).toNat 4 0x08 ∧ GlobalTrap s .store (at_ 2).toNat 4 0x08 ∧
    ∀ j, j < (2 : Fin 16) → (at_ j).toNat % 4 = 0 ∧ Reaches s .load (at_ j).toNat 4 ownedPage ∧ Reaches s .store (at_ j).toNat 4 ownedPage := by
  refine ⟨by unfold LaneOn; decide +kernel, .inr (.inr ⟨by decide +kernel, by decide +kernel, by decide +kernel, .inr ⟨reducePage, by decide +kernel, .inr ?_⟩⟩),
    .inr (.inr ⟨by decide +kernel, by decide +kernel, by decide +kernel, .inr ⟨reducePage, by decide +kernel, .inr ?_⟩⟩), ?_⟩
  · decide +kernel
  · decide +kernel
  · unfold Reaches
    decide +kernel

/-- A tile in whose partition the home of the lines of the REDUCE page is denied, or that of a counter. -/
def denying (l : State → List (Nat × Nat)) (det : Bool) (x y : Word) : State :=
  let s := mapped x y
  { s with tile := { s.tile with
      gang := { s.tile.gang with det := det }
      ni := { s.tile.ni with deny := l s } } }

theorem denying_canIssue (l : State → List (Nat × Nat)) (det : Bool) (x y : Word) (n : Need) : (denying l det x y).tile.canIssue n :=
  quiet_canIssue _ rfl rfl rfl rfl n

/-- Deny bits of tables 2 and 3 of a line's home; no deny bit, and the four causes of a line that is free. -/
theorem witness_LineTraps :
    let home (s : State) (t : Nat) : List (Nat × Nat) := [(t, (s.part 0).lineHome 0x30000)]
    let s2 := denying (home · 2) false 0x20000 0
    let s3 := denying (home · 3) true 0x20000 0
    (∀ l d x y n, (denying l d x y).tile.canIssue n) ∧ (∀ l d x y, (denying l d x y).tile.ex.cw = none) ∧
    (s2.tile.held 0x20000 = some reducePage ∧ s2.tile.denied 2 ((s2.part 0).lineHome 0x30000) = true) ∧
    (s3.tile.held 0x20000 = some reducePage ∧ s3.tile.denied 2 ((s3.part 0).lineHome 0x30000) = false ∧ s3.tile.gang.det = true ∧
      s3.tile.denied 3 ((s3.part 0).lineHome 0x30000) = true) ∧
    (∀ k a, LineFree (mapped 0 0) k a) ∧ GlobalTrap (mapped 0 0) .atomic 0x20004 8 0x04 ∧ GlobalTrap (mapped 0 0) .red (2 ^ 56) 4 0x06 ∧
    GlobalTrap (mapped 0 0) .red 0x10000 4 0x08 := by
  refine ⟨denying_canIssue, fun _ _ _ _ => rfl, by decide +kernel, by decide +kernel, fun _ _ _ _ => ⟨rfl, fun _ _ => rfl⟩, .inl (by decide),
    .inr (.inl (by decide)), .inr (.inr ⟨by decide, by decide, by decide +kernel, .inr ⟨ownedPage, rfl, .inr ?_⟩⟩)⟩
  decide +kernel

/-- Counter 0, a counter whose home is denied in either table, the first and the last system counter, and a seal of no participant. -/
theorem witness_CounterTraps :
    let deny (t : Nat) (s : State) : List (Nat × Nat) := [(t, (s.part 0).ctrHome 7)]
    (∀ x y, (mapped x y).tile.ex.cw = none) ∧ ((mapped 0 0).tile.g 1).toNat % 2 ^ 32 = 0 ∧ ((mapped 7 0).tile.g 2).toNat % 2 ^ 32 = 0 ∧
    (denying (deny 0) false 7 0).tile.denied 0 (((denying (deny 0) false 7 0).part 0).ctrHome 7) = true ∧
    (denying (deny 1) false 7 0).tile.denied 1 (((denying (deny 1) false 7 0).part 0).ctrHome 7) = true ∧
    (denying (deny 1) false 7 0).atShedBarrier 7 = false ∧
    (∀ id, (mapped 7 1).tile.denied 0 (((mapped 7 1).part 0).ctrHome id) = false) ∧
    0xFFFFF000 ≤ ((mapped 0xFFFFF000 1).tile.g 1).toNat % 2 ^ 32 ∧ 0xFFFFF000 ≤ ((mapped 0xFFFFFFFF 1).tile.g 1).toNat % 2 ^ 32 ∧
    ((mapped 7 1).tile.g 2).toNat % 2 ^ 32 ≠ 0 := by
  refine ⟨fun _ _ => rfl, by decide +kernel, by decide +kernel, by decide +kernel, by decide +kernel, rfl, fun _ => rfl, ?_⟩
  decide +kernel

/-- A page that may be read and not written, and the module whose tables say so. -/
def readPage : TlbEntry := { reducePage with perms := 5 }
def shut : State :=
  let s := mappedWith [ownedPage, readPage] [] [] 0 0
  { s with mem := { s.mem with hbm := Memory.setNat s.mem.hbm 0x5010 1 0x17 } }

/-- The conditions of a copy's range: it runs past the REDUCE page to where no leaf is; a system counter. -/
theorem witness_RangeTraps_first :
    RangeTrap (mappedWith [ownedPage, reducePage] [0x30000] [] 0 0) .copyIn [0, 7] 0x2FFC0 128 0x06 0x30000 ∧
    RangeTrap (mapped 0 0) .copyIn [7, 0xFFFFF000] 0x10000 64 0x07 0xFFFFF000 := by
  refine ⟨⟨fun _ => by decide +kernel, [reducePage], some 0x30000, by decide +kernel, .inl ⟨0x30000, rfl, .inr ?_, rfl, rfl⟩⟩,
    ⟨fun _ => by decide +kernel, [ownedPage], none, by decide +kernel, .inr (.inl ⟨rfl, 0xFFFFF000, ?_⟩)⟩⟩ <;> decide +kernel

/-- A page that may not be written, and a REDUCE page, each behind an owned one. -/
theorem witness_RangeTraps_pages :
    RangeTrap shut .copyOut [7] 0x1FFC0 128 0x07 0x20000 ∧ RangeTrap (mapped 0 0) .copyIn [7] 0x1FFC0 128 0x08 0x20000 := by
  have small : ∀ i ∈ [(7 : W32)], i.toNat < 0xFFFFF000 := fun i h => by obtain rfl := List.mem_singleton.mp h; decide
  refine ⟨⟨fun _ => ?_, [ownedPage, readPage], none, ?_, .inr (.inr ⟨rfl, small, [ownedPage], readPage, [], rfl, ?_, .inl ?_⟩)⟩,
    ⟨fun _ => ?_, [ownedPage, reducePage], none, ?_, .inr (.inr ⟨rfl, small, [ownedPage], reducePage, [], rfl, ?_, .inr ?_⟩)⟩⟩ <;>
    decide +kernel

/-- A denied counter; no deny bit; a range that a copy reaches, of no byte where the shingle is undefined; a pattern that is not there, and one
that is, for a byte; a recipient in the last row and column, and one outside. -/
theorem witness_CopyTraps :
    let s := copying 0x0900000000010000 7
    let deny : State := denying (fun s => [(0, (s.part 0).ctrHome 7)]) false 0x10000 7
    let y : Nat := 2 ^ 40
    (¬CtrUndenied deny 7 ∧ CtrUndenied deny 0) ∧ (∀ x y id, CtrUndenied (copying x y) id) ∧ CtrFree s 7 ∧ (∀ x y, (copying x y).tile.ex.cw = none) ∧
    (Fin.ofNat 64 ((s.tile.g 1).toNat / 2 ^ 56) : Fin 64) = 9 ∧ s.tile.sh 9 = none ∧ RangeReaches s .copyIn 0x10000 0 [] ∧
    RangeReaches s .copyOut 0x10000 0 [] ∧ s.tile.gang.prog.deals[(2 ^ 32 : Nat) / 2 ^ 32 % 2 ^ 8]? = none ∧
    s.tile.gang.prog.deals[y / 2 ^ 32 % 2 ^ 8]? = some ⟨64, 1, 2, 0, 0, false⟩ ∧ y / 2 ^ 40 ≠ 0 ∧
    inGrid s.tile.gang.rows s.tile.gang.cols 0x1001 = true ∧ inGrid s.tile.gang.rows s.tile.gang.cols 2 = false := by
  refine ⟨⟨fun h => ?_, .inl rfl⟩, fun _ _ _ => .inr rfl, .inr ?_, fun _ _ => rfl, ?_⟩
  · revert h
    unfold CtrUndenied
    decide +kernel
  · decide +kernel
  · unfold RangeReaches
    decide +kernel

/-- A payload that is not aligned, one in no window, one that is fine; a destination outside the grid; arguments past g31. -/
theorem witness_MessageTraps :
    let t (x y : Word) : Tile := (withG x y).tile
    (∀ x y n, (t x y).canIssue n) ∧ (∀ x y, (t x y).ex.cw = none) ∧ ((t 0 0x7FFC1).g 2).toNat % 64 ≠ 0 ∧
    ((t 0 0x80000).g 2).toNat % 64 = 0 ∧ windowOf ((t 0 0x80000).g 2).toNat = none ∧ windowOf ((t 2 0x7FFC0).g 2).toNat ≠ none ∧
    inGrid (t 2 0).gang.rows (t 2 0).gang.cols (((t 2 0).g 1).toNat % 2 ^ 24) = false ∧ 28 < (29 : GReg).val ∧ (28 : GReg).val ≤ 28 := by
  refine ⟨fun _ _ => quiet_canIssue _ rfl rfl rfl rfl, fun _ _ => rfl, ?_⟩
  decide +kernel

/-- The tile of `mapped` with a handle over some bytes, and other translations. -/
def handing (base len y : Word) (tlb : List TlbEntry) (gone : List Nat) : State :=
  let s := mappedWith tlb gone [] 2 y
  { s with tile := { s.tile with regs := { s.tile.regs with h := s.tile.regs.h.set 0 ⟨base, len⟩ } } }

/-- The rows of R229's table, each at a range whose pages let the rows above it pass: a base and a length that are not aligned, an unmapped
page behind a mapped one, an owner outside the grid, a system counter, a page that may not be written, and one in REDUCE. -/
theorem witness_HandoverTraps :
    let both := [ownedPage, reducePage]
    let range (b n : Word) : State := handing b n 7 both [0x30000]
    let permit (s : State) (e : TlbEntry) : Bool := permits e.perms s.tile.ex.prv .handover
    (∀ b n y l g k, (handing b n y l g).tile.canIssue k) ∧ (∀ b n y l g id, CtrUndenied (handing b n y l g) id) ∧
    (0x10008 % 65536 ≠ 0 ∧ 0x8000 % 65536 ≠ 0 ∧ 0x10000 % 65536 = 0) ∧
    (range 0x10000 0x30000).tile.handPages 0x10000 0x30000 = (both, some 0x30000) ∧ Unmapped (range 0x10000 0x30000) 0x30000 ∧
    (range 0x10000 0x20000).tile.handPages 0x10000 0x20000 = (both, none) ∧
    (range 0x10000 0x20000).modePending 5 0x10000 0x20000 = false ∧ inGrid 2 2 (((range 0x10000 0x20000).tile.g 1).toNat % 2 ^ 24) = false ∧
    0xFFFFF000 ≤ (0xFFFFF000 : W32).toNat ∧ (7 : W32).toNat < 0xFFFFF000 ∧
    (shut.tile.handPages 0x10000 0x20000 = ([ownedPage, readPage], none) ∧
      permit shut ownedPage = true ∧ permit shut readPage = false) ∧
    (permit (range 0x10000 0x20000) reducePage = true ∧ (range 0x10000 0x20000).tile.modeFor ownedPage 0x10000 = (0, 0) ∧
      (range 0x10000 0x20000).tile.modeFor reducePage 0x20000 = (2, 0)) := by
  refine ⟨fun _ _ _ _ _ => quiet_canIssue _ rfl rfl rfl rfl, fun _ _ _ _ _ _ => .inr rfl, by decide, by decide +kernel, .inr ?_, ?_⟩ <;>
    decide +kernel

/-- A page of 32 MiB that begins before the range of a handle: R229 asks that a page lies whole in the range. -/
theorem witness_HandoverTraps_whole :
    let big : TlbEntry := ⟨5, 0x2000000, 0x2000000, 0x2000000, 0, 0, 15⟩
    let s : State := let s := handing 0x2010000 0x10000 7 [big] []
      { s with mem := { s.mem with hbm := Memory.setNat s.mem.hbm 0x4008 8 (0x200 * 4096 + 0x3F) } }
    s.tile.handPages 0x2010000 0x10000 = ([big], none) ∧ ¬(0x2010000 ≤ big.va ∧ big.va + big.size ≤ 0x2010000 + 0x10000) := by
  decide +kernel

/-! ## Witnesses: further clauses of gangs, engines and copies -/

/-- A gang that sheds and has not stopped, whose barrier is a counter that its tile names. -/
def shedding (f : Tile → Tile) : State :=
  let s := ganged fun g => { g with shedWait := true, barrier := 7 }
  { s with tile := f ((s.tile.setG 1 7).setG 2 1) }

theorem shedding_canIssue (n : Need) : (shedding id).tile.canIssue n := quiet_canIssue _ rfl rfl rfl rfl n

/-- A tile that arrives at its shedding gang's barrier, and one that holds at it. -/
theorem witness_BarrierStops :
    let s := shedding id
    let h := shedding fun t => { t with ex := { t.ex with cw := (waiting none).tile.ex.cw } }
    (∀ n, s.tile.canIssue n) ∧ (s.tile.ex.cw = none ∧ BitVec.ofNat 32 (s.tile.g 1).toNat = (7 : W32)) ∧
    (h.tile.ex.cw = some ⟨7, 1, false, 0, some 100, true, true, false, none⟩) ∧
    (∃ g, s.gang 0 1 = some g ∧ g.barrier = 7 ∧ g.shedWait = true) ∧ (∃ g, h.gang 0 1 = some g ∧ g.barrier = 7 ∧ g.shedWait = true) ∧
    s.tile.pl.stopped = false ∧ h.tile.pl.stopped = false := by
  refine ⟨shedding_canIssue, by decide +kernel, rfl, ⟨_, rfl, rfl, rfl⟩, ⟨_, rfl, rfl, rfl⟩, rfl, rfl⟩

/-- A CWAIT at no shedding gang's barrier: before its release, and after it. -/
theorem witness_Counters_calm : (withG 7 0).atShedBarrier 7 = false ∧ ∀ l, (waiting l).atShedBarrier 7 = false := ⟨rfl, fun _ => rfl⟩

/-- Gangs that GSTOP, a shed or a GRESUME holds, and one that only firmware stops; no counter. -/
theorem witness_GangControl_resumes :
    let stops (f : Gang → Gang) : Gang := f { oneGang with stopWork := true }
    let waits (g : Gang) : Prop := g.byGstop = true ∨ g.byShed = true ∨ g.resumeCtrs ≠ []
    waits (stops fun g => { g with byGstop := true }) ∧ waits (stops fun g => { g with byShed := true }) ∧
    waits (stops fun g => { g with resumeCtrs := [⟨5, 7, 1⟩] }) ∧ ¬waits (stops fun g => { g with byFirmware := true }) ∧
    (stops fun g => { g with byFirmware := true }).stopping = true ∧ BitVec.ofNat 32 (calmS.tile.g 2).toNat = (0 : W32) := by
  decide +kernel

/-- An atomic whose line is not buffered, and whose word of HBM has an uncorrectable error. -/
theorem witness_SyncEvents_ecc :
    let c := counting .msg
    let o : OutLoad := { stamp := 0, kind := .atomic .aadd 1 0 false .signed, elems := [⟨.g 3, 0, 0x20008, 0x30008, 4, none⟩], regs := [.g 3], hs := 0
                         issued := 8, aclass := 6, ecc := none }
    let s := { c with
      tile := { c.tile with ops := { Outstanding.fresh with loads := [o] } }
      mem := { c.mem with bad := [0x30008 / 8] }
      sync := { c.sync with lines := [] } }
    (s.tile.ops.loads[0]? = some o ∧ s.reqComing 0 = false ∧ s.numberedBefore 0 (s.lineEngine 5 0x30008) none = false) ∧
    (∀ l ∈ s.sync.lines, l.pa ≠ 0x30008 / 64 * 64) ∧ s.mem.bad.contains (0x30008 / 8) = true ∧ Roomy s 0 := by
  refine ⟨by decide +kernel, fun _ h => by simp at h, by decide +kernel, ?_⟩
  exact roomy_of _ (show ∀ j : Fin 4, (Vector.replicate 4 9).get j = 9 by decide) (show 1 < 9 by decide)
    (fun _ h => by obtain rfl := List.mem_singleton.mp h; rfl) (show 0 < 9 by decide) (show 0 < 9 by decide)

/-- A tile that is not paused; a credit and a hand-over whose tables have room and whose words are sound; a seal with DET of a counter that is
in use, and of one that is not. -/
theorem witness_SyncEvents_sound :
    (ganged id).tile.ni.paused = false ∧ Roomy (counting .msg) ((counting .msg).asidPart 5) ∧
    (let h := counting (.handover 0 0x10000 0x10000 1 false 0)
     h.mem.bad.contains (0x5008 / 8) = false ∧ Roomy h h.tile.id.part) ∧
    ((exact_ (.seal 7 2 0)).counter 5 7 = some ⟨5, 7, 3, 0, false, false, []⟩ ∧ (exact_ (.seal 8 2 0)).counter 5 8 = none ∧
      (exact_ (.seal 8 2 0)).numberedBefore 0 ((exact_ (.seal 8 2 0)).ctrEngine 5 8) (some 8) = false ∧
      (exact_ (.seal 8 2 0)).sync.bad.contains (ctrKey 5 8) = false) :=
  ⟨rfl, counting_roomy .msg, ⟨by decide +kernel, counting_roomy _⟩, by decide +kernel⟩

/-- The module of `moving` with room in every table. -/
theorem moving_roomy (c : OutCopy) : Roomy (roomyPart (moving c)) 0 :=
  roomy_of _ (show ∀ j : Fin 4, (Vector.replicate 4 9).get j = 9 by decide) (show 0 < 9 by decide) (fun _ h => absurd h List.not_mem_nil)
    (show 0 < 9 by decide) (show 0 < 9 by decide)

/-- A CPOUT at its release point and at its visibility point, with room and sound counters; one that could not write a word, with a unit that
fails behind it; a byte of a CPIN that cannot be read. -/
theorem witness_CopyEvents_faults :
    let s (c : OutCopy) := roomyPart (moving c)
    (∀ c, Roomy (s c) (s c).tile.id.part ∧ (s c).sync.bad.contains (ctrKey 5 7) = false ∧ (s c).tile.ni.paused = false) ∧
    (let c : OutCopy := { copyOf .cpout true with units := [0], ecc := some 0x10008 }
     c.kind ≠ .cpt ∧ c.unitLeft 0x10040 = true ∧ c.reads = false ∧ copyUnit c.va c.len 0x10040 = (0x10040, 64) ∧ 0x10008 ≤ 0x10040) ∧
    (let c := copyOf .cpin false
     let bad : State := { moving c with mem := { (moving c).mem with bad := [0x20048 / 8] } }
     c.reads = true ∧ c.va ≤ 0x10048 ∧ 0x10048 < c.va + c.len ∧ c.unitLeft 0x10048 = true ∧ bad.badHbm (c.pa 0x10048) 1 = true) :=
  ⟨fun c => ⟨moving_roomy c, rfl, rfl⟩, by decide +kernel, by decide +kernel⟩

/-- A remote fill whose first flit has come; two tiles that exchange, neither paused, and none of whose bytes is bad. -/
theorem witness_CopyEvents_comes :
    let s : State := { ganged id with
      fab := { State.reset.fab with remotes := [⟨0, ⟨0, 1, 0⟩, 1, 0, 0, 4, 0, 7, some 0, false⟩] } }
    (∀ r ∈ s.fab.remotes, s.fillComes r = true) ∧ s.tile.ni.paused = false ∧
    (let o : OutCopy := { copyOf .cpt true with stamp := 1, units := [0, 8, 16, 24, 32, 40, 48, 56] }
     let m : State := { moving o with fab := { State.reset.fab with remotes := [⟨0, ⟨0, 1, 0⟩, 0, 1, 0, 4, 128, 7, some 0, false⟩] } }
     ∀ r ∈ m.fab.remotes, m.fillComes r = true) := by
  decide +kernel

/-- Rows that no leave notice precedes; members that end unpaired at a leave notice, an operation for which rows come, and one of a join that
the notice does not concern. -/
theorem witness_EngineEvents_ends :
    let leave : Notice := ⟨2, ⟨0, 1, 1⟩, some 0, 0, 0, true⟩
    let s (serial : Nat) (rows : List RowPacket) := trussed 1 (fun t => { t with
      ops := { t.ops with mx := [⟨0, .mmat true false 0, t.geom 0, none, 0, none, none, none⟩] }
      eng := { t.eng with joinSerial := serial } }) [leave] rows false
    let row : RowPacket := ⟨1, ⟨0, 1, 1⟩, some 0, 0, 0, [[]]⟩
    ((s 0 [row]).tile.eng.joinSerial ≤ row.serial ∧ (s 0 []).tile.rowSource leave.plan leave.source = true ∧ (s 0 []).tile.eng.joinSerial ≤ leave.serial ∧ ¬(s 3 []).tile.eng.joinSerial ≤ leave.serial) ∧
    ((s 0 []).fab.rowPackets = [] ∧ row.dst = (s 0 [row]).tile.id ∧ row.plan = leave.plan ∧ row.serial < leave.serial ∧
      (s 0 [row]).leaveBefore row = false) := by
  decide +kernel

/-- A gang that has closed, and one whose root is finished, with a virtual tile that nothing has touched and that reports 0. -/
theorem witness_LaunchEvents_untouched :
    let idle : Tile := { Tile.fresh with id := ⟨0, 1, 1⟩, gang := calmTile.gang, pl := Place.fresh }
    let s (f : Gang → Gang) : State := { finished f with tile := idle, others := [(finished f).tile] }
    let closed (g : Gang) : Gang := { g with closed := true }
    ((s id).tile.pl.touched = false ∧ (s id).tile.pl.finished = false ∧ (s id).tile.pl.kidsLeft = 0 ∧ (s id).tile.count .ms = 0 ∧
      (s id).tile.pl.reported = false) ∧
    (∀ g ∈ (s id).gangs, g.closed = false ∧ (∃ r, (s id).findTile ⟨g.part, g.gid, g.root⟩ = some r ∧ r.pl.finished = true) ∧
      (∀ x ∈ (s id).tilesOf g.part g.gid, (x.pl.touched = true → x.pl.finished = true) ∧ x.inb.window = []) ∧ (s id).fab.flight = []) ∧
    ∀ g ∈ (s closed).gangs, g.closed = true := by
  refine ⟨by decide +kernel, fun g hg => ?_, by decide +kernel⟩
  obtain rfl : g = oneGang := List.mem_singleton.mp hg
  exact ⟨by decide +kernel, ⟨_, rfl, by decide +kernel⟩, by decide +kernel, by decide +kernel⟩

/-- A read that a port has accepted, at each of its stages: on its way, at the stack, whose word is good or bad or whose stack is gone, and
answered with bytes and without. -/
def hostReading (got : Option (Option (List Byte))) (bad : List Nat) (gone : Bool) : State :=
  let s := hosted true
  { s with
    mem := { s.mem with bad := bad }
    svc := { s.svc with failed := if gone then [(stackOf 0x20000, 4)] else [] }
    host := { s.host with ports := s.host.ports.set 0 { s.port 0 with reading := some ⟨0, 1, 5, 0x10000, 0x20000, 3, got⟩ } } }

theorem witness_HostEvents_reads :
    let r (got : Option (Option (List Byte))) : HostRead := ⟨0, 1, 5, 0x10000, 0x20000, 3, got⟩
    let moving : State := { hostReading none [] false with fab := { State.reset.fab with flits := [⟨.pkt 3, true, 0, 0, 4, 0, 0, 0, false, false⟩] } }
    (∀ got bad gone, ((hostReading got bad gone).port 0).reading = some (r got) ∧ (hostReading got bad gone).travelling (.pkt 3) = false) ∧
    ((moving.port 0).reading = some (r none) ∧ moving.travelling (.pkt 3) = true) ∧
    ((hostReading none [] false).badHbm 0x20000 1 = false ∧ (hostReading none [] false).stackGone 0x20000 = false) ∧
    (hostReading none [0x20000 / 8] false).badHbm 0x20000 1 = true ∧ (hostReading none [] true).stackGone 0x20000 = true ∧
    ((hosted true).port 0).reading = none := by
  refine ⟨fun _ _ _ => ⟨rfl, rfl⟩, ⟨rfl, by decide +kernel⟩, ⟨by decide +kernel, by decide +kernel⟩, by decide +kernel, ?_, rfl⟩
  simp [hostReading, State.stackGone]

/-- A write whose packet is on its way, and one whose stack has left the device. -/
theorem witness_HostEvents_writes :
    let s := writing [] [some 1, none, some 3]
    let moving : State := { s with fab := { State.reset.fab with flits := [⟨.pkt 0, true, 0, 0, 4, 0, 0, 0, false, false⟩] } }
    let gone : State := { s with svc := { s.svc with failed := [(stackOf 0x20005, 4)] } }
    ((s.port 0).writes = [⟨0, 0, 5, 0x10005, 0x20005, [some 1, none, some 3]⟩] ∧ s.travelling (.pkt 0) = false ∧ s.stackGone 0x20005 = false) ∧
    ((moving.port 0).writes = (s.port 0).writes ∧ moving.travelling (.pkt 0) = true) ∧
    ((gone.port 0).writes = (s.port 0).writes ∧ gone.travelling (.pkt 0) = false ∧ gone.stackGone 0x20005 = true) := by
  refine ⟨by decide +kernel, by decide +kernel, rfl, rfl, ?_⟩
  simp [State.stackGone]

/-- A staging record of zeros but for ENABLE, a live limit and a queue depth of 1, and a quota of table 1. -/
def staged (enable quota : Nat) : Memory := Memory.setNat (Memory.setNat (Memory.setNat (Memory.setNat [] 0 1 enable) 2 2 1) 4 1 1) 0x014 4 quota

/-- A byte at which no entry stands reads as zero. -/
theorem byte_unlisted (m : Memory) (a : Nat) (h : ∀ c ∈ m, c.1 ≠ a) : Memory.byte m a = 0 := by
  induction m with
  | nil => rfl
  | cons c t ih => exact (if_neg (h c (by simp))).trans (ih fun x hx => h x (by simp [hx]))

/-- What `InRange` asks, in a form that is computed: every entry of the record stands before the reserved bytes, and not at the first of them. -/
theorem inRange_of (m : Memory) (h : let f := Memory.nat m
      f 0 1 ≤ 1 ∧ f 1 1 ≤ 7 ∧ 1 ≤ f 2 2 ∧ f 2 2 ≤ 4096 ∧ 1 ≤ f 4 1 ∧ f 4 1 ≤ 64 ∧ f 5 1 ≤ 3 ∧ f 8 1 ≤ 15 ∧ f 9 1 % 4 = 0 ∧
      f 0x00A 2 ≤ f 0x00C 2 ∧ f 0x00C 2 ≤ 256 ∧ f 0x00E 1 ≤ 8 ∧ f 0x030 2 ≤ 4095 ∧ f 0x038 8 % 65536 = 0)
    (c : ∀ e ∈ m, e.1 ≠ 0x00F ∧ e.1 < 0x032) : InRange m := by
  obtain ⟨h1, h2, h3, h4, h5, h6, h7, h8, h9, h10, h11, h12, h13, h14⟩ := h
  have zero (k : Nat) (hk : k = 0x00F ∨ 0x032 ≤ k) : Memory.byte m k = 0 := byte_unlisted m k fun e he => by have := c e he; omega
  refine ⟨h1, h2, h3, h4, h5, h6, h7, h8, h9, h10, h11, h12, h13, h14, fun k e => zero k (by unfold Reserved at e; omega), fun k _ => ?_⟩
  simp only [homeEntry, Memory.nat, Memory.bytes, zero (0x400 + 6 * k / 8) (by omega), zero (0x400 + 6 * k / 8 + 1) (by omega)]
  simp [ofBytes]

/-- The largest quota that fits table 1 beside its reserve, and the next one; a record that is out of range. -/
theorem witness_HostEvents_records :
    (∀ e ∈ [0, 1], InRange (staged e 58255)) ∧ InRange (staged 1 58256) ∧ ¬InRange [] ∧ QuotasFit (hosted true) 0 (staged 1 58255) ∧
    QuotasFit (hosted true) 0 (staged 0 58255) ∧ ¬QuotasFit (hosted true) 0 (staged 1 58256) := by
  refine ⟨fun e he => ?_, inRange_of _ ?_ ?_, fun h => absurd h.2.2.1 ?_, ?_, ?_, fun h => absurd (h 1) ?_⟩
  · obtain rfl | rfl : e = 0 ∨ e = 1 := by simpa using he
    all_goals exact inRange_of _ (by decide +kernel) (by decide +kernel)
  · decide +kernel
  · decide +kernel
  · decide +kernel
  · unfold QuotasFit
    decide +kernel
  · unfold QuotasFit
    decide +kernel
  · decide +kernel

/-- Where the policy asks for the countersigned map, a record that enables a partition while the other map is in use, and one that does not. -/
theorem witness_HostEvents_policy (h : Config.countersignPolicy = true) :
    let s : State := { hosted true with host := { (hosted true).host with ctrl := { (hosted true).host.ctrl with map := 1 } } }
    let policy (m : Memory) : Prop := Config.countersignPolicy = true ∧ Memory.nat m 0 1 = 1 ∧ s.host.ctrl.map = 1
    s.host.ctrl.owner = some (Fin.ofNat 2 0) ∧ policy (staged 1 1) ∧ ¬policy (staged 0 1) := by
  refine ⟨by decide +kernel, ⟨h, by decide +kernel, by decide +kernel⟩, fun e => absurd e.2.1 (by decide +kernel)⟩

/-- The module of `ganged` with room in every table. -/
theorem ganged_roomy (f : Gang → Gang) (g : Tile → Tile) : Roomy (roomyPart { ganged f with tile := g (ganged f).tile }) 0 :=
  roomy_of _ (show ∀ j : Fin 4, (Vector.replicate 4 9).get j = 9 by decide) (show 0 < 9 by decide) (fun _ h => absurd h List.not_mem_nil)
    (show 0 < 9 by decide) (show 0 < 9 by decide)

/-- A tile that is to swap out and has quiesced, with a CWAIT withdrawn or none. -/
def quiet (w : Option (W32 × Word × Bool)) (t : Tile) : Tile :=
  { t with pl := { t.pl with res := .swappingOut, stopDue := false }, ex := { t.ex with inh := false, withdrawn := w } }

/-- A virtual tile that has quiesced, with no CWAIT withdrawn and with one; a gang that goes out whole; a gang whose stop a GSTOP still waits
for; a change that takes out a readable context. -/
theorem witness_PlacementEvents_room :
    let s (w : Option (W32 × Word × Bool)) := roomyPart { ganged id with tile := quiet w (ganged id).tile }
    let o := roomyPart { ganged (fun g => { g with byFirmware := true, stopDone := true }) with
      tile := { calmS.tile with pl := { calmS.tile.pl with stopped := true } } }
    let stop (w : Bool) : State := let x := ganged fun g => { g with byGstop := true, stopWork := w, stopCtrs := [⟨5, 7, 1⟩] }
      { x with tile := { x.tile with ex := { x.tile.ex with inh := false } } }
    (∀ w, Roomy (s w) 0 ∧ (s w).tile.lost = false ∧ (s w).tile.pl.res = .swappingOut ∧ (s w).sync.bad = []) ∧
    ((s none).quiesced = true ∧ (s (some (7, 0, false))).tile.ex.withdrawn.isSome = true) ∧
    (RoomFor o 0 ((o.tilesOf 0 1).filter fun x => decide (x.pl.res = .resident)).length ∧ o.sync.bad = [] ∧
      (∀ g ∈ o.gangs, o.goesOut g = true ∧ g.mayChange = true) ∧ ∀ x ∈ o.tilesOf 0 1, x.lost = false ∧ o.failCause x.pl.phys = none) ∧
    (∀ w, ∀ g ∈ (stop w).gangs, g.stopCtrs ≠ [] ∧ g.change = none ∧ (stop w).drained g = true ∧ g.stopping = true) ∧
    (∀ w, ∀ x ∈ (stop w).tilesOf 0 1, x.pl.stopDue = false ∧ (stop w).quiescedAt x.id = true) ∧
    ∀ x ∈ (changing [] [] id).tilesOf 0 1, x.lost = false := by
  refine ⟨fun w => ⟨ganged_roomy id (quiet w), ?_, rfl, rfl⟩, by decide +kernel, ⟨fun a b => ?_, by decide +kernel⟩, by decide +kernel, by decide +kernel, by decide +kernel⟩
  · cases w <;> rfl
  · exact ganged_roomy (fun g => { g with byFirmware := true, stopDone := true }) (fun t => { t with pl := { t.pl with stopped := true } }) a b

/-- A module that samples its supply, with an estimate and class 0 marked or not; the loss timer is due. -/
def sampling (est : Nat) (mark : Bool) (f : PowerState → PowerState) : State :=
  let s := ganged id
  { s with
    fab := { s.fab with time := 1000000 }
    power := f { s.power with est := est, marks := if mark then s.power.marks.set 0 ⟨true, 0, false, 0⟩ else s.power.marks } }

/-- A sample leaves the ceiling at 100%: below E, and at or above it, where the test of restore fails at E and holds at no load; the nineteenth
pass and the twentieth; no class marked, and class 0 marked. -/
theorem witness_PowerEvents_samples :
    let passed (n : Nat) := sampling 0 true fun p => { p with passes := n }
    (∀ e b, (sampling e b id).host.ctrl.sampleCeil 60000 2000 = 256 ∧ (sampling e b id).power.hot = false) ∧ 256 < 300 ∧
    (∀ k : Fin 8, ((sampling 300 false id).power.marks.get k).marked = false ∧ ((sampling 300 false id).power.marks.get k).due = false) ∧
    (((passed 0).power.marks.get 0).marked = true ∧ ((passed 0).power.marks.get 0).saving = 0 ∧
      (∀ k, 0 < k → ((passed 0).power.marks.get k).marked = false) ∧ ((passed 0).gangs.map fun g => (g.part, g.gid)).Nodup ∧
      ∀ g ∈ (passed 0).gangs, g.cls = 0) ∧
    (0 + (passed 0).host.ctrl.hyst ≤ 256 ∧ ¬256 + (passed 0).host.ctrl.hyst ≤ 256) ∧
    ((passed 18).power.passes + 1 < 20 ∧ 20 ≤ (passed 19).power.passes + 1) ∧
    ((passed 0).power.graces = [] ∧ (passed 0).power.lastLoss = none ∧ (passed 0).power.lastSample + 1000000 ≤ (passed 0).fab.time) := by
  refine ⟨fun _ _ => ⟨rfl, rfl⟩, ?_⟩
  decide +kernel

/-- The repair list is to be recorded. -/
theorem witness_PowerEvents_record :
    ({ State.reset with svc := { State.reset.svc with repair := ⟨.record, [(3, 2)], []⟩ } } : State).svc.repair.step = .record := rfl

/-! ## Witnesses: the tail of a pair, windows, lanes, and the traps of the engine -/

/-- A tile whose long-immediate pair has issued, in the first cycle of a window, at a DUTY. -/
def tailed (duty : Nat) : State := { calmWith fun t => { t with iss := { t.iss with tail := some (7, 9) }, ni := { t.ni with duty := duty } } with
  turns := [⟨none, none⟩] }

/-- The slot of the tail is allowed at DUTY 16, and not at DUTY 1. -/
theorem witness_TailWrites :
    let turn (d : Nat) : Out := startCycle { tailed d with turns := [] }
    (∀ d, (tailed d).svc.off = false ∧ (tailed d).tile.ni.stepNext = none ∧ (tailed d).tile.ni.dutyNext = none) ∧
    (∀ d ∈ [16, 1], ends (turn d) (fun s => s.tile.counts && !s.tile.iss.ending && decide (s.tile.iss.tail = some (7, 9)) &&
      (s.tile.slotAllowed == decide (d = 16)))) := by
  refine ⟨fun _ => ⟨rfl, rfl, rfl⟩, by decide +kernel⟩

/-- The first and the last byte of each window; addresses that are aligned to an element. -/
theorem witness_Windows : windowOf 0 = some (.raw, 0) ∧ windowOf 0x7FFFF = some (.raw, 0x7FFFF) ∧ windowOf 0x80000 = none ∧
    windowOf 0x013332FF = some (.blk .lb4, 0x3332FF) ∧ windowOf 0x01333300 = none ∧ windowOf 0x08003FFF = some (.inbox, 0x3FFF) ∧
    windowOf 0x08004000 = none ∧ 0 % 4 = 0 ∧ 64 % 4 = 0 ∧ 15 < 64 / 4 := by decide +kernel

/-- The largest and the least element of each width; numbers of n bytes with their top bit set and clear. -/
theorem witness_LaneFill : (∀ ty : ElemTy, 0 < 2 ^ (8 * elemSize ty) ∧ 2 ^ (8 * elemSize ty) - 1 < 2 ^ (8 * elemSize ty)) ∧
    ∀ n ∈ [1, 2, 4, 8], 2 ^ (8 * n - 1) < 2 ^ (8 * n) ∧ 2 ^ (8 * n) - 1 < 2 ^ (8 * n) ∧ 0 < 2 ^ (8 * n) := by
  refine ⟨fun ty => ?_, by decide⟩
  cases ty <;> decide

/-- A NaN and numbers for a minimum: the two zeros, which are told apart. -/
theorem witness_AtomicResults :
    let nan (z : Nat) : Prop := z / 2 ^ 23 % 256 = 255 ∧ z % 2 ^ 23 ≠ 0
    nan 0x7F800001 ∧ ¬nan 0xFF800000 ∧ ¬nan 0 ∧ ¬nan 0x80000000 ∧ 0xFF800000 < 2 ^ 32 ∧ 0x7F800001 < 2 ^ 32 := by decide

/-- The tile of `armed` with other engine registers and rows that a checksum has found bad. -/
def shaped (x y : Word) (kb n stride kbase : Word) (bad : List Nat) : State :=
  let s := armed x y
  { s with tile := { s.tile with eng := { s.tile.eng with regs := #v[0x22, kb, n, 0, stride, kbase], badRows := bad } } }

theorem shaped_canIssue (x y : Word) (kb n stride kbase : Word) (bad : List Nat) (d : Need) :
    (shaped x y kb n stride kbase bad).tile.canIssue d := quiet_canIssue _ rfl rfl rfl rfl d

/-- A shingle that is undefined, one that is EMPTY, and one that ends one byte before the last byte named, and one that ends at it. -/
theorem witness_ShingleTrap :
    let t := (armed 0 1).tile
    ShingleTrap t 9 1 (1024 + 9) ∧ ShingleTrap t 4 1 4 ∧ ShingleTrap t (3 + 1023 * 2 ^ 32) 2 ((0x2000 + 1024) * 2 ^ 32 + 2 * 256 + 3) ∧
    ∀ v, ¬ShingleTrap t (3 + 1022 * 2 ^ 32) 2 v := by
  refine ⟨.inl (by decide +kernel), .inr ⟨_, rfl, .inl (by decide +kernel)⟩, .inr ⟨_, rfl, .inr (by decide +kernel)⟩, fun v h => ?_⟩
  obtain ⟨h, -⟩ | ⟨x, h, c⟩ := h
  · exact absurd h (by decide +kernel)
  · have e : (armed 0 1).tile.sh (refSh (3 + 1022 * 2 ^ 32)) = some ⟨.ready, 1024, 16, 0x2000, 0, 0⟩ := by decide +kernel
    obtain rfl := Option.some.inj (e.symm.trans h)
    obtain ⟨c, -⟩ | ⟨-, c, -⟩ := c
    · exact absurd c (by decide)
    · exact absurd c (by decide +kernel)

/-- A geometry of K beyond the CIM and one of no row; a lowest bad K-row; a misaligned offset, an odd stride, and both aligned; a member of a
truss that is no source. -/
theorem witness_EngineTraps :
    let g (s : State) : Geom := s.tile.geom (s.tile.g 2)
    let fits : State := shaped 3 1 1 1 0 0 [0, 1]
    (∀ x y kb n stride kbase bad d, (shaped x y kb n stride kbase bad).tile.canIssue d ∧ (shaped x y kb n stride kbase bad).tile.ex.cw = none) ∧
    ¬(g (shaped 3 1 1 1 0 64 [])).kbase + (g (shaped 3 1 1 1 0 64 [])).kb ≤ 64 ∧ ¬1 ≤ (g (shaped 3 0 1 1 0 0 [])).m ∧
    ((g fits).kbase + (g fits).kb ≤ 64 ∧ (g fits).c0 + (g fits).n ≤ 128 ∧ 1 ≤ (g fits).m ∧ (g fits).m ≤ 128 ∧
      (g fits).row0 + (g fits).m ≤ 128 ∧ (g fits).col0 + (g fits).n ≤ 128) ∧
    (32 * (g fits).kbase ≤ 0 ∧ 0 < 32 * ((g fits).kbase + (g fits).kb) ∧ fits.tile.eng.badRows.contains 0 = true ∧ 0 = 0 % 128 * 256 + 0 / 128) ∧
    (refOff (3 + 2 * 2 ^ 32) % 4 ≠ 0 ∧ refOff 3 % 4 = 0 ∧ (g (shaped 3 1 1 1 6 0 [])).stride % 4 ≠ 0 ∧ (g (shaped 3 1 1 1 6 0 [])).stride ≠ 0) ∧
    ((joined 1).tile.eng.joined = true ∧ (joined 1).tile.eng.pos.val % 3 ≠ 0 ∧ ∀ n, (joined 1).tile.canIssue n) := by
  refine ⟨fun _ _ _ _ _ _ _ _ => ⟨shaped_canIssue _ _ _ _ _ _ _ _, rfl⟩, by decide +kernel, by decide +kernel, by decide +kernel,
    by decide +kernel, by decide +kernel, by decide +kernel, by decide +kernel, fun n => quiet_canIssue _ rfl rfl rfl rfl n⟩

/-- A partner outside the grid; a shingle that is undefined and one that is EMPTY, with a partner inside; a truss already joined, a plan that
is not there, and a plan whose rectangle does not hold the tile. -/
theorem witness_TrussTraps :
    let outside (s : State) : Bool := !inGrid s.tile.gang.rows s.tile.gang.cols ((s.tile.g 2).toNat % 2 ^ 24)
    (∀ x y n, (armed x y).tile.canIssue n ∧ (armed x y).tile.ex.cw = none) ∧ outside (armed 3 2) = true ∧
    (outside (armed 9 1) = false ∧ (armed 9 1).tile.sh (refSh ((armed 9 1).tile.g 1)) = none) ∧
    (outside (armed 4 1) = false ∧ (armed 4 1).tile.sh (refSh ((armed 4 1).tile.g 1)) = some ⟨.empty, 0, 16, 0x3000, 0, 0⟩) ∧
    ((joined 0).tile.eng.joined = true ∧ ∀ n, (joined 0).tile.canIssue n) ∧
    (armed 1 1).tile.gang.prog.plans[((armed 1 1).tile.g 1).toNat % 2 ^ 16]? = none ∧
    ∀ r c, r < 1 → c < 2 → ({ (armed 0 1).tile with id := ⟨0, 1, 4096⟩ } : Tile).id.vt ≠ (0 + r) * 4096 + (0 + c) := by
  refine ⟨fun x y n => ⟨armed_canIssue x y n, rfl⟩, by decide +kernel, by decide +kernel, by decide +kernel,
    ⟨rfl, fun n => quiet_canIssue _ rfl rfl rfl rfl n⟩, by decide +kernel, fun r c hr hc => ?_⟩
  show (4096 : Nat) ≠ _
  omega

/-! ## Witnesses: what the engine reads, scrubs, copies that fail, translations that are replaced -/

/-- An operation on shingle 3 of the armed tile, outside a truss, as a source before its MJOIN has left MX and after it, and of a member. -/
theorem witness_SourceRows :
    let g := (armed 3 1).tile.geom 1
    let op (k : MxKind) (sh : Option (Fin 64)) : MxOp := ⟨4, k, g, sh, 0, none, none, none⟩
    let queued (t : Tile) (l : List MxOp) : Tile := { t with ops := { t.ops with mx := l } }
    let src (l : List MxOp) : Tile := queued (joined 0).tile l
    let x : Shingle := ⟨.ready, 1024, 16, 0x2000, 0, 0⟩
    ((op .mma (some 3)).sh = some 3 ∧ (armed 3 1).tile.sh 3 = some x ∧ (src []).sh 3 = some x) ∧
    (∀ q ∈ (src [op (.mmat true true 0) (some 3)]).ops.mx, ∀ j, q.kind ≠ .mjoin j) ∧
    (∃ q ∈ (src [op (.mjoin 0) none]).ops.mx, ∃ j, q.kind = .mjoin j) ∧ (op (.mmat true false 0) none).kind = .mmat true false 0 ∧
    (∀ e ∈ (armed 3 1).tile.pad.shadow, e.1 ≤ 4) ∧ g.stride = 0 ∧ g.m = 1 := by
  refine ⟨by decide +kernel, ?_, ⟨_, List.mem_singleton.mpr rfl, 0, rfl⟩, rfl, by decide +kernel, by decide +kernel, by decide +kernel⟩
  intro q hq j
  obtain rfl := List.mem_singleton.mp hq
  exact fun h => by simp at h

/-- A tile of a gang at its site, whose last words are clean or bad; a counter and a word of HBM, clean and bad. -/
theorem witness_Scrubs :
    let s := counting .msg
    let bad : State := { s with
      tile := { s.tile with
        pad := { s.tile.pad with bad := [65535] }, inb := { s.tile.inb with bad := [2303] }, eng := { s.tile.eng with accBad := [8191] } }
      mem := { s.mem with bad := [3] }
      sync := { s.sync with bad := [ctrKey 5 7] } }
    (s.tile.present = true ∧ s.tile.id.gid ≠ 0 ∧ isSite s.tile.pl.phys = true) ∧
    (s.tile.pad.bad = [] ∧ s.tile.inb.bad = [] ∧ s.tile.eng.accBad = [] ∧ s.mem.bad = [] ∧ s.sync.bad = [] ∧ s.tile.eng.upsets = []) ∧
    (524287 / 8 ∈ bad.tile.pad.bad ∧ 18431 / 8 ∈ bad.tile.inb.bad ∧ 65535 / 8 ∈ bad.tile.eng.accBad ∧ bad.mem.bad.contains (31 / 8) = true ∧
      bad.sync.bad.contains (ctrKey 5 7) = true) ∧
    (s.sync.ctrs.find? (fun k => decide (ctrKey k.asid k.id = ctrKey 5 7)) = some ⟨5, 7, 3, 0, false, false, []⟩ ∧ 31 < 48 * 2 ^ 36) := by
  decide +kernel

/-- A copy that fails while it fills shingle 4 and another shingle drains. -/
theorem witness_CopyEvents_fails :
    let c : OutCopy := { copyOf .cpin false with buf := [] }
    let t : Tile := { (moving c).tile with ops := { (moving c).tile.ops with fills := [⟨.copy 0 0 0, 4, 1024, 1024, [(0, 64)]⟩] } }
    (∀ f ∈ t.ops.fills, f.src = .copy t.id.vt c.stamp 0 ∧ f.complete = false ∧ t.sh f.sh = some ⟨.filling, 0, 16, 0x3000, 7, 0⟩ ∧
      ∀ g ∈ t.ops.fills, g.sh = f.sh → g = f) ∧
    (∀ f ∈ t.ops.fills, f.sh ≠ 3) ∧ t.sh 3 = some ⟨.draining, 1024, 16, 0x2000, 0, 7⟩ := by
  decide +kernel

/-- A micro-TLB and a second level that are full of other translations, of which the first is the least recently used; a walk while the clock
is paused. -/
theorem witness_MemoryEvents_full (e : TlbEntry) (h : e ≠ ownedPage) (f : Nat) (l : List TlbEntry) (m : List (Nat × TlbEntry))
    (hl : l = List.replicate 32 e) (hm : m = List.replicate 4096 (f, e)) :
    (l.filter fun x => decide (x ≠ ownedPage)).length ≤ 32 ∧ (m.filter fun x => decide (x.1 = f ∧ x ≠ (f, ownedPage))).length ≤ 4096 ∧
    ¬(l.filter fun x => decide (x ≠ ownedPage)).length < 32 ∧
    ¬(m.filter fun x => decide (x.1 = f ∧ x ≠ (f, ownedPage))).length < 4096 ∧
    (let s := mapped 0 0
     let p : State := { s with tile := { s.tile with ni := { s.tile.ni with misses := [0x10000], paused := true } } }
     p.tile.ni.misses.contains 0x10000 = true ∧ p.tile.ni.paused = true) := by
  subst hl hm
  have a (n : Nat) : (List.replicate n e).filter (fun x => decide (x ≠ ownedPage)) = List.replicate n e :=
    List.filter_eq_self.mpr fun x hx => by rw [List.eq_of_mem_replicate hx]; simpa using h
  have b (n : Nat) : (List.replicate n (f, e)).filter (fun x => decide (x.1 = f ∧ x ≠ (f, ownedPage))) = List.replicate n (f, e) :=
    List.filter_eq_self.mpr fun x hx => by rw [List.eq_of_mem_replicate hx]; simpa using h
  rw [a, b, List.length_replicate, List.length_replicate]
  exact ⟨Nat.le_refl _, Nat.le_refl _, Nat.lt_irrefl _, Nat.lt_irrefl _, rfl, rfl⟩

theorem witness_MemoryEvents_other : reducePage ≠ ownedPage := by decide

/-! ## Witnesses: activations and metadata -/

/-- DONE outside an activation, and of both FINAL and KEEP in one; INRD of a slot whose metadata is uncorrectable, and of one whose metadata is
sound; a register of a slot with CUR. -/
theorem witness_Handlers_traps :
    let calm_ : State := calmWith fun t => { t with ex := { t.ex with inh := false } }
    let bad : State := { receiving with tile := { receiving.tile with inb := { receiving.tile.inb with bad := [2050] } } }
    (∀ n, calm_.tile.canIssue n) ∧ calm_.tile.ex.inh = false ∧ calm_.tile.ex.cw = none ∧ receiving.tile.ex.cw = none ∧
    (∀ n, bad.tile.canIssue n) ∧ bad.tile.current = some ⟨2, 1, .send, false, 0, 0⟩ ∧ bad.tile.inb.bad.contains (2048 + 2) = true ∧
    bad.tile.inb.bad.contains (2048 + 5) = false ∧ (1 : GReg) ≠ 0 ∧ calm.tile.regs.shbase.toNat ≤ 0x1000 % 2 ^ 19 / 4 * 4 := by
  refine ⟨fun n => quiet_canIssue _ rfl rfl rfl rfl n, rfl, rfl, rfl, fun n => quiet_canIssue _ rfl rfl rfl rfl n, ?_⟩
  decide +kernel

/-! ## Witnesses: gangs that are launched, stopped and resumed -/

/-- The counter of a signal may be new where its tables have room. -/
theorem witness_GangControl_room : Roomy (roomyPart (ganged id)) 0 ∧ (roomyPart (ganged id)).sync.bad.contains (ctrKey 0 7) = false :=
  ⟨ganged_roomy id id, rfl⟩

/-- A launch that is to start, with a tile free for its root, and with none. -/
def launching : State :=
  let s := served fun p => { p with queue := [⟨0, toBytes launchRecord 64, 0⟩], gidCursor := 7 }
  { s with svc := { s.svc with pools := [(3, 0)] } }

theorem witness_LaunchEvents_starts :
    let p := launching.part 0
    let gid := nextGid ((launching.liveGangs 0).map fun g => g.gid) 65535 p.gidCursor
    let g (l : Launch) : Gang := launching.newGang 0 gid l imageThree
    (launching.liveGangs 0).length < p.gov.livelim ∧ launching.gang 0 gid = none ∧
    (∀ l ∈ p.queue, p.images.find? (fun i => decide (i.handle = fieldAt l.record 4 2)) = some imageThree ∧
      (∀ x ∈ launching.tiles, x.id ≠ ⟨0, gid, (g l).root⟩) ∧ inGrid (g l).rows (g l).cols (g l).root = true ∧ (g l).part = 0) := by
  decide +kernel

theorem launching_free (h : Config.working 3 = true) (g : Gang) (e : g.part = 0) (vt : Nat) : ∃ x, launching.placeFor g vt = some x := by
  refine placeFor_some launching g vt (List.ne_nil_of_mem (a := 3) ?_)
  rw [e]
  have a : launching.siteFailed 3 = false := rfl
  have p : launching.poolOf 3 = 0 := rfl
  have i : isSite 3 = true := rfl
  refine List.mem_filter.mpr ⟨List.mem_filter.mpr ⟨List.mem_range.mpr (by omega), ?_⟩, by decide +kernel⟩
  simp [State.siteWorks, a, p, i, h]

theorem launching_full (h : ∀ x, Config.working x = false) (g : Gang) (vt : Nat) (e : g.part = 0) :
    launching.placeFor g vt = none := by
  have f : launching.freeTiles 0 = [] := by
    refine List.filter_eq_nil_iff.mpr fun x hx => ?_
    have c := (List.mem_filter.mp hx).2
    simp [State.siteWorks, h] at c
  unfold State.placeFor
  rw [e, f]
  have n (l : List Nat) : l.find? (fun _ => false) = none := List.find?_eq_none.mpr fun _ _ => by simp
  simp [n]

/-- The version that makes the root of a new gang resident: its launch message is still to leave, and nothing waits for the tile. -/
theorem witness_PlacementEvents_launch :
    let l := (changing [] [] id).translators 0 1
    let s : State :=
      let s := ganged fun g => { g with launchSent := false, change := some ⟨[(0, some 5)], [], l, l⟩ }
      roomyPart { s with tile := { s.tile with pl := { s.tile.pl with res := .swappingIn } } }
    OverflowFits s 0 ∧ s.sync.bad = [] ∧ (s.part 0).held = [] ∧ s.tile.pl.res = .swappingIn ∧ s.tile.inb.arrivals = [] ∧ s.tile.inb.overflow = [] ∧
    (∀ x ∈ s.tilesOf 0 1, x.inb.window = []) ∧ (∀ g ∈ s.gangs, g.launchSent = false ∧ s.tile.id = ⟨0, 1, g.root⟩ ∧ g.root = 0 ∧ g.resumeCtrs = []) ∧
    ∀ x ∈ s.translators 0 1, x ∈ l := by
  unfold OverflowFits
  exact ⟨by decide +kernel, rfl, rfl, rfl, rfl, rfl, by decide +kernel, by decide +kernel, fun _ h => h⟩

/-! ## Witnesses: frames, and a master that freezes -/

/-- Free frames for a page of 64 KiB and for one of 32 MiB, wherever the search begins. -/
theorem witness_FramesGiven (n : Nat) (h : n = 1 ∨ n = 512) : n ∣ 2 ^ 20 ∧ ∃ f t, State.reset.takeFrames 0 n = (some f, t) := by
  refine ⟨by obtain rfl | rfl := h <;> decide, ?_⟩
  unfold State.takeFrames
  have g : ∀ c, State.reset.findFrames n (State.reset.mem.frames.length + 51) c = some (c * n) := fun c => by
    have a (x : Nat) : State.reset.stackGone x = false := rfl
    have b (x : Nat) : State.reset.framesFree x n = true := rfl
    show State.reset.findFrames n (50 + 1) c = _
    rw [State.findFrames, a, b]
    rfl
  rw [g]
  exact ⟨_, _, rfl⟩

/-- A read of a port that waits when the port freezes, and none. -/
theorem witness_HostEvents_frozen :
    Serves (hostReading none [] false) 0 ∧ ((hostReading none [] false).port 0).reading ≠ none ∧ (hostReading none [] false).host.ctrl.owner ≠ some 1 ∧
    Serves (hosted true) 0 ∧ ((hosted true).port 0).reading = none := by
  unfold Serves
  decide +kernel

end Sys2Proof.Tests
end

section
/-! SUPPORT. Bytes and the numbers that they make: a number's bytes are those it was made of, and a digit of a number read from memory is
the byte at its address (R4). -/

namespace Sys2Proof.Machine

@[simp] theorem Memory.bytes_length (m : Memory) (a n : Nat) : (Memory.bytes m a n).length = n := by
  induction n generalizing a with
  | zero => rfl
  | succ n ih => simp [Memory.bytes, ih]

theorem Memory.bytes_add (m : Memory) (a j k : Nat) : Memory.bytes m a (j + k) = Memory.bytes m a j ++ Memory.bytes m (a + j) k := by
  induction j generalizing a with
  | zero => simp [Memory.bytes]
  | succ j ih =>
    rw [show j + 1 + k = (j + k) + 1 by omega, Memory.bytes, Memory.bytes, ih, show a + 1 + j = a + (j + 1) by omega]
    rfl

theorem Memory.bytes_getD (m : Memory) {a n k : Nat} (h : k < n) : (Memory.bytes m a n).getD k 0 = Memory.byte m (a + k) := by
  induction n generalizing a k with
  | zero => omega
  | succ n ih =>
    cases k with
    | zero => rfl
    | succ k => rw [Memory.bytes, List.getD_cons_succ, ih (by omega), show a + 1 + k = a + (k + 1) by omega]

theorem ofBytes_lt (l : List Byte) : ofBytes l < 2 ^ (8 * l.length) := by
  induction l with
  | nil => exact Nat.one_pos
  | cons b t ih =>
    have e : 2 ^ (8 * (b :: t).length) = 256 * 2 ^ (8 * t.length) := by
      rw [List.length_cons, show 8 * (t.length + 1) = 8 + 8 * t.length by ring, pow_add]
      norm_num
    have := b.isLt
    simp only [ofBytes]
    omega

/-- The bytes of a number made of bytes are those bytes. -/
theorem toBytes_ofBytes (l : List Byte) : toBytes (ofBytes l) l.length = l := by
  induction l with
  | nil => rfl
  | cons b t ih =>
    have hb := b.isLt
    have low : BitVec.ofNat 8 (b.toNat + 256 * ofBytes t) = b := BitVec.eq_of_toNat_eq (by rw [BitVec.toNat_ofNat]; omega)
    have high : (b.toNat + 256 * ofBytes t) / 256 = ofBytes t := by omega
    rw [List.length_cons, toBytes, ofBytes, low, high, ih]

/-- The word at an address has the four bytes there. -/
theorem toBytes_word (m : Memory) (a : Nat) : toBytes (Memory.word m a).toNat 4 = Memory.bytes m a 4 := by
  have lt := ofBytes_lt (Memory.bytes m a 4)
  rw [Memory.bytes_length] at lt
  have e := toBytes_ofBytes (Memory.bytes m a 4)
  rw [Memory.bytes_length] at e
  rw [Memory.word, Memory.nat, BitVec.toNat_ofNat, Nat.mod_eq_of_lt lt, e]

/-- A digit of a number is its byte. -/
theorem ofBytes_digit (l : List Byte) (k : Nat) : ofBytes l / 2 ^ (8 * k) % 256 = (l.getD k 0).toNat := by
  induction l generalizing k with
  | nil => simp [ofBytes]
  | cons b t ih =>
    have hb := b.isLt
    cases k with
    | zero => simp only [ofBytes, List.getD_cons_zero]; omega
    | succ k =>
      rw [List.getD_cons_succ, ← ih, show 8 * (k + 1) = 8 + 8 * k by ring, pow_add, ← Nat.div_div_eq_div_mul]
      congr 2
      simp only [ofBytes]
      omega

theorem Memory.nat_lt (m : Memory) (a n : Nat) : Memory.nat m a n < 2 ^ (8 * n) := by
  have := ofBytes_lt (Memory.bytes m a n)
  rwa [Memory.bytes_length] at this

theorem Memory.nat_digit (m : Memory) {a n k : Nat} (h : k < n) :
    Memory.nat m a n / 2 ^ (8 * k) % 256 = (Memory.byte m (a + k)).toNat := by
  rw [Memory.nat, ofBytes_digit, Memory.bytes_getD m h]

end Sys2Proof.Machine
end

section
/-! SUPPORT. What stands at issue (R24, R77, R78, R108, R237): the fetch of a word, or of a pair, inside the code segment. -/

namespace Sys2Proof.Machine

theorem wordOf_bytes (w : W32) :
    wordOf (BitVec.ofNat 8 w.toNat) (BitVec.ofNat 8 (w.toNat / 256)) (BitVec.ofNat 8 (w.toNat / 256 / 256))
      (BitVec.ofNat 8 (w.toNat / 256 / 256 / 256)) = w.toNat := by
  have := w.isLt
  simp only [wordOf, BitVec.toNat_ofNat]
  omega

theorem major_eq (w : W32) : fld w.toNat 26 6 = w.toNat / 2 ^ 26 := by
  have := w.isLt
  simp only [fld]
  omega

/-- A word that is no HEAD decodes by itself, whatever follows it. -/
theorem decode_of_not_head {w : W32} (h : w.toNat / 2 ^ 26 ≠ 0x3E) (rest : List Byte) :
    decode (toBytes w.toNat 4 ++ rest) = (decodeWord w.toNat).map fun i => (i, rest) := by
  simp only [toBytes, List.cons_append, List.nil_append, decode, wordOf_bytes, major_eq, if_neg h]

/-- A HEAD without a word after it is no instruction. -/
theorem decode_head_alone {w : W32} (h : w.toNat / 2 ^ 26 = 0x3E) : decode (toBytes w.toNat 4) = .error .short := by
  simp only [toBytes, decode, wordOf_bytes, major_eq, h, if_true]

/-- Only a HEAD is a pair with the word after it. -/
theorem head_of_decode_pair {w v : W32} {i : Instr} (h : decode (toBytes w.toNat 4 ++ toBytes v.toNat 4) = .ok (i, [])) :
    w.toNat / 2 ^ 26 = 0x3E := by
  by_contra hw
  rw [decode_of_not_head hw] at h
  cases hd : decodeWord w.toNat with
  | error e => simp [hd, Except.map] at h
  | ok j => simp [hd, Except.map, toBytes] at h

theorem not_head_of_decode_word {w : W32} {r : Instr × List Byte} (h : decode (toBytes w.toNat 4) = .ok r) : w.toNat / 2 ^ 26 ≠ 0x3E := by
  intro hw
  rw [decode_head_alone hw] at h
  cases h

variable {t : Tile}

/-- A word inside the code segment whose 8-byte word is not marked bad can be fetched (R24, R386). -/
theorem Tile.fetchBad_eq_none {a : Word} (h4 : a.toNat % 4 = 0) (hs : a.toNat < t.regs.shbase.toNat)
    (hb : t.pad.bad.contains (a.toNat / 8) = false) : t.fetchBad a = none := by
  have : ¬(a.toNat % 4 ≠ 0 ∨ a.toNat ≥ t.regs.shbase.toNat) := by omega
  rw [Tile.fetchBad, if_neg this, hb]
  rfl

/-- Where no store has changed a word lately, fetch sees it as it is (R108). -/
theorem Tile.fetchWord_unchanged {draw a : Nat} (ho : ∀ e ∈ t.pad.old, e.1 ≠ a) (hs : ∀ e ∈ t.pad.seen, e.1 ≠ a) :
    t.fetchWord draw a = Memory.word t.pad.bytes a := by
  have o : t.pad.old.find? (fun e => decide (e.1 = a)) = none := List.find?_eq_none.mpr fun e he => by simpa using ho e he
  have s : t.pad.seen.find? (fun e => decide (e.1 = a)) = none := List.find?_eq_none.mpr fun e he => by simpa using hs e he
  rw [Tile.fetchWord, s, o]

/-- Where no store has changed the words at the PC lately, the fetch has no choice to make (R108). -/
theorem Tile.fetchChoice_eq_false (h : ∀ e ∈ t.pad.old, e.1 ≠ t.ex.pc.toNat ∧ e.1 ≠ t.ex.pc.toNat + 4) : t.fetchChoice = false := by
  have : (t.pad.old.any fun e => decide (e.1 = t.ex.pc.toNat ∨ e.1 = t.ex.pc.toNat + 4)) = false := by
    rw [List.any_eq_false]
    intro e he
    obtain ⟨h1, h2⟩ := h e he
    simp [h1, h2]
  rw [Tile.fetchChoice, this, Bool.false_and]

/-- The fetch of one word. -/
theorem Tile.fetch_word {draw : Nat} {i : Instr} {w : W32} (hb : t.fetchBad t.ex.pc = none) (hw : t.fetchWord draw t.ex.pc.toNat = w)
    (hd : decode (toBytes w.toNat 4) = .ok (i, [])) : t.fetch draw = .ok i := by
  subst hw
  simp only [Tile.fetch, hb, if_neg (not_head_of_decode_word hd), hd]

/-- The fetch of a pair. -/
theorem Tile.fetch_pair {draw : Nat} {i : Instr} {w v : W32} (hb : t.fetchBad t.ex.pc = none) (hb' : t.fetchBad (t.ex.pc + 4) = none)
    (hw : t.fetchWord draw t.ex.pc.toNat = w) (hv : t.fetchWord (draw + 1) (t.ex.pc.toNat + 4) = v)
    (hd : decode (toBytes w.toNat 4 ++ toBytes v.toNat 4) = .ok (i, [])) : t.fetch draw = .ok i := by
  subst hw hv
  simp only [Tile.fetch, hb, hb', if_pos (head_of_decode_pair hd), hd]

/-- The bytes at the PC, inside the code segment and unchanged, are exactly one instruction: it is what the fetch gives. -/
theorem Tile.fetch_of_decode {i : Instr} {n : Nat} (draw : Nat) (hn : n = 4 ∨ n = 8) (h4 : t.ex.pc.toNat % 4 = 0)
    (hs : t.ex.pc.toNat + n ≤ t.regs.shbase.toNat) (hb : ∀ k, k < n → t.pad.bad.contains ((t.ex.pc.toNat + k) / 8) = false)
    (ho : ∀ e ∈ t.pad.old, e.1 ≠ t.ex.pc.toNat ∧ e.1 ≠ t.ex.pc.toNat + 4)
    (hv : ∀ e ∈ t.pad.seen, e.1 ≠ t.ex.pc.toNat ∧ e.1 ≠ t.ex.pc.toNat + 4)
    (hd : decode (Memory.bytes t.pad.bytes t.ex.pc.toNat n) = .ok (i, [])) : t.fetch draw = .ok i := by
  have first : t.fetchBad t.ex.pc = none := Tile.fetchBad_eq_none h4 (by omega) (hb 0 (by omega))
  have word := Tile.fetchWord_unchanged (draw := draw) (fun e he => (ho e he).1) fun e he => (hv e he).1
  obtain rfl | rfl := hn
  · rw [← toBytes_word] at hd
    exact Tile.fetch_word first word hd
  · have next : (t.ex.pc + 4).toNat = t.ex.pc.toNat + 4 := by
      have := t.regs.shbase.isLt
      rw [BitVec.toNat_add, show (4 : Word).toNat = 4 from rfl]
      omega
    have second : t.fetchBad (t.ex.pc + 4) = none :=
      Tile.fetchBad_eq_none (by omega) (by omega) (by rw [next]; exact hb 4 (by omega))
    rw [Memory.bytes_add _ _ 4 4, ← toBytes_word, ← toBytes_word] at hd
    exact Tile.fetch_pair first second word (Tile.fetchWord_unchanged (fun e he => (ho e he).2) fun e he => (hv e he).2) hd

/-- A tile at a boundary at which it may issue, with nothing that takes the boundary first, comes to what stands at issue (R237, R253). -/
theorem Tile.plan_issue (draw : Nat) (hc : t.counts = true) (hr : t.mayRun = true) (hi : t.ex.inh = true) (hd : t.ex.idle = false)
    (hp : t.ex.prv = true ∨ t.ex.pends = []) (hs : t.pl.stopDue = false) (ht : t.iss.tail = none) (he : t.iss.ending = false)
    (ha : t.slotAllowed = true) (hb : t.iss.bubble ≤ t.iss.cycle) (hf : t.fetchReady = true) : t.plan draw = .issue (t.fetch draw) := by
  have first : t.trapFirst = false := by
    unfold Tile.trapFirst
    obtain h | h := hp <;> simp [h]
  simp [Tile.plan, hc, hr, hi, hd, hs, ht, he, ha, hf, first, Nat.not_lt.mpr hb]

end Sys2Proof.Machine
end

section
/-! SUPPORT. The step that runs an instruction (R237). -/

open Sys2Proof Sys2Proof.Machine

/-- Settles O55: neither a step change nor a new DUTY is due, the plan of the cycle is what stands at issue, and the fetch, which has no
choice to make, gives the instruction. -/
theorem stepRunsDecoded : Obligations.StepRunsDecoded := by
  intro s s' rest i n t pc hoff hturns hstep hduty hstart hc hr hi hd hp hstop ht he ha hb hf hn h4 hlen hbad hold hseen hdec
  have change : execStepChange { s with turns := rest } = .next { s with turns := rest } := by simp [execStepChange, hstep]
  have duty : execFetchdutyUpdate { s with turns := rest } = .next { s with turns := rest } := by simp [execFetchdutyUpdate, hduty]
  have plan : s'.tile.plan s'.drawn = .issue (.ok i) := by
    rw [Tile.plan_issue s'.drawn hc hr hi hd hp hstop ht he ha hb hf, Tile.fetch_of_decode s'.drawn hn h4 hlen hbad hold hseen hdec]
  have seen : s'.fetched = s' := s'.fetched_of_no_choice (Tile.fetchChoice_eq_false hold)
  have turn : step s = tileTurn { s with turns := rest } := by
    rw [step, hoff, hturns]
    rfl
  rw [turn, tileTurn]
  simp only [change, duty, hstart, Out.andThen, plan, seen, issueFetched]
end

section
/-! SUPPORT. Events count, and nothing else of a tile changes with them (R20, R252). -/

namespace Sys2Proof.Machine

/-- Only the counters PERF0 to PERF7 may differ. -/
def Tile.OnlyPerf (a b : Tile) : Prop := b = { a with regs := { a.regs with perf := b.regs.perf } }

theorem Tile.OnlyPerf.trans {a b c : Tile} (h : a.OnlyPerf b) (k : b.OnlyPerf c) : a.OnlyPerf c := by
  unfold Tile.OnlyPerf at *
  rw [k, h]

theorem Tile.onlyPerf_event (t : Tile) (e n : Nat) : t.OnlyPerf (t.event e n) := rfl

theorem Tile.onlyPerf_eventIf (t : Tile) (b : Bool) (e : Nat) : t.OnlyPerf (t.eventIf b e) := by
  unfold Tile.eventIf
  split <;> rfl

theorem Tile.onlyPerf_loadEvents (t : Tile) (bytes : List Nat) : t.OnlyPerf (t.loadEvents bytes) :=
  (t.onlyPerf_event 30 1).trans (Tile.onlyPerf_eventIf ..)

section
variable {a b : Tile} (h : a.OnlyPerf b)
include h

theorem Tile.OnlyPerf.field {α : Type} (f : Tile → α) : f b = f { a with regs := { a.regs with perf := b.regs.perf } } := congrArg f h

theorem Tile.OnlyPerf.regs : b.regs = { a.regs with perf := b.regs.perf } := h.field Tile.regs
theorem Tile.OnlyPerf.ex : b.ex = a.ex := h.field Tile.ex
theorem Tile.OnlyPerf.pad : b.pad = a.pad := h.field Tile.pad
theorem Tile.OnlyPerf.ops : b.ops = a.ops := h.field Tile.ops
theorem Tile.OnlyPerf.iss : b.iss = a.iss := h.field Tile.iss
theorem Tile.OnlyPerf.ni : b.ni = a.ni := h.field Tile.ni

theorem Tile.OnlyPerf.sameUnits : a.SameUnits b :=
  ⟨h.field Tile.id, h.field Tile.gang, h.field Tile.inb, h.field Tile.eng, h.ni, h.field Tile.pl⟩

theorem Tile.OnlyPerf.samePad : a.SamePad b := ⟨congrArg Scratch.bad h.pad, fun x => by rw [h.pad]⟩

theorem Tile.OnlyPerf.sameRegs : a.SameRegs b [] := by
  have r := h.regs
  refine ⟨fun x _ => ?_, fun x => ?_, fun x => ?_, ?_⟩
  · rw [Tile.g, r]; rfl
  · rw [Tile.v, r]; rfl
  · rw [Tile.m, r]; rfl
  · rw [Tile.SameSpecial, r]

/-- An instruction of n words that counts events and occupies the local memory port keeps everything else (R239). -/
theorem Tile.OnlyPerf.keeps_port_issued (load : Option Nat) (words : List Nat) (cycles n : Nat) (reads : List RegName) :
    a.KeepsBut ((b.usePort load words cycles).issuedWords n reads) [] n ∧
    ((b.usePort load words cycles).issuedWords n reads).iss.writes = a.iss.writes := by
  refine ⟨Tile.keeps_issued reads h.sameUnits h.ops h.samePad h.sameRegs h.ex, ?_⟩
  rw [Tile.issuedWords_iss]
  exact (congrArg Issue.writes h.iss :)

end

end Sys2Proof.Machine
end

section
/-! SUPPORT. Local scalar memory (R22, R23, R105 to R108): the checks of an access, the value of a load, its arrival, and the bytes that a
store leaves. -/

namespace Sys2Proof.Machine

/-- The effective address of format M (R105). -/
theorem memEa_eq (t : Tile) (a : GReg) (z : Fin 8) (off : BitVec 13) :
    memEa t a z off = t.g a + BitVec.ofInt 64 (off.toInt * 2 ^ z.val) := by
  have two : BitVec.ofInt 64 (2 ^ z.val) = BitVec.twoPow 64 z.val := by
    rw [show (2 : Int) ^ z.val = ((2 ^ z.val : Nat) : Int) by push_cast; rfl, BitVec.ofInt_natCast]
    exact BitVec.eq_of_toNat_eq (by rw [BitVec.toNat_ofNat, BitVec.toNat_twoPow])
  rw [memEa, BitVec.ofInt_mul, two, BitVec.shiftLeft_eq_mul_twoPow]
  rfl

/-- A load extends the bytes that it read (R107). -/
theorem extendBytes_eq (signed : Bool) {z : Nat} (hz : z ≤ 3) (x : Nat) :
    extendBytes signed (2 ^ z) x =
      if signed then (BitVec.ofNat (8 * 2 ^ z) x).signExtend 64 else (BitVec.ofNat (8 * 2 ^ z) x).zeroExtend 64 := by
  obtain rfl | rfl | rfl | rfl : z = 0 ∨ z = 1 ∨ z = 2 ∨ z = 3 := by omega
  · rfl
  · rfl
  · rfl
  · cases signed
    · exact (BitVec.setWidth_eq _).symm
    · exact (BitVec.signExtend_eq _).symm

theorem Tile.checkLoad_ok {t : Tile} {ea : Word} {n o : Nat} {w : Window} (ha : ea.toNat % n = 0) (hw : windowOf ea.toNat = some (w, o))
    (hn : w.wide = true → 4 ≤ n) (hg : t.gate true 2 none (w.touch o n) = .ok ()) : t.checkLoad ea n = .ok (w, o) := by
  have wide : (w.wide && decide (n < 4)) = false := by
    rw [Bool.and_eq_false_imp]
    intro h
    simpa using hn h
  simp [Tile.checkLoad, failIf, localWindow, ha, hw, wide, hg, bind, Except.bind]

theorem Tile.gateTraps_of_gate {t : Tile} {load : Bool} {c : Nat} {bytes : List Nat} (h : t.gate load c none bytes = .ok ()) :
    t.gateTraps load c bytes = .ok () := by
  rw [Tile.gateTraps, h]

theorem windowOf_raw {ea : Nat} (h : ea < 0x80000) : windowOf ea = some (.raw, ea) := if_pos h

theorem Tile.checkStore_ok {t : Tile} {ea : Word} {n : Nat} (ha : ea.toNat % n = 0) (hr : ea.toNat < 0x80000)
    (hp : t.ex.prv = true ∨ t.regs.shbase.toNat ≤ ea.toNat) (hg : t.gate false 3 none (upFrom ea.toNat n) = .ok ())
    (hb : n < 8 → t.pad.bad.contains (ea.toNat / 8) = false) : t.checkStore ea n = .ok ea.toNat := by
  have code : (!t.ex.prv && decide (ea.toNat < t.regs.shbase.toNat)) = false := by
    obtain h | h := hp
    · simp [h]
    · simp [Nat.not_lt.mpr h]
  have ecc : (decide (n < 8) && t.pad.bad.contains (ea.toNat / 8)) = false := by
    rw [Bool.and_eq_false_imp]
    intro h
    exact hb (of_decide_eq_true h)
  simp only [Tile.checkStore, failIf, localWindow, windowOf_raw hr, ha, code, ecc, Tile.gateTraps_of_gate hg, hg, bind, Except.bind,
    ne_eq, not_true_eq_false, decide_false, Bool.false_eq_true, if_false]

/-- A local load never arrives before its own latency is over (R34). -/
theorem Tile.le_arrival (t : Tile) (l : Nat) : t.iss.cycle + l - 1 ≤ t.arrival l := by
  rw [Tile.arrival]
  generalize t.iss.cycle + l - 1 = c
  induction t.ops.loads generalizing c with
  | nil => exact Nat.le_refl c
  | cons o l ih =>
    refine Nat.le_trans ?_ (ih _)
    dsimp only
    split
    · exact Nat.le_max_left ..
    · exact Nat.le_refl c

/-- The operation of a local scalar load of n good bytes (R107). -/
def Tile.loadOp (t : Tile) (d : GReg) (ea : Word) (n : Nat) (signed : Bool) (w : Window) (o : Nat) : OutLoad :=
  { stamp := t.ops.stamp, kind := .timed (t.arrival (loadLatency 4 w.wide (readCycles (w.words o n)).1)) true
    elems := [{ reg := .g d, lane := 0, va := ea.toNat, pa := 0, bytes := n, val := some (extendBytes signed n (t.readLocal w o n)) }]
    regs := [.g d], hs := 0, issued := t.iss.cycle, aclass := 2, ecc := none }

/-- The access of a local scalar load is counted and begins, and the load issues (R107, R239). -/
def Tile.beginLoad (t : Tile) (a : GReg) (n : Nat) (w : Window) (o : Nat) : Tile :=
  ((t.loadEvents (w.touch o n)).usePort (some t.ops.stamp) (w.words o n) (readCycles (w.words o n)).1).issued [.g a]

theorem localLoad_of_checks {s : State} {d a : GReg} {z : Fin 8} {off : BitVec 13} {signed : Bool} {w : Window} {o : Nat}
    (h : s.tile.canIssue { regs := [.g d, .g a], reads := [.g a], unit := .localPort, cls := some .ld })
    (hc : s.tile.checkLoad (memEa s.tile a z off) (2 ^ z.val) = .ok (w, o)) (hb : s.tile.badLocal w o (2 ^ z.val) = none) :
    localLoad d a z off signed s = .next (s.upd fun t =>
      (t.beginLoad a (2 ^ z.val) w o).pushLoad (s.tile.loadOp d (memEa s.tile a z off) (2 ^ z.val) signed w o)) := by
  refine issue_of_ok h ?_
  simp only [hc, hb, bind, Except.bind]
  rfl

/-- A load of fixed time that enters class LD changes nothing but the operations outstanding. -/
theorem Tile.pushLoad_timed {a b : Tile} {n arrive : Nat} {i : Bool} {op : OutLoad} (h : a.KeepsBut b [] n) (hk : op.kind = .timed arrive i) :
    a.SameUnits (b.pushLoad op) ∧ a.SamePad (b.pushLoad op) ∧ a.SameRegs (b.pushLoad op) [] ∧ a.NextPc (b.pushLoad op) n ∧
    (b.pushLoad op).iss = b.iss ∧ (b.pushLoad op).ops = { a.ops with stamp := a.ops.stamp + 1, loads := a.ops.loads ++ [op] } := by
  obtain ⟨units, ops, pad, regs, pc⟩ := h
  have e : b.pushLoad op = { b with ops := { b.ops with stamp := b.ops.stamp + 1, loads := b.ops.loads ++ [op] } } := by
    rw [Tile.pushLoad, hk]
  rw [e, ← ops]
  exact ⟨units, pad, regs, pc, rfl, rfl⟩

/-- A local scalar load that its checks let pass, of good bytes, enters class LD (R107). -/
theorem localLoad_next {s : State} {d a : GReg} {z : Fin 8} {off : BitVec 13} {signed : Bool} {w : Window} {o : Nat}
    (h : s.tile.canIssue { regs := [.g d, .g a], reads := [.g a], unit := .localPort, cls := some .ld })
    (hc : s.tile.checkLoad (memEa s.tile a z off) (2 ^ z.val) = .ok (w, o)) (hb : s.tile.badLocal w o (2 ^ z.val) = none) :
    ∃ t op arrive, localLoad d a z off signed s = .next t ∧ SameModule s t ∧ s.tile.SameUnits t.tile ∧ s.tile.SamePad t.tile ∧
      s.tile.SameRegs t.tile [] ∧ s.tile.NextPc t.tile 1 ∧ t.tile.iss.writes = s.tile.iss.writes ∧
      t.tile.ops = { s.tile.ops with stamp := s.tile.ops.stamp + 1, loads := s.tile.ops.loads ++ [op] } ∧
      op.kind = .timed arrive true ∧ s.tile.iss.cycle + 3 ≤ arrive ∧ op.ecc = none ∧ op.regs = [.g d] ∧
      ∃ e, op.elems = [e] ∧ e.reg = .g d ∧ e.val = some (extendBytes signed (2 ^ z.val) (s.tile.readLocal w o (2 ^ z.val))) := by
  obtain ⟨keeps, writes⟩ := (s.tile.onlyPerf_loadEvents (w.touch o (2 ^ z.val))).keeps_port_issued
    (some s.tile.ops.stamp) (w.words o (2 ^ z.val)) (readCycles (w.words o (2 ^ z.val))).1 1 [.g a]
  obtain ⟨units, pad, regs, pc, iss, ops⟩ := Tile.pushLoad_timed (b := s.tile.beginLoad a (2 ^ z.val) w o)
    (op := s.tile.loadOp d (memEa s.tile a z off) (2 ^ z.val) signed w o) keeps rfl
  refine ⟨_, _, _, localLoad_of_checks h hc hb, rfl, units, pad, regs, pc, (congrArg Issue.writes iss).trans writes, ops, rfl, ?_, rfl, rfl, _,
    rfl, rfl, rfl⟩
  refine Nat.le_trans ?_ (s.tile.le_arrival _)
  simp only [loadLatency]
  omega

/-- A byte after a number is stored (R4, R108). -/
theorem Tile.byte_storeRaw (t : Tile) (o v n x : Nat) : Memory.byte (t.storeRaw [(o, toBytes v n)]).pad.bytes x =
    if o ≤ x ∧ x < o + n then BitVec.ofNat 8 (v / 2 ^ (8 * (x - o))) else Memory.byte t.pad.bytes x := by
  have e : (t.storeRaw [(o, toBytes v n)]).pad.bytes = Memory.write t.pad.bytes o (toBytes v n) := rfl
  rw [e, Memory.byte_write, toBytes_length]
  split
  · rw [toBytes_getD (by omega)]
  · rfl

/-- A scalar store that its checks let pass leaves its bytes in the raw scratchpad at once (R108). -/
theorem execSt_next {s : State} {v a : GReg} {z : Fin 8} {off : BitVec 13} {o : Nat}
    (h : s.tile.canIssue { regs := [.g v, .g a], reads := [.g v, .g a], unit := .localPort })
    (hc : s.tile.checkStore (memEa s.tile a z off) (2 ^ z.val) = .ok o) :
    ∃ t, execSt v a z off s = .next t ∧ SameModule s t ∧ s.tile.SameUnits t.tile ∧ t.tile.ops = s.tile.ops ∧ s.tile.SameRegs t.tile [] ∧
      s.tile.NextPc t.tile 1 ∧ t.tile.iss.writes = s.tile.iss.writes ∧ ∀ x, Memory.byte t.tile.pad.bytes x =
        if o ≤ x ∧ x < o + 2 ^ z.val then BitVec.ofNat 8 ((s.tile.g v).toNat / 2 ^ (8 * (x - o))) else Memory.byte s.tile.pad.bytes x := by
  have body : ∀ f : Nat → Except Stop State, (s.tile.checkStore (memEa s.tile a z off) (2 ^ z.val) >>= f) = f o := by
    intro f
    rw [hc]
    rfl
  obtain ⟨⟨units, ops, pad, regs, pc⟩, writes⟩ := (s.tile.onlyPerf_event 33 1).keeps_port_issued none (Window.words .raw o (2 ^ z.val))
    (writeCycles (Window.words .raw o (2 ^ z.val))) 1 [.g v, .g a]
  refine ⟨_, issue_of_ok h (body _), rfl, units, ops, regs, pc, writes, fun x => ?_⟩
  refine (Tile.byte_storeRaw ..).trans ?_
  split
  · rfl
  · exact pad.2 x

/-! ## What a window gives -/

theorem ofBytes_append (l r : List Byte) : ofBytes (l ++ r) = ofBytes l + 2 ^ (8 * l.length) * ofBytes r := by
  induction l with
  | nil => simp [ofBytes]
  | cons b t ih =>
    rw [List.cons_append, ofBytes, ofBytes, ih, List.length_cons, show 8 * (t.length + 1) = 8 + 8 * t.length by ring, pow_add]
    ring

/-- The words that a decode or widen window gives stand one after the other, the lowest element lowest (R23). -/
theorem ofBytes_words (f : Nat → W32) {a n k : Nat} (h : k < n) :
    ofBytes ((upFrom a n).flatMap fun e => toBytes (f e).toNat 4) / 2 ^ (32 * k) % 2 ^ 32 = (f (a + k)).toNat := by
  induction n generalizing a k with
  | zero => omega
  | succ n ih =>
    have lt : (f a).toNat < 2 ^ 32 := (f a).isLt
    rw [upFrom, List.flatMap_cons, ofBytes_append, toBytes_length, ofBytes_toBytes lt]
    cases k with
    | zero => simp only [Nat.mul_zero, pow_zero, Nat.div_one, Nat.add_zero]; omega
    | succ k =>
      rw [show a + (k + 1) = a + 1 + k by omega, ← ih (by omega : k < n), show 32 * (k + 1) = 32 + 32 * k by ring, pow_add,
        ← Nat.div_div_eq_div_mul]
      congr 2
      omega

end Sys2Proof.Machine
end

section
/-! SUPPORT. Scalar loads and stores of local memory, and the windows (R22, R23, R105 to R108). -/

namespace Sys2Proof.Machine

theorem scalarLoads : ScalarLoads := by
  intro s d a z off w o hz ea n ha hw hn hg hb
  have check : s.tile.checkLoad (memEa s.tile a z off) (2 ^ z.val) = .ok (w, o) := by
    rw [memEa_eq]
    exact Tile.checkLoad_ok ha hw hn hg
  refine ⟨fun h => ?_, fun h => ?_⟩
  · have := localLoad_next (signed := true) h check hb
    rwa [extendBytes_eq true hz] at this
  · have := localLoad_next (signed := false) h check hb
    rwa [extendBytes_eq false hz] at this

theorem scalarStore : ScalarStore := by
  intro s v a z off hz ea n ha hr hp hg hb h
  refine execSt_next h ?_
  rw [memEa_eq]
  exact Tile.checkStore_ok ha hr hp hg hb

theorem windows : Windows := by
  intro ea w o
  constructor
  · intro h
    unfold windowOf at h
    split_ifs at h with h0 h1 h2 h3 h4 h5 h6 h7 <;> obtain ⟨rfl, rfl⟩ := Prod.mk.inj (Option.some.inj h)
    · exact ⟨0, 0x0007FFFF, by omega, by omega, rfl, by simp⟩
    · exact ⟨0x01000000, 0x013332FF, h1.1, h1.2, rfl, by simp⟩
    · exact ⟨0x02000000, 0x022491FF, h2.1, h2.2, rfl, by simp⟩
    · exact ⟨0x03000000, 0x031C717F, h3.1, h3.2, rfl, by simp⟩
    · exact ⟨0x04000000, 0x0413B0FF, h4.1, h4.2, rfl, by simp⟩
    · exact ⟨0x05000000, 0x050FFFFF, h5.1, h5.2, rfl, by simp⟩
    · exact ⟨0x06000000, 0x060FFFFF, h6.1, h6.2, rfl, by simp⟩
    · exact ⟨0x08000000, 0x08003FFF, h7.1, h7.2, rfl, by simp⟩
  · rintro ⟨base, last, h1, h2, rfl, mem⟩
    simp only [List.mem_cons, Prod.mk.injEq, List.not_mem_nil, or_false] at mem
    obtain ⟨rfl, rfl, rfl⟩ | ⟨rfl, rfl, rfl⟩ | ⟨rfl, rfl, rfl⟩ | ⟨rfl, rfl, rfl⟩ | ⟨rfl, rfl, rfl⟩ | ⟨rfl, rfl, rfl⟩ | ⟨rfl, rfl, rfl⟩ |
      ⟨rfl, rfl, rfl⟩ := mem
    all_goals
      unfold windowOf
      grind

theorem localReads : LocalReads := by
  intro t o n
  refine ⟨⟨Memory.nat_lt .., fun k hk => Memory.nat_digit _ hk⟩, ⟨Memory.nat_lt .., fun k hk => Memory.nat_digit _ hk⟩, ?_⟩
  intro ho hn k hk
  have hk' : k < (n + 3) / 4 := by omega
  exact ⟨fun f => ofBytes_words (fun e => (Window.blk f).element t.pad.bytes e) hk',
    fun f => ofBytes_words (fun e => (Window.half f).element t.pad.bytes e) hk'⟩

end Sys2Proof.Machine
end

section
/-! SUPPORT. The statement about accesses to local memory. -/

open Sys2Proof Sys2Proof.Machine

/-- Settles O15: the checks of an access let it pass, and what it leaves is that of one load that enters class LD, or of one store. -/
theorem localAccesses : Obligations.LocalAccesses := ⟨scalarLoads, scalarStore, windows, localReads⟩
end

section
/-! SUPPORT. Traps (R17, R35 to R39): what the entry into a trap leaves of the tile and of the module. -/

namespace Sys2Proof.Machine

/-- The entry into a trap, at the tile (R38). -/
theorem Tile.takeTrap_traps (a : Tile) (i : TrapInfo) (tpc : Word) (entry : Nat) :
    a.Traps (a.takeTrap i tpc entry) i.cause i.tval tpc (i.tinfo a.ni.step) entry := by
  have h : Tile.OnlyPerf _ (a.takeTrap i tpc entry) := (Tile.onlyPerf_event ..).trans (Tile.onlyPerf_eventIf ..)
  obtain ⟨id, gang, inb, eng, ni, pl⟩ := h.sameUnits
  obtain ⟨g, v, m, -⟩ := h.sameRegs
  refine ⟨id, gang, inb, eng, pl, h.ops, ni, h.samePad, g, v, m, ?_, h.ex, (congrArg Issue.writes h.iss :),
    (congrArg Issue.bubble h.iss :)⟩
  rw [h.regs]
  cases a.ex.prv <;> rfl

theorem State.withdrawCw_of_none {s : State} (h : s.tile.ex.cw = none) : s.withdrawCw = s := by
  rw [State.withdrawCw, h]

/-- TINFO with the branch fields as branchInfo gives them (R17, R36). -/
theorem TrapInfo.tinfo_eq (i : TrapInfo) (step : Fin 4) : i.tinfo step = BitVec.ofNat 64 (branchInfo i.brt +
    (if i.apend then 2 ^ 17 else 0) + step.val * 2 ^ 14 + i.aclass % 16 * 2 ^ 8 + match i.lane with | some l => 128 + l.val | none => 0) := by
  rw [TrapInfo.tinfo]
  cases i.brt <;> rfl

/-- A trap in place of issue, of a tile that holds at no CWAIT, for a cause that is not THROTTLE (R37, R38): it records no branch. -/
theorem State.trapHere_taken {s : State} {i : TrapInfo} (hw : s.tile.ex.cw = none) (hc : i.cause ≠ 0x0A)
    (hb : ¬(i.aclass = 1 ∨ i.cause = 0x02)) :
    TrapTaken s (s.trapHere i) i.cause i.tval s.tile.ex.pc (i.tinfo s.tile.ni.step) s.tile.iss.cycle := by
  rw [State.trapHere, State.withdrawCw_of_none hw, if_neg hb, if_neg hc]
  exact ⟨rfl, s.tile.takeTrap_traps i s.tile.ex.pc s.tile.iss.cycle⟩

/-- A trap of a fetch or of a TAIL records the branch that led there (R36). -/
theorem State.trapHere_taken_branch {s : State} {i : TrapInfo} (hw : s.tile.ex.cw = none) (hc : i.cause ≠ 0x0A)
    (hb : i.aclass = 1 ∨ i.cause = 0x02) :
    TrapTaken s (s.trapHere i) i.cause i.tval s.tile.ex.pc (({ i with brt := s.tile.ex.branch } : TrapInfo).tinfo s.tile.ni.step)
      s.tile.iss.cycle := by
  rw [State.trapHere, State.withdrawCw_of_none hw, if_pos hb, if_neg hc]
  exact ⟨rfl, s.tile.takeTrap_traps { i with brt := s.tile.ex.branch } s.tile.ex.pc s.tile.iss.cycle⟩

/-- One more fetch has passed; the trap stays as it was taken (R108). -/
theorem TrapTaken.fetchPassed {s u : State} {c e : Nat} {tval tpc tinfo : Word} (h : TrapTaken s u c tval tpc tinfo e) :
    TrapTaken s (u.upd Tile.fetchPassed) c tval tpc tinfo e := by
  obtain ⟨mod, traps⟩ := h
  refine ⟨?_, traps⟩
  rw [SameModule] at mod ⊢
  rw [mod]
  rfl

end Sys2Proof.Machine
end

section
/-! SUPPORT. The events that trap at a boundary (R24, R36 to R39, R78): asynchronous traps, words that are no instruction, and fetches that
fail. -/

namespace Sys2Proof.Machine

/-- The oldest pending trap is taken at a boundary at U (R39). -/
theorem asynchronousTrap_taken {s : State} {p : PendTrap} {rest : List PendTrap} (hp : s.tile.ex.pends = p :: rest)
    (hr : s.tile.mayRun = true) (hn : s.tile.ni.paused = false) (hi : s.tile.ex.inh = true) (hu : s.tile.ex.prv = false)
    (ht : s.tile.iss.tail = none) (he : s.tile.iss.ending = false) (hw : s.tile.ex.cw = none) (h1 : p.aclass ≠ 1) (h2 : p.cause ≠ 0x02)
    (ha : p.cause ≠ 0x0A) :
    ∃ u, exec .asynchronousTrap s = .next u ∧
      TrapTaken { s with tile := { s.tile with ex := { s.tile.ex with pends := rest } } } u p.cause p.val s.tile.ex.pc
        (BitVec.ofNat 64 ((if p.apend = true ∨ rest ≠ [] then 2 ^ 17 else 0) + s.tile.ni.step.val * 2 ^ 14 + p.aclass % 16 * 2 ^ 8 +
          (match p.lane with | some l => 128 + l.val | none => 0))) s.tile.iss.cycle := by
  let i : TrapInfo := { cause := p.cause, tval := p.val, aclass := p.aclass, lane := p.lane, apend := p.apend || !rest.isEmpty }
  have first : s.tile.trapFirst = true := by simp [Tile.trapFirst, hi, hu, hp]
  have passed : s.tile.cwaitPassed = s.tile := by simp [Tile.cwaitPassed, hw]
  have pending : s.takePending = State.trapHere { s with tile := { s.tile with ex := { s.tile.ex with pends := rest } } } i := by
    rw [State.takePending]
    simp only [hp, first, if_true, State.upd, passed]
    rfl
  have step : exec .asynchronousTrap s = .next s.takePending := by
    show execAsynchronousTrap s = _
    simp [execAsynchronousTrap, hr, hn, ht, he]
  refine ⟨_, step, ?_⟩
  have taken := State.trapHere_taken (s := { s with tile := { s.tile with ex := { s.tile.ex with pends := rest } } }) (i := i) hw ha
    (by simp [i, h1, h2])
  rw [TrapInfo.tinfo_eq] at taken
  have more : (i.apend = true) = (p.apend = true ∨ rest ≠ []) := by simp [i]
  rw [pending]
  simpa only [more, branchInfo, i, Nat.zero_add] using taken

section
variable {s : State} (h : s.tile.atIssue = true)
include h

theorem unassignedEncoding_step {w : W32} {second : Option W32} (hf : s.tile.fetch s.drawn = .unassigned w second) :
    exec (.unassignedEncoding w second) s = .next ((s.trapHere
      { cause := if w.toNat / 2 ^ 26 = 0x3F then 0x02 else 0x01, tval := w64 (w.toNat + (second.getD 0).toNat * 2 ^ 32) }).upd
        Tile.fetchPassed) := by
  show execUnassignedEncoding w second s = _
  simp only [execUnassignedEncoding, h, hf, Bool.true_and, decide_true, if_true]

/-- A word that is no instruction traps ILLEGAL (R7, R78). -/
theorem unassignedEncoding_illegal {w : W32} {second : Option W32} (hf : s.tile.fetch s.drawn = .unassigned w second)
    (hw : s.tile.ex.cw = none) (hm : w.toNat / 2 ^ 26 ≠ 0x3F) :
    ∃ u, exec (.unassignedEncoding w second) s = .next u ∧ TrapTaken s u 0x01
      (BitVec.ofNat 64 (w.toNat + (second.getD 0).toNat * 2 ^ 32)) s.tile.ex.pc (BitVec.ofNat 64 (s.tile.ni.step.val * 2 ^ 14))
      s.tile.iss.cycle := by
  refine ⟨_, unassignedEncoding_step h hf, ?_⟩
  rw [if_neg hm]
  have taken := (State.trapHere_taken (i := { cause := 0x01, tval := w64 (w.toNat + (second.getD 0).toNat * 2 ^ 32) }) hw (by simp)
    (by simp)).fetchPassed
  rw [TrapInfo.tinfo_eq] at taken
  simpa [branchInfo, w64] using taken

/-- A TAIL that is reached alone traps ILLEGAL_TAIL (R36, R78). -/
theorem unassignedEncoding_illegalTail {w : W32} {second : Option W32} (hf : s.tile.fetch s.drawn = .unassigned w second)
    (hw : s.tile.ex.cw = none) (hm : w.toNat / 2 ^ 26 = 0x3F) :
    ∃ u, exec (.unassignedEncoding w second) s = .next u ∧ TrapTaken s u 0x02
      (BitVec.ofNat 64 (w.toNat + (second.getD 0).toNat * 2 ^ 32)) s.tile.ex.pc
      (BitVec.ofNat 64 (branchInfo s.tile.ex.branch + s.tile.ni.step.val * 2 ^ 14)) s.tile.iss.cycle := by
  refine ⟨_, unassignedEncoding_step h hf, ?_⟩
  rw [if_pos hm]
  have taken := (State.trapHere_taken_branch (i := { cause := 0x02, tval := w64 (w.toNat + (second.getD 0).toNat * 2 ^ 32) }) hw (by simp)
    (by simp)).fetchPassed
  rw [TrapInfo.tinfo_eq] at taken
  simpa [w64] using taken

/-- A word outside the code segment traps FETCH (R24, R36). -/
theorem fetchFault_taken {a : Word} (hf : s.tile.fetch s.drawn = .fault a false) (ht : s.tile.ex.tvecFetch = false)
    (hw : s.tile.ex.cw = none) :
    ∃ u, exec (.fetchFault a false) s = .next u ∧ TrapTaken s u 0x05 a s.tile.ex.pc
      (BitVec.ofNat 64 (branchInfo s.tile.ex.branch + s.tile.ni.step.val * 2 ^ 14 + 2 ^ 8)) s.tile.iss.cycle := by
  let i : TrapInfo := { cause := 0x05, tval := a, aclass := 1 }
  have step : exec (.fetchFault a false) s = .next ((s.trapHere i).upd Tile.fetchPassed) := by
    show execFetchFault a false s = _
    simp [execFetchFault, h, hf, ht, State.tileUncIf, i]
  refine ⟨_, step, ?_⟩
  have taken := (State.trapHere_taken_branch (i := i) hw (by simp [i]) (Or.inl rfl)).fetchPassed
  rw [TrapInfo.tinfo_eq] at taken
  simpa [i] using taken

end

theorem Tile.freeSlot_regs (t : Tile) (x : Slot) : (t.freeSlot x).regs = t.regs := by
  rw [Tile.freeSlot]
  split <;> rfl

theorem Tile.freeCurrent_regs (t : Tile) : t.freeCurrent.regs = t.regs := by
  rw [Tile.freeCurrent]
  split
  · exact t.freeSlot_regs _
  · rfl

/-- A fetch that fails first at TVEC ends the activation, and the virtual tile finishes with the cause (R38). -/
theorem fetchFault_finishes {s : State} {a : Word} (h : s.tile.atIssue = true) (hf : s.tile.fetch s.drawn = .fault a false)
    (ht : s.tile.ex.tvecFetch = true) :
    ∃ u, exec (.fetchFault a false) s = .next u ∧ SameModule s u ∧ u.tile.ex.inh = false ∧ u.tile.ex.curSlot = none ∧
      u.tile.pl.finished = true ∧ u.tile.pl.status = 5 ∧ u.tile.regs = s.tile.regs := by
  have step : exec (.fetchFault a false) s = .next (s.upd fun t =>
      ({ t.freeCurrent with iss := { t.freeCurrent.iss with stall := some 3 } } : Tile).endActivation (some 5) s.fab.time) := by
    show execFetchFault a false s = _
    simp [execFetchFault, h, hf, ht, State.tileUncIf]
  exact ⟨_, step, rfl, rfl, rfl, Bool.or_true _, rfl, s.tile.freeCurrent_regs⟩

end Sys2Proof.Machine
end

section
/-! SUPPORT. Results at the end of a cycle (R238): a write of a register changes the registers alone, and an MTS follows the field rules
of its register (R6, R7, R15 to R21). -/

namespace Sys2Proof.Machine

/-- Only the register files and the state registers may differ. -/
def Tile.OnlyRegs (a b : Tile) : Prop := b = { a with regs := b.regs }

theorem Tile.onlyRegs_setG (t : Tile) (r : GReg) (x : Word) : t.OnlyRegs (t.setG r x) := by
  unfold Tile.setG
  split <;> rfl

theorem Tile.onlyRegs_setM (t : Tile) (r : MReg) (x : Mask) : t.OnlyRegs (t.setM r x) := by
  unfold Tile.setM
  split <;> rfl

theorem Tile.onlyRegs_writeReg (t : Tile) (x : Nat) (a : Word) : t.OnlyRegs (t.writeReg x a) := by
  simp only [Tile.writeReg]
  repeat' split
  all_goals rfl

theorem Tile.onlyRegs_applyWrite (t : Tile) (w : PendWrite) : t.OnlyRegs (t.applyWrite w) := by
  obtain ⟨due, write, flags⟩ := w
  have add {u : Tile} (h : t.OnlyRegs u) (f : BitVec 5) : t.OnlyRegs { u with regs := { u.regs with fflags := u.regs.fflags ||| f } } := by
    unfold Tile.OnlyRegs at h ⊢
    rw [h]
  cases write with
  | g r x => exact add (t.onlyRegs_setG r x) _
  | v r l x => exact add (u := t.setV r l x) rfl _
  | m r x => exact add (t.onlyRegs_setM r x) _
  | sr x a => exact add (t.onlyRegs_writeReg x a) _

/-! ## What each kind of result writes -/

theorem Tile.setM_regs (t : Tile) (d : MReg) (x : Mask) : (t.setM d x).regs = { t.regs with m := (t.setM d x).regs.m } := by
  unfold Tile.setM
  split <;> rfl

theorem Tile.applyWrite_scalar (t : Tile) (u : Nat) (f : Option (BitVec 5)) (d : GReg) (x : Word) :
    (t.applyWrite ⟨u, .g d x, f⟩).Has d x ∧ t.SameG (t.applyWrite ⟨u, .g d x, f⟩) [d] ∧ t.SameV (t.applyWrite ⟨u, .g d x, f⟩) ∧
    t.SameM (t.applyWrite ⟨u, .g d x, f⟩) := by
  obtain ⟨g, v, m, -⟩ := t.sameRegs_setG d x
  exact ⟨t.g_setG_same d x, g, v, m⟩

theorem Tile.applyWrite_vector (t : Tile) (u : Nat) (f : Option (BitVec 5)) (d : VReg) (l : Mask) (x : VVal) :
    t.SameG (t.applyWrite ⟨u, .v d l x, f⟩) [] ∧ t.SameM (t.applyWrite ⟨u, .v d l x, f⟩) ∧ ∀ r i,
      ((t.applyWrite ⟨u, .v d l x, f⟩).v r).get i = if r = d ∧ l.getLsbD i.val = true then x.get i else (t.v r).get i :=
  ⟨fun _ _ => rfl, fun _ => rfl, fun r i => t.v_setV d r l x i⟩

theorem Tile.applyWrite_mask (t : Tile) (u : Nat) (f : Option (BitVec 5)) (d : MReg) (x : Mask) :
    t.SameG (t.applyWrite ⟨u, .m d x, f⟩) [] ∧ t.SameV (t.applyWrite ⟨u, .m d x, f⟩) ∧ ∀ r,
      (t.applyWrite ⟨u, .m d x, f⟩).m r = if r = d ∧ d ≠ 0 then x else t.m r := by
  have r := t.setM_regs d x
  refine ⟨fun k _ => ?_, fun k => ?_, fun k => t.m_setM d k x⟩
  · show (t.setM d x).g k = _
    rw [Tile.g, r]
    rfl
  · show (t.setM d x).v k = _
    rw [Tile.v, r]
    rfl

/-- A result that is no MTS writes register files and FFLAGS, and no other register (R240). -/
theorem Tile.applyWrite_regs (t : Tile) (w : PendWrite) (h : ∀ x a, w.write ≠ .sr x a) : (t.applyWrite w).regs =
    { t.regs with g := (t.applyWrite w).regs.g, v := (t.applyWrite w).regs.v, m := (t.applyWrite w).regs.m
                  fflags := t.regs.fflags ||| w.flags.getD 0 } := by
  obtain ⟨due, write, flags⟩ := w
  have add {u : Tile} (e : u.regs = { t.regs with g := u.regs.g, v := u.regs.v, m := u.regs.m }) (f : BitVec 5) :
      ({ u.regs with fflags := u.regs.fflags ||| f } : Regs) =
        { t.regs with g := u.regs.g, v := u.regs.v, m := u.regs.m, fflags := t.regs.fflags ||| f } := by
    rw [e]
  cases write with
  | g r x => exact add (u := t.setG r x) (by rw [t.setG_regs r x]) _
  | v r l x => exact add (u := t.setV r l x) rfl _
  | m r x => exact add (u := t.setM r x) (by rw [t.setM_regs r x]) _
  | sr x a => exact absurd rfl (h x a)

/-- The effect of an MTS, which sets no flag of its own. -/
theorem Tile.applyWrite_sr (t : Tile) (u x : Nat) (a : Word) : (t.applyWrite ⟨u, .sr x a, none⟩).regs = (t.writeReg x a).regs := by
  show ({ (t.writeReg x a).regs with fflags := (t.writeReg x a).regs.fflags ||| 0#5 } : Regs) = _
  rw [BitVec.or_zero]

/-! ## The field rules of MTS -/

/-- The bits from k upward, n of them, in their places. -/
theorem and_bits (x n k : Nat) : x &&& (2 ^ n - 1) * 2 ^ k = x % 2 ^ (n + k) / 2 ^ k * 2 ^ k := by
  refine Nat.eq_of_testBit_eq fun i => ?_
  rw [Nat.testBit_and, Nat.testBit_mul_two_pow, Nat.testBit_mul_two_pow, Nat.testBit_div_two_pow, Nat.testBit_mod_two_pow,
    Nat.testBit_two_pow_sub_one]
  by_cases h : k ≤ i
  · rw [Nat.sub_add_cancel h]
    by_cases h' : i < n + k
    · simp [h, h', show i - k < n by omega]
    · simp [h', show ¬i - k < n by omega]
  · simp [h]

/-- TVEC holds a multiple of 4 (R15). -/
theorem tvecField (a : Word) : ((a.truncate 19 : BitVec 19) &&& 0x7FFFC).toNat = a.toNat % 2 ^ 19 / 4 * 4 := by
  have e := and_bits (a.toNat % 2 ^ 19) 17 2
  rw [Nat.mod_mod] at e
  rw [BitVec.toNat_and, BitVec.toNat_setWidth]
  exact e

/-- SHBASE holds a multiple of 64 (R21). -/
theorem shbaseField (a : Word) : ((a.truncate 19 : BitVec 19) &&& 0x7FFC0).toNat = a.toNat % 2 ^ 19 / 64 * 64 := by
  have e := and_bits (a.toNat % 2 ^ 19) 13 6
  rw [Nat.mod_mod] at e
  rw [BitVec.toNat_and, BitVec.toNat_setWidth]
  exact e

theorem and_low (a : Word) (n : Nat) : a.toNat &&& (2 ^ n - 1) = a.toNat % 2 ^ n := Nat.and_two_pow_sub_one_eq_mod ..

theorem tcauseField (a : Word) : a &&& 0xFF = BitVec.ofNat 64 (a.toNat % 256) := by
  refine BitVec.eq_of_toNat_eq ?_
  have lt := a.isLt
  rw [BitVec.toNat_and, BitVec.toNat_ofNat, show (0xFF : Word).toNat = 2 ^ 8 - 1 from rfl, and_low]
  omega

/-- The bits of TINFO that are not reserved (R17). -/
theorem tinfoMask_bit : ∀ k < 64, tinfoMask.getLsbD k = decide (k ≤ 5 ∨ 7 ≤ k ∧ k ≤ 11 ∨ 14 ≤ k ∧ k ≤ 17 ∨ 32 ≤ k ∧ k ≤ 50) := by decide

theorem aclassMask_bit : ∀ k < 64, (0xF00 : Word).getLsbD k = decide (8 ≤ k ∧ k ≤ 11) := by decide

/-- A write of TINFO, bit by bit (R7, R8, R17). -/
theorem tinfoWrite_bit (prev a : Word) {k : Nat} (hk : k < 64) : (tinfoWrite prev a).getLsbD k =
    if 8 ≤ k ∧ k ≤ 11 ∧ 10 < a.toNat / 2 ^ 8 % 16 then prev.getLsbD k
    else (a.getLsbD k && decide (k ≤ 5 ∨ 7 ≤ k ∧ k ≤ 11 ∨ 14 ≤ k ∧ k ≤ 17 ∨ 32 ≤ k ∧ k ≤ 50)) := by
  have listed : bitsOf a.toNat 11 8 = a.toNat / 2 ^ 8 % 16 := rfl
  rw [tinfoWrite, listed]
  by_cases hc : a.toNat / 2 ^ 8 % 16 ≤ 10
  · rw [if_pos hc, if_neg (by omega), BitVec.getLsbD_and, tinfoMask_bit k hk]
  · rw [if_neg hc, BitVec.getLsbD_or, BitVec.getLsbD_and, BitVec.getLsbD_and, BitVec.getLsbD_and, BitVec.getLsbD_not, tinfoMask_bit k hk,
      aclassMask_bit k hk]
    by_cases hf : 8 ≤ k ∧ k ≤ 11
    · rw [if_pos ⟨hf.1, hf.2, by omega⟩]
      simp [hf]
    · rw [if_neg fun h => hf ⟨h.1, h.2.1⟩]
      simp [hf, hk]

/-- A write of TSTAT (R17, R40): of the saved privilege, 2 and 3 leave it as it was. -/
theorem tstatWrite (prev a : Word) : (a &&& 4) ||| (if a.getLsbD 1 then prev &&& 3 else a &&& 1) =
    BitVec.ofNat 64 (a.toNat / 4 % 2 * 4 + if a.toNat % 4 < 2 then a.toNat % 4 else prev.toNat % 4) := by
  have bit : a.getLsbD 1 = decide (¬a.toNat % 4 < 2) := by
    rw [← BitVec.testBit_toNat, Nat.testBit_eq_decide_div_mod_eq, decide_eq_decide]
    omega
  have nest : a.toNat &&& 4 = 2 ^ 2 * (a.toNat / 4 % 2) := by
    have e := and_bits a.toNat 1 2
    norm_num at e
    omega
  have low : (if a.getLsbD 1 then prev &&& 3 else a &&& 1 : Word).toNat = if a.toNat % 4 < 2 then a.toNat % 4 else prev.toNat % 4 := by
    rw [bit]
    by_cases h : a.toNat % 4 < 2
    · have e := and_low a 1
      norm_num at e
      simp [h]
      omega
    · have e := and_low prev 2
      norm_num at e
      simp [h, e]
  have lt : (if a.toNat % 4 < 2 then a.toNat % 4 else prev.toNat % 4) < 2 ^ 2 := by split <;> omega
  refine BitVec.eq_of_toNat_eq ?_
  rw [BitVec.toNat_or, BitVec.toNat_and, low, show (4 : Word).toNat = 4 from rfl, nest, ← Nat.two_pow_add_eq_or_of_lt lt, BitVec.toNat_ofNat]
  omega

theorem Tile.writeReg_tvec (t : Tile) (a : Word) : (t.writeReg 0x005 a).regs =
    if t.regs.shbase.toNat ≤ a.toNat % 2 ^ 19 / 4 * 4 then t.regs else { t.regs with tvec := a.truncate 19 &&& 0x7FFFC } := by
  rw [← tvecField]
  exact apply_ite Tile.regs ..

theorem Tile.mem_shingleList (t : Tile) (n : Fin 64) (y : Shingle) : (n, y) ∈ t.shingleList ↔ t.sh n = some y := by
  simp [Tile.shingleList]

theorem Tile.writeReg_shbase (t : Tile) (a : Word) : (t.writeReg 0x041 a).regs =
    if (∃ n y, t.sh n = some y ∧ y.base < a.toNat % 2 ^ 19 / 64 * 64) ∨ a.toNat % 2 ^ 19 / 64 * 64 ≤ t.regs.tvec.toNat then t.regs
    else { t.regs with shbase := a.truncate 19 &&& 0x7FFC0 } := by
  have shingle (v : Nat) : ((t.shingleList.any fun p => decide (v > p.2.base)) = true) = ∃ n y, t.sh n = some y ∧ y.base < v := by
    simp [t.mem_shingleList]
  rw [← shbaseField]
  refine (apply_ite Tile.regs ..).trans (ite_congr ?_ (fun _ => rfl) fun _ => rfl)
  rw [Bool.or_eq_true, decide_eq_true_eq, shingle]

/-- What an MTS leaves of the state registers (R6, R7, R15 to R21). -/
theorem Tile.writeReg_mtsWrites (t : Tile) (x : Nat) (a : Word) : MtsWrites t x a (t.writeReg x a).regs := by
  refine ⟨?tvec, ?tpc, ?tcause, ?tval, ?tinfo, ?tstat, ?fmode, ?fflags, ?vl, ?psel, ?perf, ?mstat, ?shbase⟩
  case tpc | tval | psel | mstat =>
    rintro rfl
    rfl
  case tvec =>
    rintro rfl
    rw [t.writeReg_tvec]
    split
    · next h => exact ⟨rfl, (if_pos h).symm⟩
    · next h => exact ⟨rfl, (tvecField a).trans (if_neg h).symm⟩
  case tcause =>
    rintro rfl
    rw [← tcauseField]
    exact apply_ite Tile.regs ..
  case tinfo =>
    rintro rfl
    exact ⟨rfl, fun k hk => tinfoWrite_bit t.regs.trap.tinfo a hk⟩
  case tstat =>
    rintro rfl
    rw [← tstatWrite]
    rfl
  case fmode =>
    rintro rfl
    by_cases h : a.toNat % 8 < 5
    · have e : t.writeReg 0x010 a = { t with regs := { t.regs with fmode := ⟨a.toNat % 8, h⟩ } } := dif_pos h
      rw [e, if_pos h]
      exact ⟨rfl, rfl⟩
    · have e : t.writeReg 0x010 a = t := dif_neg h
      rw [e, if_neg h]
      exact ⟨rfl, rfl⟩
  case fflags =>
    rintro rfl
    rfl
  case vl =>
    rintro rfl
    exact ⟨rfl, rfl⟩
  case perf =>
    rintro k rfl
    have e : t.writeReg (0x031 + k.val) a = { t with regs := { t.regs with perf := t.regs.perf.set k.val a k.isLt } } := by
      fin_cases k <;> rfl
    rw [e]
    exact ⟨rfl, fun j => vget_set t.regs.perf k j a⟩
  case shbase =>
    rintro rfl
    rw [t.writeReg_shbase]
    split
    · next h =>
      refine ⟨rfl, fun _ => rfl, fun above below => ?_⟩
      obtain ⟨n, y, hy, lt⟩ | le := h
      · have := above n y hy
        omega
      · omega
    · next h => exact ⟨rfl, fun h' => absurd h' h, fun _ _ => shbaseField a⟩

/-- A result that is due is written, and leaves the list of those to come (R238). -/
theorem registerToRegisterWrite_next {s : State} {n : Nat} {w : PendWrite} (hn : s.tile.iss.writes[n]? = some w)
    (he : s.tile.iss.ending = true) (hd : w.due ≤ s.tile.iss.cycle) : exec (.registerToRegisterWrite n) s =
      .next (s.upd fun t => ({ t with iss := { t.iss with writes := dropNth t.iss.writes n } } : Tile).applyWrite w) := by
  show execRegisterToRegisterWrite n s = _
  simp [execRegisterToRegisterWrite, hn, he, hd]

end Sys2Proof.Machine
end

section
/-! SUPPORT. The count of a cycle (R251 to R253), and what the NI and the sources of messages send in it: packets leave, and of the tile
nothing but the list of requests that its NI still holds may change (R198, R305). -/

namespace Sys2Proof.Machine

/-- What every step of a fold keeps, the fold keeps. -/
theorem foldl_rel {α β : Type} {r : β → β → Prop} (refl : ∀ s, r s s) (trans : ∀ {a b c}, r a b → r b c → r a c) {f : β → α → β}
    (step : ∀ s x, r s (f s x)) (l : List α) (s : β) : r s (l.foldl f s) := by
  induction l generalizing s with
  | nil => exact refl s
  | cons x l ih => exact trans (step s x) (ih (f s x))

/-- The current tile may have other requests held at its NI, and nothing else of it differs. -/
def TileSends (s t : State) : Prop :=
  t.tile = { s.tile with ops := { s.tile.ops with kept := t.tile.ops.kept } }

theorem TileSends.refl (s : State) : TileSends s s := rfl

theorem TileSends.trans {a b c : State} (h : TileSends a b) (k : TileSends b c) : TileSends a c := by
  unfold TileSends at *
  rw [k, h]

theorem TileSends.foldl {α : Type} {f : State → α → State} (step : ∀ s x, TileSends s (f s x)) (l : List α) (s : State) :
    TileSends s (l.foldl f s) := foldl_rel TileSends.refl TileSends.trans step l s

theorem tileSends_sendReq (s : State) (stamp site : Nat) : TileSends s (s.sendReq stamp site) := by
  unfold State.sendReq
  split
  · refine TileSends.foldl (fun s k => ?_) _ s
    rfl
  · rfl

theorem tileSends_injectReqs (s : State) (stamp : Nat) (sites : List Nat) : TileSends s (s.injectReqs stamp sites) := by
  refine TileSends.foldl (fun s d => ?_) sites s
  split
  · rfl
  · exact tileSends_sendReq s stamp d

theorem tileSends_sendKept (s : State) : TileSends s s.sendKept := by
  refine TileSends.trans (b := s.upd fun t => { t with ops := { t.ops with kept := [] } }) rfl ?_
  refine TileSends.foldl (fun s k => ?_) _ _
  exact tileSends_injectReqs s k.1 [k.2]

theorem tileSends_sendNow (s : State) (m : Msg) : TileSends s (s.sendNow m) := by
  simp only [State.sendNow]
  split <;> rfl

theorem tileSends_sendReady (s : State) (p : Msg → Bool) : TileSends s (s.sendReady p) := by
  refine TileSends.foldl (fun s m => ?_) _ s
  split
  · rfl
  · exact tileSends_sendNow s m

/-! ## The events of a cycle -/

/-- The event that PSEL selects for a counter (R20). -/
def Regs.selected (r : Regs) (k : Fin 8) : Nat := r.psel.toNat / 2 ^ (8 * k.val) % 256

/-- A counter that selects an event counts it, in a counted cycle; any other stays (R20, R251). -/
theorem Tile.event_perf (t : Tile) (e n : Nat) (k : Fin 8) : (t.event e n).regs.perf.get k =
    if t.counts = true ∧ t.regs.selected k = e then t.regs.perf.get k + BitVec.ofNat 64 n else t.regs.perf.get k := by
  fin_cases k <;> rfl

/-- Only counters differ, and none of those that count cycles. -/
def Tile.SparesCycles (a b : Tile) : Prop :=
  a.OnlyPerf b ∧ ∀ k, a.regs.selected k = 0 → b.regs.perf.get k = a.regs.perf.get k

theorem Tile.OnlyPerf.selected {a b : Tile} (h : a.OnlyPerf b) (k : Fin 8) : b.regs.selected k = a.regs.selected k := by
  rw [h.regs]
  rfl

theorem Tile.SparesCycles.trans {a b c : Tile} (h : a.SparesCycles b) (k : b.SparesCycles c) : a.SparesCycles c :=
  ⟨h.1.trans k.1, fun j hj => (k.2 j ((h.1.selected j).trans hj)).trans (h.2 j hj)⟩

/-- An event other than that of the cycle itself. -/
theorem Tile.sparesCycles_eventIf (t : Tile) (b : Bool) (e : Nat) (he : e ≠ 0) : t.SparesCycles (t.eventIf b e) := by
  refine ⟨t.onlyPerf_eventIf b e, fun k hk => ?_⟩
  unfold Tile.eventIf
  split
  · rw [Tile.event_perf, if_neg fun c => he (c.2.symm.trans hk)]
  · rfl

/-- The events of a cycle but for that of the cycle itself and its stall (R252). -/
def Tile.levelEvents (t : Tile) : Tile :=
  (((((t.eventIf t.mxBusy 36).eventIf t.mxStarves 38).eventIf t.pl.pinned 61).eventIf (decide (2 ≤ t.ni.step.val)) 62).eventIf
    (decide (t.ni.step = 0)) 63).eventIf (decide (t.iss.refused ≠ 0)) 58

theorem Tile.sparesCycles_levelEvents (t : Tile) : t.SparesCycles t.levelEvents :=
  have h (u : Tile) (b : Bool) (e : Nat) (he : e ≠ 0) := u.sparesCycles_eventIf b e he
  (((((h _ _ 36 (by decide)).trans (h _ _ 38 (by decide))).trans (h _ _ 61 (by decide))).trans (h _ _ 62 (by decide))).trans
    (h _ _ 63 (by decide))).trans (h _ _ 58 (by decide))

/-- A cycle without a stall counts its own event and those of the levels, in the counts of the interval, and nothing else of the tile. -/
theorem Tile.countCycle_same {t : Tile} (hc : t.counts = true) (hs : t.iss.stall = none) :
    t.OnlyPerf { t.countCycle with iss := t.iss, ni := t.ni } ∧ t.countCycle.iss = { t.iss with refused := t.iss.refused - 1 } ∧
    t.countCycle.ni.allCycles = t.ni.allCycles + 1 ∧
    ∀ k, t.regs.selected k = 0 → t.countCycle.regs.perf.get k = t.regs.perf.get k + 1 := by
  obtain ⟨level, spares⟩ := (t.event 0 1).sparesCycles_levelEvents
  have only : t.OnlyPerf (t.event 0 1).levelEvents := (t.onlyPerf_event 0 1).trans level
  have stall : (t.event 0 1).iss.stall = none := hs
  have count : t.countCycle = { (t.event 0 1).levelEvents with iss := t.countCycle.iss, ni := t.countCycle.ni } := by
    simp only [Tile.countCycle, stall]
    rfl
  refine ⟨?_, ?_, ?_, fun k hk => ?_⟩
  · rw [count]
    exact (congrArg (fun u : Tile => ({ u with iss := t.iss, ni := t.ni } : Tile)) only).trans rfl
  · simp only [Tile.countCycle, stall]
    exact (congrArg (fun i : Issue => ({ i with refused := i.refused - 1 } : Issue)) only.iss :)
  · simp only [Tile.countCycle, stall]
    exact (congrArg (fun n : Phys => n.allCycles + 1) only.ni :)
  · rw [count]
    exact (spares k hk).trans ((t.event_perf 0 1 k).trans (if_pos ⟨hc, hk⟩))

/-- TILE_CYCLE of a counted cycle without a stall (R251 to R253). -/
theorem tileCycle_next {s : State} (hc : s.tile.counts = true) (he : s.tile.iss.ending = false) (hs : s.tile.iss.stall = none) :
    ∃ u, exec .tileCycle s = .next u ∧ u.tile.iss = { s.tile.iss with ending := true, refused := s.tile.iss.refused - 1 } ∧
      u.tile.ni.allCycles = s.tile.ni.allCycles + 1 ∧ u.tile.ex = s.tile.ex ∧ u.tile.ops = { s.tile.ops with kept := u.tile.ops.kept } ∧
      u.tile.pad = s.tile.pad ∧ s.tile.SameRegs u.tile [] ∧
      ∀ k : Fin 8, s.tile.regs.psel.toNat / 2 ^ (8 * k.val) % 256 = 0 → u.tile.regs.perf.get k = s.tile.regs.perf.get k + 1 := by
  let v := s.upd fun t => { t.countCycle with iss := { t.countCycle.iss with ending := true } }
  have step : exec .tileCycle s = .next (v.sendKept.sendReady v.tile.isSource) := by
    show execTileCycle s = _
    rw [execTileCycle, hc, he]
    rfl
  have sends : TileSends v (v.sendKept.sendReady v.tile.isSource) := (tileSends_sendKept v).trans (tileSends_sendReady ..)
  obtain ⟨only, iss, all, perf⟩ := Tile.countCycle_same hc hs
  refine ⟨_, step, ?_⟩
  generalize v.sendKept.sendReady v.tile.isSource = u at sends ⊢
  rw [TileSends] at sends
  rw [sends]
  refine ⟨?_, all, only.ex, ?_, only.pad, only.sameRegs, perf⟩
  · exact (congrArg (fun i : Issue => ({ i with ending := true } : Issue)) iss :)
  · exact (congrArg (fun o : Outstanding => ({ o with kept := u.tile.ops.kept } : Outstanding)) only.ops :)

/-- STEP_CHANGE at an instruction boundary (R250): the clock pauses, and event 23 is counted. -/
theorem stepChange_next {s : State} {k : Fin 4} (hk : s.tile.ni.stepNext = some k) (hc : s.tile.counts = true)
    (ht : s.tile.iss.tail = none) (he : s.tile.iss.ending = false) :
    ∃ u, exec .stepChange s = .next u ∧ SameModule s u ∧ u.tile.ni = { s.tile.ni with step := k, stepNext := none, paused := true } ∧
      u.tile.ex = s.tile.ex ∧ u.tile.ops = s.tile.ops ∧ u.tile.iss = s.tile.iss ∧ s.tile.SameRegs u.tile [] := by
  have step : exec .stepChange s =
      .next (s.upd fun t => { t.event 23 1 with ni := { t.ni with step := k, stepNext := none, paused := true } }) := by
    show execStepChange s = _
    simp [execStepChange, hk, hc, ht, he]
  exact ⟨_, step, rfl, rfl, rfl, rfl, rfl, (s.tile.onlyPerf_event 23 1).sameRegs⟩

/-- FETCHDUTY_UPDATE at the start of a window (R249). -/
theorem fetchdutyUpdate_next {s : State} {d : Nat} (hd : s.tile.ni.dutyNext = some d) (hc : s.tile.iss.cycle % 16 = 0)
    (he : s.tile.iss.ending = false) :
    exec .fetchdutyUpdate s = .next { s with tile := { s.tile with ni := { s.tile.ni with duty := d, dutyNext := none } } } := by
  show execFetchdutyUpdate s = _
  simp [execFetchdutyUpdate, hd, hc, he, State.upd]

end Sys2Proof.Machine
end

section
/-! SUPPORT. The statement about the steps of a tile beside its instructions. -/

namespace Sys2Proof.Machine

/-- REGISTER_TO_REGISTER_WRITE of a result that is due (R238 to R240). -/
theorem registerToRegisterWrite_writes {s : State} {n : Nat} {w : PendWrite} (hn : s.tile.iss.writes[n]? = some w)
    (he : s.tile.iss.ending = true) (hd : w.due ≤ s.tile.iss.cycle) :
    ∃ u, exec (.registerToRegisterWrite n) s = .next u ∧ SameModule s u ∧ s.tile.SameUnits u.tile ∧ u.tile.ops = s.tile.ops ∧
      u.tile.pad = s.tile.pad ∧ u.tile.ex = s.tile.ex ∧ u.tile.iss = { s.tile.iss with writes := dropNth s.tile.iss.writes n } ∧
      (∀ d x, w.write = .g d x → u.tile.Has d x ∧ s.tile.SameG u.tile [d] ∧ s.tile.SameV u.tile ∧ s.tile.SameM u.tile) ∧
      (∀ d l x, w.write = .v d l x → s.tile.SameG u.tile [] ∧ s.tile.SameM u.tile ∧ ∀ r i, (u.tile.v r).get i =
        if r = d ∧ l.getLsbD i.val = true then x.get i else (s.tile.v r).get i) ∧
      (∀ d x, w.write = .m d x → s.tile.SameG u.tile [] ∧ s.tile.SameV u.tile ∧ ∀ r, u.tile.m r = if r = d ∧ d ≠ 0 then x else s.tile.m r) ∧
      ((∀ x a, w.write ≠ .sr x a) → u.tile.regs = { s.tile.regs with
        g := u.tile.regs.g, v := u.tile.regs.v, m := u.tile.regs.m, fflags := s.tile.regs.fflags ||| w.flags.getD 0 }) ∧
      (∀ x a, w.write = .sr x a → w.flags = none → MtsWrites s.tile x a u.tile.regs) := by
  let t : Tile := { s.tile with iss := { s.tile.iss with writes := dropNth s.tile.iss.writes n } }
  have only : t.applyWrite w = { t with regs := (t.applyWrite w).regs } := t.onlyRegs_applyWrite w
  have field {α : Type} (f : Tile → α) : f (t.applyWrite w) = f { t with regs := (t.applyWrite w).regs } := congrArg f only
  refine ⟨_, registerToRegisterWrite_next hn he hd, rfl, ⟨field Tile.id, field Tile.gang, field Tile.inb, field Tile.eng, field Tile.ni,
    field Tile.pl⟩, field Tile.ops, field Tile.pad, field Tile.ex, field Tile.iss, ?_⟩
  obtain ⟨due, write, flags⟩ := w
  refine ⟨?_, ?_, ?_, t.applyWrite_regs _, ?_⟩
  · rintro d x rfl
    exact t.applyWrite_scalar due flags d x
  · rintro d l x rfl
    exact t.applyWrite_vector due flags d l x
  · rintro d x rfl
    exact t.applyWrite_mask due flags d x
  · rintro x a rfl rfl
    show MtsWrites s.tile x a (t.applyWrite ⟨due, .sr x a, none⟩).regs
    rw [t.applyWrite_sr]
    exact t.writeReg_mtsWrites x a

end Sys2Proof.Machine

open Sys2Proof Sys2Proof.Machine

/-- Settles O42: each event by its own lemma, for a trap the entry, for a result the register it goes to, for a cycle its counts. -/
theorem cycleEvents : Obligations.CycleEvents := by
  intro s t step
  refine ⟨?pending, ?unassigned, ?fetch, ?write, ?cycle, ?duty, ?step, rfl⟩
  case pending =>
    intro p rest hp hr hn hi hu ht he hw h1 h2 ha
    exact asynchronousTrap_taken hp hr hn hi hu ht he hw h1 h2 ha
  case unassigned =>
    intro w second h hf hw
    exact ⟨unassignedEncoding_illegal h hf hw, unassignedEncoding_illegalTail h hf hw⟩
  case fetch =>
    intro a h hf
    exact ⟨fetchFault_taken h hf, fetchFault_finishes h hf⟩
  case write =>
    intro n w hn he hd
    exact registerToRegisterWrite_writes hn he hd
  case cycle =>
    intro hc he hs
    exact tileCycle_next hc he hs
  case duty =>
    intro d hd hc he
    exact fetchdutyUpdate_next hd hc he
  case step =>
    intro k hk hc ht he
    exact stepChange_next hk hc ht he
end

section
/-! SUPPORT. Checks at issue (R37, R237): a check that passes lets the next one follow, and one that fails ends the issue in its wait or in
its precise trap (R38). -/

namespace Sys2Proof.Machine

/-! ## Checks in order -/

@[simp] theorem failIf_false (st : Stop) : failIf false st = .ok () := rfl

@[simp] theorem failIf_true (st : Stop) : failIf true st = .error st := rfl

@[simp] theorem check_ok_bind {α β : Type} (x : α) (f : α → Except Stop β) : (Except.ok x >>= f) = f x := rfl

@[simp] theorem check_error_bind {α β : Type} (st : Stop) (f : α → Except Stop β) : (Except.error st >>= f) = .error st := rfl

/-- An instruction without registers, unit, class and handles may issue in any cycle (R237). -/
theorem Tile.canIssue_nothing (t : Tile) : t.canIssue {} :=
  ⟨by simp, Nat.zero_le _, by simp, by simp⟩

/-! ## Precise traps -/

/-- A check that fails with a trap, at an instruction that may issue and of a tile that holds at no CWAIT: the trap is taken, and it records
no branch (R36 to R38). -/
theorem issue_trapTaken {n : Need} {body : State → Except Stop State} {s : State} {i : TrapInfo} (h : s.tile.canIssue n)
    (hw : s.tile.ex.cw = none) (hc : i.cause ∉ [0x02, 0x0A, 0x0B]) (ha : i.aclass ≠ 1) (hb : body s = .error (.trap i)) :
    ∃ t, issue n body s = .next t ∧
      TrapTaken s t i.cause i.tval s.tile.ex.pc (i.tinfo s.tile.ni.step) s.tile.iss.cycle := by
  simp only [List.mem_cons, List.not_mem_nil, or_false, not_or] at hc
  obtain ⟨tail, throttle, ecc⟩ := hc
  refine ⟨_, issue_of_trap h hb, ?_⟩
  rw [State.tileUncIf, if_neg (by simpa using ecc)]
  exact (State.trapHere_taken hw throttle (by simp [ha, tail])).fetchPassed

/-- The same with TINFO written out: the clock step, the access class and the lane (R17). -/
theorem issue_causeInLane {n : Need} {body : State → Except Stop State} {s : State} {cause : Nat} {tval : Word} {aclass : Nat}
    {lane : Option (Fin 64)} (h : s.tile.canIssue n) (hw : s.tile.ex.cw = none) (hc : cause ∉ [0x02, 0x0A, 0x0B])
    (ha : aclass ≠ 1 ∧ aclass < 16) (hb : body s = .error (.trap { cause := cause, tval := tval, aclass := aclass, lane := lane })) :
    ∃ t, issue n body s = .next t ∧ TrapTaken s t cause tval s.tile.ex.pc
      (BitVec.ofNat 64 (s.tile.ni.step.val * 2 ^ 14 + aclass * 2 ^ 8 + lane.elim 0 fun l => 128 + l.val)) s.tile.iss.cycle := by
  obtain ⟨t, step, taken⟩ := issue_trapTaken h hw (i := { cause := cause, tval := tval, aclass := aclass, lane := lane }) hc ha.1 hb
  refine ⟨t, step, ?_⟩
  rw [TrapInfo.tinfo_eq] at taken
  cases lane <;> simpa only [branchInfo, Option.elim, Bool.false_eq_true, if_false, Nat.zero_add, Nat.mod_eq_of_lt ha.2] using taken

theorem issue_cause {n : Need} {body : State → Except Stop State} {s : State} {cause : Nat} {tval : Word} {aclass : Nat}
    (h : s.tile.canIssue n) (hw : s.tile.ex.cw = none) (hc : cause ∉ [0x02, 0x0A, 0x0B]) (ha : aclass ≠ 1 ∧ aclass < 16)
    (hb : body s = .error (.cause cause tval aclass)) :
    ∃ t, issue n body s = .next t ∧ TrapTaken s t cause tval s.tile.ex.pc
      (BitVec.ofNat 64 (s.tile.ni.step.val * 2 ^ 14 + aclass * 2 ^ 8)) s.tile.iss.cycle := by
  simpa only [Option.elim, Nat.add_zero] using issue_causeInLane (lane := none) h hw hc ha hb

/-- A trap without an access class: TINFO holds the clock step alone (R17). -/
theorem issue_causePlain {n : Need} {body : State → Except Stop State} {s : State} {cause : Nat} {tval : Word}
    (h : s.tile.canIssue n) (hw : s.tile.ex.cw = none) (hc : cause ∉ [0x02, 0x0A, 0x0B]) (hb : body s = .error (.cause cause tval)) :
    ∃ t, issue n body s = .next t ∧ TrapTaken s t cause tval s.tile.ex.pc (BitVec.ofNat 64 (s.tile.ni.step.val * 2 ^ 14))
      s.tile.iss.cycle := by
  simpa only [Nat.zero_mul, Nat.add_zero] using issue_cause h hw hc (by decide) hb

/-! ## Issue and nothing else -/

/-- An instruction of n words that only issues keeps everything (R237). -/
theorem Tile.keeps_issuedWords (t : Tile) (n : Nat) (reads : List RegName) : t.KeepsBut (t.issuedWords n reads) [] n := by
  obtain ⟨units, ops, pad, regs, pc, -⟩ := t.issuedWords_same n reads
  exact ⟨units, ops, pad, regs, pc⟩

theorem Tile.issuedWords_writes (t : Tile) (n : Nat) (reads : List RegName) : (t.issuedWords n reads).iss.writes = t.iss.writes :=
  (congrArg Issue.writes (t.issuedWords_iss n reads)).trans rfl

theorem Tile.issued_writes (t : Tile) (reads : List RegName) : (t.issued reads).iss.writes = t.iss.writes := t.issuedWords_writes 1 reads

/-- An instruction that only issues. -/
theorem frame_issued (s : State) (reads : List RegName) :
    Frame s (s.upd fun t => t.issued reads) [] 1 ∧ (s.upd fun t => t.issued reads).tile.iss.writes = s.tile.iss.writes :=
  ⟨frame_upd (s.tile.keeps_issuedWords 1 reads), s.tile.issued_writes reads⟩

/-- An instruction whose result goes to a scalar register in a later cycle (R238). -/
theorem frame_late (s : State) (d : GReg) (reads : List RegName) {l : Nat} (hl : 1 < l) (x : Word) :
    Frame s (s.upd fun t => (t.result l (.g d x)).issued reads) [] 1 ∧
    s.tile.Awaiting (s.upd fun t => (t.result l (.g d x)).issued reads).tile l (.g d x) none := by
  simp only [Tile.result_late _ hl]
  refine ⟨frame_upd (f := fun t => ({ t with iss := { t.iss with writes := t.iss.writes ++ [⟨t.iss.cycle + l - 1, .g d x, none⟩] } } : Tile).issued
    reads) (Tile.keeps_issued reads ⟨rfl, rfl, rfl, rfl, rfl, rfl⟩ rfl ⟨rfl, fun _ => rfl⟩
      ⟨fun _ _ => rfl, fun _ => rfl, fun _ => rfl, rfl⟩ rfl), ?_⟩
  exact Tile.issued_writes _ reads

/-- A trap of an instruction that has issued is one of the tile as it was before (R117). -/
theorem Tile.Traps.of_issued {a b : Tile} {reads : List RegName} {c e : Nat} {tval tpc tinfo : Word}
    (h : (a.issued reads).Traps b c tval tpc tinfo e) : a.Traps b c tval tpc tinfo e := by
  obtain ⟨id, gang, inb, eng, pl, ops, ni, pad, g, v, m, regs, ex, writes, bubble⟩ := h
  obtain ⟨⟨kid, kgang, kinb, keng, kni, kpl⟩, kops, kpad, ⟨kg, kv, km, kregs⟩, kex⟩ := a.keeps_issuedWords 1 reads
  rw [Tile.SameSpecial] at kregs
  rw [Tile.NextPc] at kex
  refine ⟨id.trans kid, gang.trans kgang, inb.trans kinb, eng.trans keng, pl.trans kpl, ops.trans kops, ?_,
    ⟨pad.1.trans kpad.1, fun x => (pad.2 x).trans (kpad.2 x)⟩, fun r hr => (g r hr).trans (kg r hr), fun r => (v r).trans (kv r),
    fun r => (m r).trans (km r), ?_, ?_, writes.trans (a.issued_writes reads), bubble⟩
  · rw [ni, Tile.issued, kni]
  · rw [regs, Tile.issued, Tile.issuedWords_regs, kex]
  · rw [ex, Tile.issued, Tile.issuedWords_regs, kex]

end Sys2Proof.Machine
end

section
/-! SUPPORT. What reset leaves (R41, R312, R352, R354, R379, R389, R394). -/

namespace Sys2Proof.Machine

theorem vget_replicate {α : Type} {n : Nat} (x : α) (i : Fin n) : (Vector.replicate n x).get i = x := Vector.getElem_replicate i.isLt

theorem vget_ofFn {α : Type} {n : Nat} (f : Fin n → α) (i : Fin n) : (Vector.ofFn f).get i = f i := Vector.getElem_ofFn i.isLt

theorem part_reset (p : Nat) : State.reset.part p = Part.fresh := vget_replicate ..

/-- The state in which a virtual tile starts (R41). -/
theorem Gang.freshTile_starts (g : Gang) (vt : Nat) :
    let t := g.freshTile vt
    (∀ r, t.g r = 0) ∧ (∀ r, t.v r = Vector.replicate 16 0) ∧ (∀ r : MReg, r ≠ 0 → t.m r = 0) ∧ (∀ n, t.sh n = none) ∧
    (∀ c : Fin 64, t.inb.chans.get c = g.image.chans.getD c.val Channel.fresh) ∧ ∀ c, t.count c = 0 := by
  refine ⟨fun r => ?_, fun r => vget_replicate .., fun r hr => ?_, fun n => vget_replicate .., fun c => vget_ofFn .., fun c => ?_⟩
  · by_cases hr : r = 0
    · rw [hr, Tile.g_zero]
    · rw [Tile.g, if_neg hr]
      exact vget_replicate ..
  · rw [Tile.m, if_neg hr]
    exact vget_replicate ..
  · cases c <;> rfl

end Sys2Proof.Machine

open Sys2Proof Sys2Proof.Machine

/-- Settles O59: the module by its reset values, a virtual tile by the state in which it starts. -/
theorem resetValues : Obligations.ResetValues := by
  refine ⟨⟨rfl, rfl⟩, rfl, rfl, rfl, rfl, rfl, fun f => ?fields, fun p => ?parts, fun x => ?sites, fun g vt => ?tile⟩
  case fields =>
    have e : State.reset.power.fields.get f = ⟨64, .normal, 1⟩ := vget_replicate ..
    rw [e]
    exact ⟨rfl, rfl⟩
  case parts =>
    rw [part_reset]
    exact ⟨rfl, rfl, rfl⟩
  case sites => exact ⟨rfl, rfl, rfl, rfl, rfl, rfl, rfl, rfl, rfl, rfl, rfl, rfl, rfl, rfl⟩
  case tile =>
    obtain ⟨scalars, vectors, masks, shingles, chans, counts⟩ := g.freshTile_starts vt
    exact ⟨scalars, vectors, masks, rfl, rfl, rfl, rfl, rfl, rfl, rfl, rfl, rfl, rfl, fun _ => rfl, shingles, rfl, rfl, rfl, rfl, counts,
      chans⟩
end

section
/-! SUPPORT. The state registers (R15, R116, R120 to R122): who may reach them, and the instructions that move them. -/

namespace Sys2Proof.Machine

/-! ## The access columns -/

theorem regAccess_of_not_listed {x : Nat} (h : ¬Listed x) : regAccess x = none := by
  unfold Listed at h
  unfold regAccess
  repeat rw [if_neg (show ¬_ by omega)]

theorem regAccess_trapRegister {x : Nat} (h : 0x005 ≤ x ∧ x ≤ 0x00A) : regAccess x = some (.hidden, .readWrite) := by
  unfold regAccess
  rw [if_neg (by omega), if_pos h.2]

theorem regAccess_readWrite {x : Nat} (h : x = 0x010 ∨ x = 0x011 ∨ x = 0x01A ∨ 0x030 ≤ x ∧ x ≤ 0x038 ∨ x = 0x040) :
    regAccess x = some (.readWrite, .readWrite) := by
  unfold regAccess
  rw [if_neg (by omega), if_neg (by omega)]
  repeat' split
  · rfl
  · omega
  · omega
  · rfl
  · rfl
  all_goals omega

theorem regAccess_readOnly {x : Nat} (h : Listed x) (hs : ¬(0x005 ≤ x ∧ x ≤ 0x00A))
    (hb : ¬(x = 0x010 ∨ x = 0x011 ∨ x = 0x01A ∨ 0x030 ≤ x ∧ x ≤ 0x038 ∨ x = 0x040)) (h1 : x ≠ 0x041) :
    regAccess x = some (.readOnly, .readOnly) := by
  unfold Listed at h
  unfold regAccess
  by_cases identity : x ≤ 0x004
  · rw [if_pos identity]
  rw [if_neg identity, if_neg (by omega), if_neg (by omega)]
  repeat' split
  · rfl
  · rfl
  · omega
  · omega
  · rfl
  · rfl
  · rfl
  · rfl
  · rfl
  · omega

/-- What the privilege makes of a row of the table. -/
theorem Tile.access_of_row {t : Tile} {x : Nat} {u v : RegAccess} (h : regAccess x = some (u, v)) :
    t.access x = some (if t.ex.prv then v else u) := by rw [Tile.access, h, Option.map_some]

theorem access_columns : AccessColumns := fun t x => by
  refine ⟨fun h => ?none, fun h => Tile.access_of_row (regAccess_trapRegister h), fun h => ?both, ?shbase, fun hl hs hb h1 => ?listed⟩
  case none => rw [Tile.access, regAccess_of_not_listed h, Option.map_none]
  case both => rw [Tile.access_of_row (regAccess_readWrite h), ite_self]
  case shbase =>
    rintro rfl
    exact Tile.access_of_row rfl
  case listed => rw [Tile.access_of_row (regAccess_readOnly hl hs hb h1), ite_self]

/-! ## MFS and MTS -/

theorem Tile.issued_cycle (t : Tile) (reads : List RegName) : (t.issued reads).iss.cycle = t.iss.cycle :=
  (congrArg Issue.cycle (t.issuedWords_iss 1 reads)).trans rfl

theorem Tile.flagsPending_false {t : Tile} (h : ∀ w ∈ t.iss.writes, w.flags = none) : t.flagsPending = false := by
  simpa [Tile.flagsPending] using h

theorem Tile.checkReg_of_access {t : Tile} {x : Nat} {r : RegAccess} (i : Instr) (ha : t.access x = some r) (hr : r ≠ .hidden)
    (hf : x = 0x011 → ∀ w ∈ t.iss.writes, w.flags = none) : t.checkReg i x = .ok r := by
  have passes : (decide (x = 0x011) && t.flagsPending) = false := by
    by_cases hx : x = 0x011
    · rw [Tile.flagsPending_false (hf hx), Bool.and_false]
    · rw [decide_eq_false hx, Bool.false_and]
  rw [Tile.checkReg, ha, passes]
  cases r with
  | hidden => exact absurd rfl hr
  | readOnly => rfl
  | readWrite => rfl

theorem Tile.checkReg_of_none {t : Tile} {x : Nat} (i : Instr) (h : t.access x = none) :
    t.checkReg i x = .error (.cause 0x01 (instrWord i)) := by rw [Tile.checkReg, h]

theorem Tile.checkReg_of_hidden {t : Tile} {x : Nat} (i : Instr) (h : t.access x = some .hidden) :
    t.checkReg i x = .error (.cause 0x03 (instrWord i)) := by rw [Tile.checkReg, h]

/-- MFS whose check fails with a trap. -/
theorem mfs_traps {s : State} {d : GReg} {x : BitVec 12} {cause : Nat} (hc : cause ∉ [0x02, 0x0A, 0x0B])
    (h : s.tile.checkReg (.mfs d x) x.toNat = .error (.cause cause (instrWord (.mfs d x)))) (hw : s.tile.ex.cw = none)
    (hi : s.tile.canIssue { regs := [.g d] }) :
    ∃ t, exec (.mfs d x) s = .next t ∧ TrapTaken s t cause (instrWord (.mfs d x)) s.tile.ex.pc
      (BitVec.ofNat 64 (s.tile.ni.step.val * 2 ^ 14)) s.tile.iss.cycle :=
  show ∃ t, execMfs d x s = .next t ∧ _ from issue_causePlain hi hw hc (by rw [h, check_error_bind])

/-- MTS whose check fails with a trap. -/
theorem mts_traps {s : State} {a : GReg} {x : BitVec 12} {cause : Nat} (hc : cause ∉ [0x02, 0x0A, 0x0B])
    (h : s.tile.checkReg (.mts a x) x.toNat = .error (.cause cause (instrWord (.mts a x)))) (hw : s.tile.ex.cw = none)
    (hi : s.tile.canIssue { regs := [.g a], reads := [.g a] }) :
    ∃ t, exec (.mts a x) s = .next t ∧ TrapTaken s t cause (instrWord (.mts a x)) s.tile.ex.pc
      (BitVec.ofNat 64 (s.tile.ni.step.val * 2 ^ 14)) s.tile.iss.cycle :=
  show ∃ t, execMts a x s = .next t ∧ _ from issue_causePlain hi hw hc (by rw [h, check_error_bind])

/-- A late result of an instruction whose checks pass. -/
theorem lateResult_of_body {s : State} {i : Instr} {d : GReg} {reads : List RegName} {u : UnitKind} {l : Nat} {x : Word}
    {body : State → Except Stop State} (hl : 1 < l) (he : exec i s = issue { regs := .g d :: reads, reads := reads, unit := u } body s)
    (hb : body s = .ok (s.upd fun t => (t.result l (.g d x)).issued reads)) : LateResult s i d reads u l x := fun hi =>
  ⟨_, he.trans (issue_of_ok hi hb), frame_late s d reads hl x⟩

theorem mfs_result {s : State} {d : GReg} {x : BitVec 12} {r : RegAccess}
    (h : s.tile.checkReg (.mfs d x) x.toNat = .ok r) : LateResult s (.mfs d x) d [] .other 2 (s.readReg x.toNat) :=
  lateResult_of_body (by decide) (show execMfs d x s = _ from rfl) (by rw [h, check_ok_bind])

/-- MTS of a register that may be written, and of one that may only be read. -/
theorem mts_result {s : State} {a : GReg} {x : BitVec 12} {r : RegAccess} (h : s.tile.checkReg (.mts a x) x.toNat = .ok r)
    (hi : s.tile.canIssue { regs := [.g a], reads := [.g a] }) :
    ∃ t, exec (.mts a x) s = .next t ∧ Frame s t [] 1 ∧
      (r = .readWrite → s.tile.Awaiting t.tile 1 (.sr x.toNat (s.tile.g a)) none) ∧
      (r = .readOnly → t.tile.iss.writes = s.tile.iss.writes) := by
  have frame : ∀ t : Tile, t.KeepsBut (t.issued [.g a]) [] 1 := fun t => t.keeps_issuedWords 1 [.g a]
  refine ⟨_, (show execMts a x s = _ from issue_of_ok hi (by rw [h, check_ok_bind])), ?_, ?written, ?kept⟩
  · refine frame_upd ?_
    split
    · obtain ⟨units, ops, pad, regs, pc⟩ := frame s.tile
      exact ⟨units, ops, pad, regs, pc⟩
    · exact frame s.tile
  case written =>
    rintro rfl
    rw [State.upd_tile, if_pos rfl]
    simp only [Tile.Awaiting, Tile.issued_writes, Tile.issued_cycle, Nat.add_sub_cancel]
  case kept =>
    rintro rfl
    exact s.tile.issued_writes [.g a]

theorem query_result (s : State) (d : GReg) (x : BitVec 12) :
    LateResult s (.query d x) d [] .other 2 (queryWord (s.part s.tile.id.part).gov x.toNat) :=
  lateResult_of_body (by decide) (show execQuery d x s = _ from rfl) rfl

theorem nop_next (s : State) : ∃ t, exec .nop s = .next t ∧ Frame s t [] 1 ∧ t.tile.iss.writes = s.tile.iss.writes :=
  ⟨_, (show execNop s = _ from issue_of_ok s.tile.canIssue_nothing rfl), frame_issued s []⟩

theorem register_moves : RegisterMoves := fun s d a x => by
  refine ⟨nop_next s, fun r ha hr hf => ?listed, fun hx hw => ?unlisted, query_result s d x⟩
  case listed =>
    have passes (i : Instr) := Tile.checkReg_of_access i ha hr fun hx => hf (BitVec.eq_of_toNat_eq hx)
    exact ⟨mfs_result (passes _), mts_result (passes _)⟩
  case unlisted =>
    have fails (i : Instr) := Tile.checkReg_of_none i ((access_columns s.tile x.toNat).1 hx)
    exact ⟨mfs_traps (by decide) (fails _) hw, mts_traps (by decide) (fails _) hw⟩

end Sys2Proof.Machine

open Sys2Proof Sys2Proof.Machine

/-- Settles O9: the access columns by the rows of the table, the moves by their one check. -/
theorem stateMoves : Obligations.StateMoves := ⟨access_columns, register_moves⟩
end

section
/-! SUPPORT. The traps that an instruction asks for and the return from one (R38, R40, R117, R118), and the trap of a privileged form at U
(R15, R120, R125, R186, R236). -/

namespace Sys2Proof.Machine

/-! ## TRAP, SYSC and BREAK -/

/-- The instruction words of the environment forms (R64, R117). -/
theorem word_environment (k : Nat) (x : BitVec 12) :
    w64 (encI 0x3C 0 0 (k * 4096 + x.toNat) + 2 ^ 32 * 0) = BitVec.ofNat 64 (0xF0000000 + k * 4096) + x.zeroExtend 64 := by
  apply BitVec.eq_of_toNat_eq
  have small := x.isLt
  simp only [w64, encI, BitVec.toNat_add, BitVec.toNat_ofNat, BitVec.truncate_eq_setWidth, BitVec.toNat_setWidth, Fin.val_zero]
  omega

/-- The stall event of the cycle is no part of a trap (R252). -/
theorem Tile.Traps.of_stall {a b : Tile} {c e : Nat} {tval tpc tinfo : Word} (h : a.Traps b c tval tpc tinfo e) (x : Option Nat) :
    a.Traps { b with iss := { b.iss with stall := x } } c tval tpc tinfo e := h

/-- A trap that an instruction asks for: TINFO holds the clock step alone (R17). -/
theorem Tile.takeTrap_plain (a : Tile) (cause : Nat) (tval tpc : Word) (entry : Nat) :
    a.Traps (a.takeTrap { cause := cause, tval := tval } tpc entry) cause tval tpc (BitVec.ofNat 64 (a.ni.step.val * 2 ^ 14)) entry := by
  have traps := a.takeTrap_traps { cause := cause, tval := tval } tpc entry
  rw [TrapInfo.tinfo_eq] at traps
  simpa only [branchInfo, Bool.false_eq_true, if_false, Nat.zero_add, Nat.zero_mod, Nat.zero_mul, Nat.add_zero] using traps

/-- An environment form issues in every cycle and enters its trap in the next (R117, R242). -/
theorem raiseOp_taken (i : Instr) (cause : Nat) (next : Bool) (s : State) :
    ∃ t, raiseOp i cause next s = .next t ∧ TrapTaken s t cause (instrWord i) (if next then s.tile.ex.pc + 4 else s.tile.ex.pc)
      (BitVec.ofNat 64 (s.tile.ni.step.val * 2 ^ 14)) (s.tile.iss.cycle + 1) :=
  ⟨_, issue_of_ok s.tile.canIssue_nothing rfl, rfl, ((Tile.takeTrap_plain (s.tile.issued []) ..).of_issued).of_stall none⟩

theorem environment_traps : EnvironmentTraps := fun s x => by
  refine ⟨?trap, ?sysc, ?brk⟩
  case trap =>
    have taken := raiseOp_taken (.trap x) 0x0F true s
    rwa [show instrWord (.trap x) = _ from word_environment 1 x] at taken
  case sysc =>
    have taken := raiseOp_taken (.sysc x) 0x0E true s
    rwa [show instrWord (.sysc x) = _ from word_environment 2 x] at taken
  case brk =>
    have taken := raiseOp_taken (.brk x) 0x0D false s
    rwa [show instrWord (.brk x) = _ from word_environment 3 x] at taken

/-! ## Privileged forms at U -/

/-- A form that only S may use, in its place among the checks, traps PRIV at U. -/
theorem issue_privileged {n : Need} {body : State → Except Stop State} {s : State} {i : Instr} (h : s.tile.canIssue n)
    (hw : s.tile.ex.cw = none) (hb : body s = .error (.cause 0x03 (instrWord i))) :
    ∃ t, issue n body s = .next t ∧
      TrapTaken s t 0x03 (instrWord i) s.tile.ex.pc (BitVec.ofNat 64 (s.tile.ni.step.val * 2 ^ 14)) s.tile.iss.cycle :=
  issue_causePlain h hw (by decide) hb

theorem failIf_user {prv : Bool} (st : Stop) (h : prv = false) : failIf (!prv) st = .error st := by rw [h]; rfl

theorem failIf_supervisor {prv : Bool} (st : Stop) (h : prv = true) : failIf (!prv) st = .ok () := by rw [h]; rfl

theorem eret_traps {s : State} (hp : s.tile.ex.prv = false) (hw : s.tile.ex.cw = none) :
    ∃ t, exec .eret s = .next t ∧
      TrapTaken s t 0x03 (instrWord .eret) s.tile.ex.pc (BitVec.ofNat 64 (s.tile.ni.step.val * 2 ^ 14)) s.tile.iss.cycle :=
  show ∃ t, execEret s = .next t ∧ _ from
    issue_privileged s.tile.canIssue_nothing hw (by rw [failIf_user _ hp, check_error_bind])

/-! ## ERET at S -/

/-- ERET after its issue: the PC and the saved privilege are those of the trap record (R40). -/
theorem eret_returns {s : State} (hp : s.tile.ex.prv = true) : ∃ t, exec .eret s = .next t ∧ SameModule s t ∧
    s.tile.SameUnits t.tile ∧ t.tile.ops = s.tile.ops ∧ s.tile.SamePad t.tile ∧ s.tile.SameG t.tile [] ∧ s.tile.SameV t.tile ∧
    s.tile.SameM t.tile ∧
    t.tile.regs = { s.tile.regs with
      perf := t.tile.regs.perf
      trap := { s.tile.regs.trap with tstat := s.tile.regs.trap.tstat &&& 3 } } ∧
    t.tile.ex = { s.tile.ex with
      pc := s.tile.regs.trap.tpc, prv := s.tile.regs.trap.tstat.getLsbD 0, branch := some s.tile.ex.pc, tvecFetch := false } ∧
    t.tile.iss.bubble = s.tile.iss.cycle + 3 := by
  refine ⟨_, show execEret s = _ from issue_of_ok s.tile.canIssue_nothing (by rw [failIf_supervisor _ hp, check_ok_bind]), ?_⟩
  refine ⟨rfl, ?_⟩
  obtain ⟨units, ops, pad, ⟨g, v, m, -⟩, -⟩ := s.tile.keeps_issuedWords 1 []
  refine ⟨units, ops, pad, g, v, m, ?regs, ?ex, ?bubble⟩
  case regs => 
    simp only [State.upd_tile, Tile.eretTo, Tile.issued]
    rw [Tile.issuedWords_regs]
  case ex =>
    simp only [State.upd_tile, Tile.eretTo, Tile.issued]
    rw [Tile.issuedWords_regs, Tile.issuedWords_ex]
  case bubble =>
    simp only [State.upd_tile, Tile.eretTo, Tile.issued]
    rw [Tile.issuedWords_iss]
    rfl

theorem State.checkGang_user {s : State} (i : Instr) (id : W32) (hp : s.tile.ex.prv = false) :
    s.checkGang i id = .error (.cause 0x03 (instrWord i)) := by
  unfold State.checkGang
  rw [failIf_user _ hp, check_error_bind]

end Sys2Proof.Machine

open Sys2Proof Sys2Proof.Machine

/-- Settles O13: each environment form by the tile's own trap entry, ERET by its privilege. -/
theorem trapsAndReturn : Obligations.TrapsAndReturn :=
  ⟨environment_traps, fun _ => ⟨fun hp hw _ => eret_traps hp hw, eret_returns⟩⟩

/-- Settles O14: the check of the privilege is the first of every privileged form but SHSET and the state registers, of which it follows the
wait for the shingle and the lookup of the index. -/
theorem privilegeTraps : Obligations.PrivilegeTraps := fun s a b d n x hp hw => by
  refine ⟨fun _ => eret_traps hp hw, fun hi => ?tlbinv, fun hi => ?tlbinvAll, fun hi => ?gstop, fun hi => ?gresume, fun hn hi => ?shset,
    fun lo hi => ?hidden⟩
  case tlbinv =>
    show ∃ t, execTlbinv a s = .next t ∧ _
    exact issue_privileged hi hw (by rw [failIf_user _ hp, check_error_bind])
  case tlbinvAll =>
    show ∃ t, execTlbinvAll s = .next t ∧ _
    exact issue_privileged hi hw (by rw [failIf_user _ hp, check_error_bind])
  case gstop =>
    show ∃ t, execGstop a b s = .next t ∧ _
    exact issue_privileged hi hw (by simp only [State.checkGang_user _ _ hp, check_error_bind])
  case gresume =>
    show ∃ t, execGresume a b s = .next t ∧ _
    exact issue_privileged hi hw (by simp only [State.checkGang_user _ _ hp, check_error_bind])
  case shset =>
    show ∃ t, execShset a b n s = .next t ∧ _
    exact issue_privileged hi hw (by simp only [hn, failIf_false, check_ok_bind, failIf_user _ hp, check_error_bind])
  case hidden =>
    have hidden : s.tile.access x.toNat = some .hidden := by
      rw [Tile.access_of_row (regAccess_trapRegister ⟨lo, hi⟩), hp]
      rfl
    have fails (i : Instr) := Tile.checkReg_of_hidden i hidden
    exact ⟨mts_traps (by decide) (fails _) hw, mfs_traps (by decide) (fails _) hw⟩
end

section
/-! SUPPORT. The words of the state registers and of QUERY (R15 to R21, R25, R29, R31, R123, R124). -/

namespace Sys2Proof.Machine

/-! ## QUERY -/

/-- The sum of leaf 1, byte by byte. -/
theorem leafOne_bytes (b0 b1 b2 b3 : Bool) :
    let w := 1 + ((((0 + if b0 then 0 else 2 ^ 8) + if b1 then 0 else 2 ^ 16) + if b2 then 0 else 2 ^ 24) + if b3 then 0 else 2 ^ 32)
    w < 2 ^ 64 ∧ w % 256 = 1 ∧ ∀ k : Fin 4, w / 2 ^ (8 * (k.val + 1)) % 256 = if [b0, b1, b2, b3].getD k.val false then 0 else 1 := by
  revert b0 b1 b2 b3
  decide

/-- Leaf 1: a byte of value 1, and one of value 1 for each function that PROFMASK leaves (R123, R124). -/
theorem queryWord_one (r : PartRec) : (queryWord r 1).toNat % 256 = 1 ∧
    ∀ k : Fin 4, (queryWord r 1).toNat / 2 ^ (8 * (k.val + 1)) % 256 = if r.profmask.getLsbD k.val then 0 else 1 := by
  have bytes := leafOne_bytes (r.profmask.getLsbD 0) (r.profmask.getLsbD 1) (r.profmask.getLsbD 2) (r.profmask.getLsbD 3)
  obtain ⟨small, low, each⟩ := bytes
  have word : (queryWord r 1).toNat = _ := Nat.mod_eq_of_lt small
  rw [word]
  refine ⟨low, fun k => (each k).trans ?_⟩
  fin_cases k <;> rfl

theorem queryWord_open {r : PartRec} {leaf : Nat} (h : leaf ≠ 1) (hm : leaf ≤ 7 → r.leafmask.getLsbD leaf = false) :
    queryWord r leaf = w64 (leafWord leaf) := by
  rw [queryWord, if_neg h, if_neg]
  rintro ⟨-, hi, masked⟩
  simp [hm hi] at masked

theorem queryWord_masked {r : PartRec} {leaf : Nat} (lo : 2 ≤ leaf) (hi : leaf ≤ 7) (hm : r.leafmask.getLsbD leaf = true) :
    queryWord r leaf = 0 := by
  rw [queryWord, if_neg (by omega), if_pos ⟨lo, hi, hm⟩]

theorem leafWord_above {leaf : Nat} (h : 7 < leaf) : leafWord leaf = 0 := by
  obtain ⟨k, rfl⟩ := Nat.exists_eq_add_of_le' (show 8 ≤ leaf from h)
  rfl

/-- Leaf 7 holds the stepping. -/
theorem leafWord_stepping : w64 (leafWord 7) = 0x10001 ∨ w64 (leafWord 7) = 0x20001 := by
  show w64 ((if Config.steppingA1 then 2 else 1) * 2 ^ 16 + 1) = _ ∨ w64 ((if Config.steppingA1 then 2 else 1) * 2 ^ 16 + 1) = _
  cases Config.steppingA1
  · exact .inl (by decide)
  · exact .inr (by decide)

theorem query_words : QueryWords := fun r => by
  obtain ⟨low, bytes⟩ := queryWord_one r
  have leaf (n : Nat) (hn : n ≠ 1) (h : r.leafmask.getLsbD n = false) : queryWord r n = _ := queryWord_open hn fun _ => h
  refine ⟨rfl, low, bytes, fun leaf lo hi hm => queryWord_masked lo hi hm, fun h => (leaf 2 (by decide) h).trans (by decide),
    fun h => (leaf 3 (by decide) h).trans (by decide), fun h => (leaf 4 (by decide) h).trans (by decide),
    fun h => (leaf 5 (by decide) h).trans (by decide), fun h => (leaf 6 (by decide) h).trans (by decide), fun h => ?stepping,
    fun n h => ?above⟩
  case stepping =>
    rw [leaf 7 (by decide) h]
    exact leafWord_stepping
  case above =>
    rw [queryWord_open (by omega) fun hi => absurd hi (by omega), leafWord_above h]
    rfl

/-! ## The status registers -/

theorem w64_toNat {x : Nat} (h : x < 2 ^ 64) : (w64 x).toNat = x := Nat.mod_eq_of_lt h

theorem zeroExtend_word {n : Nat} (x : BitVec n) : x.zeroExtend 64 = BitVec.ofNat 64 x.toNat := (BitVec.ofNat_toNat 64 x).symm

/-- A flag in its place in a word. -/
theorem Bool.toNat_mul_eq (b : Bool) (n : Nat) : b.toNat * n = if b then n else 0 := by cases b <;> simp

theorem getLsbD_iff (x : Word) (i : Nat) : x.getLsbD i = true ↔ x.toNat / 2 ^ i % 2 = 1 := by
  rw [BitVec.getLsbD, Nat.testBit_eq_decide_div_mod_eq, decide_eq_true_iff]

theorem Tile.statusWord_thread {t : Tile} (h : t.ex.inh = false) : t.statusWord.toNat = t.ex.prv.toNat := by
  have low : t.ex.prv.toNat ≤ 1 := Bool.toNat_le _
  simp only [Tile.statusWord, h, Bool.false_eq_true, if_false, Nat.zero_add]
  exact w64_toNat (by omega)

theorem Tile.statusWord_handler {t : Tile} (h : t.ex.inh = true) :
    t.statusWord.toNat = t.ex.chan.val * 2 ^ 24 + 2 ^ 16 + t.ex.prv.toNat := by
  have low : t.ex.prv.toNat ≤ 1 := Bool.toNat_le _
  have chan := t.ex.chan.isLt
  simp only [Tile.statusWord, h, if_true]
  exact w64_toNat (by omega)

/-- STATUS holds the privilege, the handler mode and the channel of the handler (R16). -/
theorem Tile.statusWord_fields (t : Tile) : t.statusWord.getLsbD 0 = t.ex.prv ∧ t.statusWord.getLsbD 16 = t.ex.inh ∧
    (t.ex.inh = true → t.statusWord.toNat / 2 ^ 24 = t.ex.chan.val) ∧ (t.ex.inh = false → t.statusWord.toNat / 2 ^ 24 = 0) := by
  have low : t.ex.prv.toNat ≤ 1 := Bool.toNat_le _
  rw [Bool.eq_iff_iff, Bool.eq_iff_iff (b := t.ex.inh), getLsbD_iff, getLsbD_iff, ← Bool.toNat_eq_one (b := t.ex.prv)]
  cases h : t.ex.inh with
  | false =>
    rw [Tile.statusWord_thread h]
    refine ⟨by omega, ?_, nofun, fun _ => by omega⟩
    simp only [Bool.false_eq_true, iff_false]
    omega
  | true =>
    rw [Tile.statusWord_handler h]
    refine ⟨by omega, ?_, fun _ => by omega, nofun⟩
    simp only [iff_true]
    omega

/-- MSTAT holds the sticky bits and whether class MX has an operation (R21). -/
theorem Tile.mstatWord_eq (t : Tile) : t.mstatWord = BitVec.ofNat 64 ((if t.regs.mxe then 2 ^ 3 else 0) +
    (if t.regs.nanSeen then 2 ^ 2 else 0) + (if t.regs.ovfSeen then 2 ^ 1 else 0) + if t.ops.mx = [] then 0 else 1) := by
  have busy : (decide (t.count .mx ≠ 0)).toNat = if t.ops.mx = [] then 0 else 1 := by
    cases h : t.ops.mx <;> simp [Tile.count, h]
  rw [Tile.mstatWord, w64, busy, Bool.toNat_mul_eq, Bool.toNat_mul_eq, Bool.toNat_mul_eq]
  rfl

/-- Counts of one byte each, the first the lowest. -/
def packed (f : Nat → Nat) (l : List Nat) : Nat := l.foldr (fun k n => f k + 256 * n) 0

theorem packed_cons (f : Nat → Nat) (k : Nat) (l : List Nat) : packed f (k :: l) = f k + 256 * packed f l := rfl

theorem packed_lt {f : Nat → Nat} {l : List Nat} (h : ∀ k ∈ l, f k < 256) : packed f l < 2 ^ (8 * l.length) := by
  induction l with
  | nil => exact Nat.one_pos
  | cons k l ih =>
    have first := h k (List.mem_cons_self ..)
    have rest := ih fun j hj => h j (List.mem_cons_of_mem _ hj)
    rw [packed_cons, List.length_cons, Nat.mul_succ, Nat.pow_add]
    omega

theorem packed_byte {f : Nat → Nat} {l : List Nat} (h : ∀ k ∈ l, f k < 256) (j : Nat) (hj : j < l.length) :
    packed f l / 2 ^ (8 * j) % 256 = f l[j] := by
  induction l generalizing j with
  | nil => exact absurd hj (Nat.not_lt_zero j)
  | cons k l ih =>
    have first := h k (List.mem_cons_self ..)
    rw [packed_cons]
    cases j with
    | zero =>
      rw [Nat.mul_zero, Nat.pow_zero, Nat.div_one, Nat.add_mul_mod_self_left, Nat.mod_eq_of_lt first]
      rfl
    | succ j =>
      have drop : (f k + 256 * packed f l) / 256 = packed f l := by omega
      rw [Nat.mul_succ, Nat.add_comm (8 * j), Nat.pow_add, ← Nat.div_div_eq_div_mul, show (2 : Nat) ^ 8 = 256 from rfl, drop]
      exact ih (fun i hi => h i (List.mem_cons_of_mem _ hi)) j (Nat.lt_of_succ_lt_succ hj)

/-- HCNT holds the counts of the handles (R21). -/
theorem Tile.hcntWord_byte (t : Tile) (h : ∀ k < 8, t.hcount k < 256) {k : Nat} (hk : k < 8) :
    t.hcntWord.toNat / 2 ^ (8 * k) % 256 = t.hcount k := by
  have each : ∀ k ∈ List.range 8, t.hcount k < 256 := fun k hk => h k (List.mem_range.mp hk)
  have word : t.hcntWord.toNat = packed t.hcount (List.range 8) := w64_toNat (packed_lt each)
  rw [word, packed_byte each k (by rwa [List.length_range]), List.getElem_range]

theorem status_words : StatusWords := fun s => by
  intro t bit
  refine ⟨rfl, rfl, ?gang, rfl, zeroExtend_word _, rfl, zeroExtend_word _, rfl, ?caps, rfl, rfl, rfl, rfl, rfl, zeroExtend_word _,
    t.mstatWord_eq, fun h => ?thread, fun h => ?handler, fun h k hk => t.hcntWord_byte h hk⟩
  case gang =>
    show t.gangWord = _
    rw [Tile.gangWord, Bool.toNat_mul_eq]
    rfl
  case caps => 
    show capsWord = _
    decide
  case thread =>
    show t.incountWord = _
    simp only [Tile.incountWord, h, Bool.false_eq_true, if_false, Nat.zero_add]
    rfl
  case handler =>
    show t.incountWord = _
    simp only [Tile.incountWord, h, if_true]
    cases t.ex.curSlot <;> rfl

/-! ## The tables -/

theorem readReg_chan (s : State) (c : Fin 64) : s.readReg (0x200 + c.val) = s.tile.chanWord c := by
  fin_cases c <;> rfl

theorem readReg_sh0 (s : State) (n : Fin 64) : s.readReg (0x300 + n.val) = s.tile.shWord0 n := by
  fin_cases n <;> rfl

theorem readReg_sh1 (s : State) (n : Fin 64) : s.readReg (0x340 + n.val) = s.tile.shWord1 n := by
  fin_cases n <;> rfl

/-- An entry of the handler table whose fields are in their ranges (R29). -/
theorem Tile.chanWord_eq {t : Tile} {c : Fin 64} (hq : (t.inb.chans.get c).quota ≤ 256) (ha : (t.inb.chans.get c).age ≤ 4095)
    (he : (t.inb.chans.get c).entry < 2 ^ 17) (hs : t.inb.slots.length ≤ 256) :
    let e := t.inb.chans.get c
    let bit (b : Bool) (k : Nat) : Nat := if b then 2 ^ k else 0
    t.chanWord c = BitVec.ofNat 64 (bit e.bound 63 + bit e.seq 62 + bit e.mask 61 + e.pri.val * 2 ^ 58 + e.quota * 2 ^ 49 +
        (t.inb.slots.countP fun x => decide (x.chan = c)) * 2 ^ 40 + e.age * 2 ^ 28 + e.entry * 4) := by
  have pend : t.pend c ≤ t.inb.slots.length := List.countP_le_length
  intro e bit
  rw [Tile.chanWord, w64, Nat.mod_eq_of_lt (show (t.inb.chans.get c).quota < 512 by omega),
    Nat.mod_eq_of_lt (by omega : t.pend c < 512), Nat.mod_eq_of_lt (show (t.inb.chans.get c).age < 4096 by omega),
    Nat.mod_eq_of_lt he, Bool.toNat_mul_eq, Bool.toNat_mul_eq, Bool.toNat_mul_eq]
  rfl

/-- Word 0 of a shingle whose fields are in their ranges (R25). -/
theorem Tile.shWord0_eq {t : Tile} {n : Fin 64} {x : Shingle} (h : t.sh n = some x) (hm : x.wmark < 2 ^ 20) (hl : x.len < 2 ^ 14)
    (hb : x.base < 2 ^ 19) :
    t.shWord0 n = BitVec.ofNat 64 (2 ^ 63 + x.st.code * 2 ^ 59 + x.wmark * 2 ^ 39 + x.len * 2 ^ 19 + x.base) := by
  simp only [Tile.shWord0, h]
  rw [w64, Nat.mod_eq_of_lt hm, Nat.mod_eq_of_lt hl, Nat.mod_eq_of_lt hb]

theorem table_words : TableWords := fun s => by
  intro t bit
  refine ⟨?truss, rfl, fun c => ?channel, fun n => ⟨fun h => ?undefined, fun x h hm hl hb => ?defined⟩⟩
  case truss =>
    show w64 (t.eng.joined.toNat * 2 ^ 19 + t.eng.pos.val * 2 ^ 16 + t.eng.plan.toNat) = _
    rw [Bool.toNat_mul_eq]
    rfl
  case channel =>
    intro e hq ha he hs
    exact (readReg_chan s c).trans (Tile.chanWord_eq hq ha he hs)
  case undefined => 
    rw [readReg_sh0, readReg_sh1, Tile.shWord0, Tile.shWord1, h]
    exact ⟨rfl, rfl⟩
  case defined =>
    rw [readReg_sh0, readReg_sh1, Tile.shWord0_eq h (Nat.lt_of_le_of_lt hm (by decide)) (Nat.lt_of_le_of_lt hl (by decide)) hb, Tile.shWord1, h]
    exact ⟨by cases x.st <;> rfl, rfl⟩

/-! ## The other registers -/

theorem Tile.opsWord_fields {t : Tile} (h1 : t.ops.loads.length < 256) (h2 : t.ops.stores.length < 256)
    (h3 : t.ops.copies.length < 256) (h4 : t.ops.mx.length < 256) (h5 : t.ops.ms.length < 256) :
    t.opsWord.toNat % 256 = t.ops.loads.length ∧ t.opsWord.toNat / 2 ^ 8 % 256 = t.ops.stores.length ∧
    t.opsWord.toNat / 2 ^ 16 % 256 = t.ops.copies.length ∧ t.opsWord.toNat / 2 ^ 24 % 256 = t.ops.mx.length ∧
    t.opsWord.toNat / 2 ^ 32 = t.ops.ms.length := by
  have small : t.ops.ms.length * 2 ^ 32 + t.ops.mx.length * 2 ^ 24 + t.ops.copies.length * 2 ^ 16 + t.ops.stores.length * 2 ^ 8 +
    t.ops.loads.length < 2 ^ 64 := by omega
  have word : t.opsWord.toNat = t.ops.ms.length * 2 ^ 32 + t.ops.mx.length * 2 ^ 24 + t.ops.copies.length * 2 ^ 16 +
    t.ops.stores.length * 2 ^ 8 + t.ops.loads.length := w64_toNat small
  rw [word]
  omega

theorem register_words : RegisterWords := fun s => by
  obtain ⟨prv, inh, handler, thread⟩ := s.tile.statusWord_fields
  refine ⟨rfl, rfl, rfl, rfl, rfl, prv, inh, handler, thread, rfl, rfl, fun k => ?perf, fun k => ?engine, fun h1 h2 h3 h4 h5 => ?ops⟩
  case perf => fin_cases k <;> exact ⟨rfl, rfl, rfl⟩
  case engine => fin_cases k <;> rfl
  case ops => exact Tile.opsWord_fields h1 h2 h3 h4 h5

end Sys2Proof.Machine

open Sys2Proof Sys2Proof.Machine

/-- Settles O10: the words of each group of registers by their fields, and those of QUERY leaf by leaf. -/
theorem stateWords : Obligations.StateWords := ⟨query_words, status_words, table_words, register_words⟩
end

section
/-! SUPPORT. Instructions that change the engine, the shingles and the outstanding operations of the tile (R165 to R168). -/

namespace Sys2Proof.Machine

/-- An issue that changes the engine and the outstanding operations alone. -/
theorem issuesHere_of_issued {s : State} {reads : List RegName} {f : Tile → Tile}
    (h : f s.tile = { s.tile.issued reads with eng := (f s.tile).eng, ops := (f s.tile).ops }) : IssuesHere s (s.upd f) := by
  obtain ⟨⟨id, gang, inb, -, ni, pl⟩, -, pad, regs, pc⟩ := s.tile.keeps_issuedWords 1 reads
  refine ⟨rfl, ?_⟩
  rw [State.upd_tile, h]
  exact ⟨id, gang, inb, ni, pl, pad, regs, pc, s.tile.issued_writes reads⟩

/-! ## MCFG -/

theorem mcfgOk_iff (k x : Nat) : mcfgOk k x = true ↔ (k = 0 → x % 16 ≤ 3 ∧ x / 16 % 16 ≤ 2) ∧ (k = 1 → 1 ≤ x % 128 ∧ x % 128 ≤ 64) ∧
    (k = 2 → 1 ≤ x % 256 ∧ x % 256 ≤ 128) := by
  match k with
  | 0 => simp [mcfgOk]
  | 1 => simp [mcfgOk]
  | 2 => simp [mcfgOk]
  | k + 3 => simp [mcfgOk]

/-- The two fields of MBASE, and the reserved bits between them (R31). -/
theorem and_mbase (x : Nat) : x &&& 0x7F7F = x % 128 + x / 256 % 128 * 256 := by
  have low : x &&& (2 ^ 7 - 1) = x % 2 ^ 7 := Nat.and_two_pow_sub_one_eq_mod ..
  have high := and_bits x 7 8
  have small : x % 2 ^ 7 < 2 ^ 8 := by omega
  rw [show (0x7F7F : Nat) = (2 ^ 7 - 1) * 2 ^ 8 ||| (2 ^ 7 - 1) from rfl, Nat.and_or_distrib_left, low, high, Nat.mul_comm,
    ← Nat.two_pow_add_eq_or_of_lt small]
  omega

/-- The bits of an engine register that MCFG writes (R31). -/
theorem mcfg_kept (w : Word) {k : Nat} (h : k < 6) : w &&& mcfgMask k = BitVec.ofNat 64
    (if k = 0 then w.toNat % 256 else if k = 1 then w.toNat % 128 else if k = 2 then w.toNat % 256
      else if k = 3 then w.toNat % 128 + w.toNat / 256 % 128 * 256 else if k = 4 then w.toNat % 2 ^ 19 else w.toNat % 64) := by
  have lt := w.isLt
  refine BitVec.eq_of_toNat_eq ?_
  rw [BitVec.toNat_and, BitVec.toNat_ofNat]
  interval_cases k
  · exact (and_low w 8).trans (by simp; omega)
  · exact (and_low w 7).trans (by simp; omega)
  · exact (and_low w 8).trans (by simp; omega)
  · exact (and_mbase w.toNat).trans (by simp; omega)
  · exact (and_low w 19).trans (by simp; omega)
  · exact (and_low w 6).trans (by simp; omega)

end Sys2Proof.Machine

open Sys2Proof Sys2Proof.Machine

/-- Settles O29: the two checks of MCFG are one, and the mask of each register keeps what is not reserved. -/
theorem engineRegisters : Obligations.EngineRegisters := fun s r a => by
  intro x ok kept hi
  refine ⟨fun hr hok => ?writes, fun bad hw => ?traps⟩
  case writes =>
    have passes : (decide (r.val > 5) || !mcfgOk r.val x) = false := by
      rw [(mcfgOk_iff r.val x).mpr hok, decide_eq_false (by omega)]
      rfl
    refine ⟨_, show execMcfg r a s = _ from issue_of_ok hi (by rw [passes, failIf_false, check_ok_bind]), ?_⟩
    simp only [dif_pos hr]
    refine ⟨issuesHere_of_issued (reads := [.g a]) rfl, s.tile.issued_ops _, ?_, fun j => ?_⟩
    · simp only [State.upd_tile, Tile.issued_eng]
    · show ((s.tile.issued [.g a]).eng.regs.set r.val _ hr).get j = _
      rw [Tile.issued_eng, ← mcfg_kept _ hr, vget_set _ ⟨r.val, hr⟩]
      exact if_congr Fin.ext_iff rfl rfl
  case traps =>
    have fails : (decide (r.val > 5) || !mcfgOk r.val x) = true := by
      rw [Bool.or_eq_true, decide_eq_true_iff, Bool.not_eq_true', ← Bool.not_eq_true, mcfgOk_iff]
      exact bad
    show ∃ t, execMcfg r a s = .next t ∧ _
    exact issue_causePlain hi hw (by decide) (by rw [fails, failIf_true, check_error_bind])
end

section
/-! SUPPORT. The engine operations at issue (R163 to R180): their geometry, the shingle that they name, and their checks in order. -/

namespace Sys2Proof.Machine

/-! ## Ranges of addresses -/

theorem mem_upFrom {a n k : Nat} : k ∈ upFrom a n ↔ a ≤ k ∧ k < a + n := by
  induction n generalizing a with
  | zero => simp [upFrom]
  | succ n ih =>
    rw [upFrom, List.mem_cons, ih]
    omega

/-- The lowest address of a range with a property. -/
theorem find_upFrom {p : Nat → Bool} {a n k : Nat} (hk : a ≤ k ∧ k < a + n) (hp : p k = true)
    (low : ∀ j, a ≤ j → j < a + n → p j = true → k ≤ j) : (upFrom a n).find? p = some k := by
  induction n generalizing a with
  | zero => omega
  | succ n ih =>
    rw [upFrom]
    cases ha : p a with
    | true =>
      have first : k = a := Nat.le_antisymm (low a (Nat.le_refl a) (by omega) ha) hk.1
      rw [List.find?_cons_of_pos ha, first]
    | false =>
      have later : a ≠ k := fun e => by simp [e, hp] at ha
      rw [List.find?_cons_of_neg (by simp [ha])]
      exact ih (by omega) fun j lo hi hj => low j (by omega) (by omega) hj

theorem find_upFrom_none {p : Nat → Bool} {a n : Nat} (h : ∀ j, a ≤ j → j < a + n → p j = false) : (upFrom a n).find? p = none :=
  List.find?_eq_none.mpr fun j hj => by simp [h j (mem_upFrom.mp hj).1 (mem_upFrom.mp hj).2]

/-! ## The named shingle -/

theorem Tile.namedTraps_open {t : Tile} {n : Fin 64} {x : Shingle} {role : ShRole} (c : Nat) (h : t.sh n = some x)
    (ho : x.st = .empty → role.emptyOk = true) : t.namedTraps n role c = .ok x := by
  rw [Tile.namedTraps, h]
  exact if_neg fun stops => by simp [ho stops.1] at stops

theorem Tile.namedTraps_undefined {t : Tile} {n : Fin 64} (role : ShRole) (c : Nat) (h : t.sh n = none) :
    t.namedTraps n role c = .error (.cause 0x09 (BitVec.ofNat 64 (1024 + n.val)) c) := by
  rw [Tile.namedTraps, h, shingleTval]
  simp

theorem Tile.namedTraps_empty {t : Tile} {n : Fin 64} {x : Shingle} {role : ShRole} (c : Nat) (h : t.sh n = some x) (he : x.st = .empty)
    (ho : role.emptyOk = false) : t.namedTraps n role c = .error (.cause 0x09 (BitVec.ofNat 64 n.val) c) := by
  rw [Tile.namedTraps, h]
  refine (if_pos ⟨he, by simp [ho]⟩).trans ?_
  rw [shingleTval]
  simp

theorem extentTrap_inside {n : Fin 64} {x : Shingle} {bytes : Nat} (c : Nat) (h : bytes ≤ x.len * 64) : extentTrap n x bytes c = .ok () := by
  rw [extentTrap, decide_eq_false (by omega), failIf_false]

theorem extentTrap_past {n : Fin 64} {x : Shingle} {bytes : Nat} (c : Nat) (h : x.len * 64 < bytes) :
    extentTrap n x bytes c = .error (.cause 0x09 (BitVec.ofNat 64 ((x.base + x.len * 64) * 2 ^ 32 + x.st.code * 256 + n.val)) c) := by
  rw [extentTrap, decide_eq_true h, failIf_true, shingleTval, Bool.toNat_false, Nat.zero_mul, Nat.add_zero]

/-- A shingle that is neither undefined nor EMPTY, and that holds the bytes of an operation, stops it at no trap (R166, R170). -/
theorem Tile.namedExtent_inside {t : Tile} {n : Fin 64} {x : Shingle} {off bytes : Nat} (h : t.sh n = some x) (ho : x.st ≠ .empty)
    (hx : off + bytes ≤ x.len * 64) : t.namedExtent n off bytes = .ok x := by
  rw [Tile.namedExtent, Tile.namedTraps_open 9 h fun e => absurd e ho, check_ok_bind, extentTrap_inside 9 hx, check_ok_bind]

theorem Tile.namedWaits_read {t : Tile} {n : Fin 64} {x : Shingle} (hr : x.st = .ready) : t.namedWaits n x .read = .ok () := by
  simp [Tile.namedWaits, hr, ShRole.holdWaits]

/-- The trap of a shingle that stops an engine instruction (R166, R170). -/
theorem Tile.namedExtent_trap {t : Tile} {a : Word} {bytes tval : Nat} (h : ShingleTrap t a bytes tval) :
    t.namedExtent (refSh a) (refOff a) bytes = .error (.cause 0x09 (BitVec.ofNat 64 tval) 9) := by
  obtain ⟨none, rfl⟩ | ⟨x, some, ⟨empty, rfl⟩ | ⟨nonempty, past, rfl⟩⟩ := h
  · rw [Tile.namedExtent, Tile.namedTraps_undefined _ _ none, check_error_bind]
  · rw [Tile.namedExtent, Tile.namedTraps_empty _ some empty rfl, check_error_bind]
  · rw [Tile.namedExtent, Tile.namedTraps_open 9 some fun e => absurd e nonempty, check_ok_bind, extentTrap_past 9 past, check_error_bind]
    cases x.st <;> rfl

theorem Tile.namedExtent_untrapped {t : Tile} {a : Word} {bytes : Nat} (h : ∀ v, ¬ShingleTrap t a bytes v) :
    ∃ x, t.namedExtent (refSh a) (refOff a) bytes = .ok x := by
  cases defined : t.sh (refSh a) with
  | none => exact absurd (.inl ⟨defined, rfl⟩) (h _)
  | some x =>
    have nonempty : x.st ≠ .empty := fun e => h _ (.inr ⟨x, defined, .inl ⟨e, rfl⟩⟩)
    refine ⟨x, Tile.namedExtent_inside defined nonempty (Nat.le_of_not_lt fun past => ?_)⟩
    exact h _ (.inr ⟨x, defined, .inr ⟨nonempty, past, rfl⟩⟩)

theorem Tile.namedExtent_ready {t : Tile} {a : Word} {bytes : Nat} (h : ReadyExtent t a bytes) :
    ∃ x, x.st = .ready ∧ t.namedExtent (refSh a) (refOff a) bytes = .ok x := by
  obtain ⟨x, defined, ready, inside⟩ := h
  exact ⟨x, ready, Tile.namedExtent_inside defined (by rw [ready]; decide) inside⟩

/-! ## The geometry -/

theorem fmtOf_names (c : Nat) : (c = 0 → fmtOf c = .lb4) ∧ (c = 1 → fmtOf c = .lb6) ∧ (c = 2 → fmtOf c = .lb8) ∧
    (c = 3 → fmtOf c = .lb12) := by
  refine ⟨?_, ?_, ?_, ?_⟩ <;> rintro rfl <;> rfl

theorem Tile.geom_read (t : Tile) (b : Word) : GeomRead t b (t.geom b) := by
  refine ⟨fmtOf_names _, fmtOf_names _, rfl, rfl, rfl, rfl, rfl, rfl, ?_, rfl⟩
  exact congrArg (· % 256) (Nat.div_one _)

/-- The K range and the CIM columns hold the geometry (R170). -/
def Geom.CimFits (g : Geom) : Prop := g.kbase + g.kb ≤ 64 ∧ g.c0 + g.n ≤ 128

/-- The accumulator holds the rectangle (R170). -/
def Geom.AccFits (g : Geom) : Prop := 1 ≤ g.m ∧ g.m ≤ 128 ∧ g.row0 + g.m ≤ 128 ∧ g.col0 + g.n ≤ 128

/-- No K-row that an operation reads is bad (R172). -/
def Tile.GoodRows (t : Tile) (g : Geom) : Prop :=
  ∀ k, 32 * g.kbase ≤ k → k < 32 * (g.kbase + g.kb) → t.eng.badRows.contains k = false

/-- A bad K-row that an operation reads (R172). -/
def Tile.BadRow (t : Tile) (g : Geom) (k : Nat) : Prop :=
  32 * g.kbase ≤ k ∧ k < 32 * (g.kbase + g.kb) ∧ t.eng.badRows.contains k = true

theorem Geom.badCim_false {g : Geom} (h : g.CimFits) : g.badCim = false :=
  decide_eq_false (by unfold Geom.CimFits at h; omega)

theorem Geom.badCim_true {g : Geom} (h : ¬g.CimFits) : g.badCim = true :=
  decide_eq_true (by unfold Geom.CimFits at h; omega)

theorem Geom.badAcc_false {g : Geom} (h : g.AccFits) : g.badAcc = false :=
  decide_eq_false (by unfold Geom.AccFits at h; omega)

theorem Geom.badAcc_true {g : Geom} (h : ¬g.AccFits) : g.badAcc = true :=
  decide_eq_true (by unfold Geom.AccFits at h; omega)

/-! ## Bad K-rows -/

theorem Tile.badRowTrap_good {t : Tile} {g : Geom}
    (h : t.GoodRows g) : t.badRowTrap g = .ok () := by
  rw [Tile.badRowTrap, Geom.krows, find_upFrom_none fun k lo hi => h k lo (by omega)]

/-- The lowest bad K-row that an operation reads stops it (R172). -/
theorem Tile.badRowTrap_lowest {t : Tile} {g : Geom} {k : Nat}
    (hk : t.BadRow g k)
    (low : ∀ j, t.BadRow g j → k ≤ j) :
    t.badRowTrap g = .error (.cause 0x0C (BitVec.ofNat 64 (k % 128 * 256 + k / 128)) 9) := by
  obtain ⟨lo, hi, bad⟩ := hk
  rw [Tile.badRowTrap, Geom.krows, find_upFrom ⟨lo, by omega⟩ bad fun j lo hi hj => low j ⟨lo, by omega, hj⟩]
  rfl

/-! ## The checks in order -/

section
variable {t : Tile} {i : Instr} {a : Word} {g : Geom}

theorem Tile.checkMma_ok (cim : g.CimFits)
    (acc : g.AccFits)
    (good : t.GoodRows g)
    (h : ReadyExtent t a ((g.m - 1) * g.rs (g.kb * blkBytes g.afmt) + g.kb * blkBytes g.afmt)) : t.checkMma i a g = .ok () := by
  obtain ⟨x, ready, extent⟩ := Tile.namedExtent_ready h
  simp only [Tile.checkMma, Geom.badCim_false cim, Geom.badAcc_false acc, Bool.or_self, failIf_false, check_ok_bind, extent,
    Tile.badRowTrap_good good, Tile.namedWaits_read ready]

theorem Geom.bad_of_not (h : ¬(g.CimFits ∧ g.AccFits)) : (g.badCim || g.badAcc) = true := by
  unfold Geom.CimFits Geom.AccFits at h
  rw [Bool.or_eq_true, Geom.badCim, Geom.badAcc, decide_eq_true_iff, decide_eq_true_iff]
  omega

theorem Tile.checkMma_illegal (h : ¬(g.CimFits ∧ g.AccFits)) :
    t.checkMma i a g = .error (.cause 0x01 (instrWord i)) := by
  simp only [Tile.checkMma, Geom.bad_of_not h, failIf_true, check_error_bind]

theorem Tile.checkMma_shingle {tval : Nat} (cim : g.CimFits)
    (acc : g.AccFits)
    (h : ShingleTrap t a ((g.m - 1) * g.rs (g.kb * blkBytes g.afmt) + g.kb * blkBytes g.afmt) tval) :
    t.checkMma i a g = .error (.cause 0x09 (BitVec.ofNat 64 tval) 9) := by
  simp only [Tile.checkMma, Geom.badCim_false cim, Geom.badAcc_false acc, Bool.or_self, failIf_false, check_ok_bind,
    Tile.namedExtent_trap h, check_error_bind]

theorem Tile.checkMma_badRow {k : Nat} (cim : g.CimFits)
    (acc : g.AccFits)
    (h : ∀ v, ¬ShingleTrap t a ((g.m - 1) * g.rs (g.kb * blkBytes g.afmt) + g.kb * blkBytes g.afmt) v)
    (hk : t.BadRow g k)
    (low : ∀ j, t.BadRow g j → k ≤ j) :
    t.checkMma i a g = .error (.cause 0x0C (BitVec.ofNat 64 (k % 128 * 256 + k / 128)) 9) := by
  obtain ⟨x, extent⟩ := Tile.namedExtent_untrapped h
  simp only [Tile.checkMma, Geom.badCim_false cim, Geom.badAcc_false acc, Bool.or_self, failIf_false, check_ok_bind, extent,
    Tile.badRowTrap_lowest hk low, check_error_bind]

variable {f : AccFmt}

theorem accSize_eq (f : AccFmt) : accSize f = if f = .f32 then 4 else 2 := by cases f <;> rfl

/-- The shingle's base, 0 for one that is undefined (R179). -/
theorem Tile.shBase_eq (t : Tile) (n : Fin 64) :
    (match t.sh n with | some x => x.base | none => 0) = (t.sh n).elim 0 Shingle.base := by cases t.sh n <;> rfl

theorem Tile.checkAccCopy_illegal (h : ¬g.AccFits) :
    t.checkAccCopy i a g f = .error (.cause 0x01 (instrWord i)) := by
  simp only [Tile.checkAccCopy, Geom.badAcc_true h, failIf_true, check_error_bind]

theorem Tile.checkAccCopy_offset (acc : g.AccFits)
    (h : refOff a % accSize f ≠ 0) :
    t.checkAccCopy i a g f = .error (.cause 0x04 (BitVec.ofNat 64 ((t.sh (refSh a)).elim 0 Shingle.base + refOff a)) 9) := by
  simp only [Tile.checkAccCopy, Geom.badAcc_false acc, failIf_false, check_ok_bind, decide_eq_true h, failIf_true, check_error_bind,
    ← Tile.shBase_eq]
  rfl

theorem Tile.checkAccCopy_stride (acc : g.AccFits)
    (ho : refOff a % accSize f = 0) (h : g.rs (g.n * accSize f) % accSize f ≠ 0) :
    t.checkAccCopy i a g f = .error (.cause 0x04
      (BitVec.ofNat 64 ((t.sh (refSh a)).elim 0 Shingle.base + refOff a + g.rs (g.n * accSize f))) 9) := by
  have aligned : decide (refOff a % accSize f ≠ 0) = false := decide_eq_false (not_not_intro ho)
  simp only [Tile.checkAccCopy, Geom.badAcc_false acc, failIf_false, check_ok_bind, aligned, decide_eq_true h, failIf_true, check_error_bind,
    ← Tile.shBase_eq]
  rfl

/-- MACC2S and MS2ACC past their alignment: what is left are the conditions of the shingle (R179, R180). -/
theorem Tile.checkAccCopy_aligned (acc : g.AccFits)
    (ho : refOff a % accSize f = 0) (hs : g.rs (g.n * accSize f) % accSize f = 0) :
    t.checkAccCopy i a g f = t.namedExtent (refSh a) (refOff a) ((g.m - 1) * g.rs (g.n * accSize f) + g.n * accSize f) >>= fun x =>
      t.namedWaits (refSh a) x .read := by
  have aligned : decide (refOff a % accSize f ≠ 0) = false := decide_eq_false (not_not_intro ho)
  have rows : decide (g.rs (g.n * accSize f) % accSize f ≠ 0) = false := decide_eq_false (not_not_intro hs)
  simp only [Tile.checkAccCopy, Geom.badAcc_false acc, failIf_false, check_ok_bind, aligned, rows]

theorem Tile.checkAccCopy_ok (acc : g.AccFits) (ho : refOff a % accSize f = 0) (hs : g.rs (g.n * accSize f) % accSize f = 0)
    (h : ReadyExtent t a ((g.m - 1) * g.rs (g.n * accSize f) + g.n * accSize f)) : t.checkAccCopy i a g f = .ok () := by
  obtain ⟨x, ready, extent⟩ := Tile.namedExtent_ready h
  rw [Tile.checkAccCopy_aligned acc ho hs, extent, check_ok_bind, Tile.namedWaits_read ready]

theorem Tile.checkAccCopy_shingle {tval : Nat} (acc : g.AccFits) (ho : refOff a % accSize f = 0)
    (hs : g.rs (g.n * accSize f) % accSize f = 0)
    (h : ShingleTrap t a ((g.m - 1) * g.rs (g.n * accSize f) + g.n * accSize f) tval) :
    t.checkAccCopy i a g f = .error (.cause 0x09 (BitVec.ofNat 64 tval) 9) := by
  rw [Tile.checkAccCopy_aligned acc ho hs, Tile.namedExtent_trap h, check_error_bind]

end

/-! ## Entry into class MX -/

/-- An issue that enters an operation of class MX. -/
theorem Tile.entersMx_issued {s : State} {k : MxKind} {g : Geom} {sh : Option (Fin 64)} {off : Nat} {reads : List RegName} :
    let f (t : Tile) := (t.issued reads).pushMx k g sh off
    IssuesHere s (s.upd f) ∧ (s.upd f).tile.eng = s.tile.eng ∧ EntersMx s (s.upd f) k g sh off := by
  refine ⟨issuesHere_of_issued (reads := reads) rfl, s.tile.issued_eng reads, ?_⟩
  rw [EntersMx, State.upd_tile, Tile.pushMx, Tile.issued_ops]

/-- The MMATs of a joined tile are numbered (R176). -/
def Tile.countMmat (t : Tile) : Tile := { t with eng := { t.eng with mmats := t.eng.mmats + 1 } }

theorem Tile.entersMmat_issued {s : State} {k : MxKind} {g : Geom} {sh : Option (Fin 64)} {off : Nat} {reads : List RegName} :
    let f (t : Tile) := ((t.issued reads).pushMx k g sh off).countMmat
    IssuesHere s (s.upd f) ∧ (s.upd f).tile.eng = { s.tile.eng with mmats := s.tile.eng.mmats + 1 } ∧ EntersMx s (s.upd f) k g sh off := by
  refine ⟨issuesHere_of_issued (reads := reads) rfl, ?_, ?_⟩
  · simp only [State.upd_tile, Tile.countMmat, Tile.pushMx, Tile.issued_eng]
  · rw [EntersMx, State.upd_tile, Tile.countMmat, Tile.pushMx, Tile.issued_ops]

theorem entersMx_of {s : State} {i : Instr} {n : Need} {body : State → Except Stop State} {k : MxKind} {g : Geom} {sh : Option (Fin 64)}
    {off : Nat} (he : exec i s = issue n body s) (hi : s.tile.canIssue n)
    (hb : body s = .ok (s.upd fun t => (t.issued n.reads).pushMx k g sh off)) :
    ∃ t, exec i s = .next t ∧ IssuesHere s t ∧ t.tile.eng = s.tile.eng ∧ EntersMx s t k g sh off :=
  ⟨_, he.trans (issue_of_ok hi hb), Tile.entersMx_issued⟩

theorem entersMmat_of {s : State} {i : Instr} {n : Need} {body : State → Except Stop State} {k : MxKind} {g : Geom}
    {sh : Option (Fin 64)} {off : Nat} (he : exec i s = issue n body s) (hi : s.tile.canIssue n)
    (hb : body s = .ok (s.upd fun t => ((t.issued n.reads).pushMx k g sh off).countMmat)) :
    ∃ t, exec i s = .next t ∧ IssuesHere s t ∧ t.tile.eng = { s.tile.eng with mmats := s.tile.eng.mmats + 1 } ∧ EntersMx s t k g sh off :=
  ⟨_, he.trans (issue_of_ok hi hb), Tile.entersMmat_issued⟩

/-- A check that fails with a trap of a form whose traps record an access class. -/
theorem trapsWith_of {s : State} {i : Instr} {n : Need} {body : State → Except Stop State} {cause aclass : Nat} {tval : Word}
    (he : exec i s = issue n body s) (hi : s.tile.canIssue n) (hw : s.tile.ex.cw = none) (hc : cause ∉ [0x02, 0x0A, 0x0B])
    (ha : aclass ≠ 1 ∧ aclass < 16) (hb : body s = .error (.cause cause tval aclass)) : TrapsWith s i aclass cause tval := by
  rw [TrapsWith, he]
  exact issue_cause hi hw hc ha hb

end Sys2Proof.Machine
end

section
/-! SUPPORT. Where the engine operations enter class MX, and where they trap (R35, R37, R163 to R180): each instruction by its check. -/

namespace Sys2Proof.Machine

section
variable {s : State} {a b : GReg} {clr : Bool} {f : AccFmt} {cause aclass : Nat} {tval : Word}

/-! ## MLOADB and MZERO -/

theorem mloadb_enters (hi : s.tile.canIssue { regs := [.g a, .g b], reads := [.g a, .g b], cls := some .mx })
    (hc : (s.tile.geom (s.tile.g b)).CimFits)
    (he : ReadyExtent s.tile (s.tile.g a) (((s.tile.geom (s.tile.g b)).n - 1) * (s.tile.geom (s.tile.g b)).rs
      ((s.tile.geom (s.tile.g b)).kb * blkBytes (s.tile.geom (s.tile.g b)).bfmt) +
      (s.tile.geom (s.tile.g b)).kb * blkBytes (s.tile.geom (s.tile.g b)).bfmt)) :
    ∃ t, exec (.mloadb a b) s = .next t ∧ IssuesHere s t ∧ t.tile.eng = s.tile.eng ∧
      EntersMx s t .mloadb (s.tile.geom (s.tile.g b)) (some (refSh (s.tile.g a))) (refOff (s.tile.g a)) := by
  obtain ⟨y, ready, extent⟩ := Tile.namedExtent_ready he
  refine entersMx_of (show execMloadb a b s = _ from rfl) hi ?_
  simp only [Geom.badCim_false hc, failIf_false, check_ok_bind, extent, Tile.namedWaits_read ready]
  rfl

theorem mloadb_illegal (hi : s.tile.canIssue { regs := [.g a, .g b], reads := [.g a, .g b], cls := some .mx })
    (hw : s.tile.ex.cw = none) (hc : ¬(s.tile.geom (s.tile.g b)).CimFits) :
    TrapsWith s (.mloadb a b) 0 0x01 (instrWord (.mloadb a b)) :=
  trapsWith_of (show execMloadb a b s = _ from rfl) hi hw (by decide) (by decide)
    (by simp only [Geom.badCim_true hc, failIf_true, check_error_bind])

theorem mloadb_shingle {tval : Nat} (hi : s.tile.canIssue { regs := [.g a, .g b], reads := [.g a, .g b], cls := some .mx })
    (hw : s.tile.ex.cw = none) (hc : (s.tile.geom (s.tile.g b)).CimFits)
    (he : ShingleTrap s.tile (s.tile.g a) (((s.tile.geom (s.tile.g b)).n - 1) * (s.tile.geom (s.tile.g b)).rs
      ((s.tile.geom (s.tile.g b)).kb * blkBytes (s.tile.geom (s.tile.g b)).bfmt) +
      (s.tile.geom (s.tile.g b)).kb * blkBytes (s.tile.geom (s.tile.g b)).bfmt) tval) :
    TrapsWith s (.mloadb a b) 9 0x09 (BitVec.ofNat 64 tval) :=
  trapsWith_of (show execMloadb a b s = _ from rfl) hi hw (by decide) (by decide)
    (by simp only [Geom.badCim_false hc, failIf_false, check_ok_bind, Tile.namedExtent_trap he, check_error_bind])

theorem mzero_enters (hi : s.tile.canIssue { regs := [.g b], reads := [.g b], cls := some .mx })
    (ha : (s.tile.geom (s.tile.g b)).AccFits) :
    ∃ t, exec (.mzero b) s = .next t ∧ IssuesHere s t ∧ t.tile.eng = s.tile.eng ∧
      EntersMx s t .mzero (s.tile.geom (s.tile.g b)) none 0 :=
  entersMx_of (show execMzero b s = _ from rfl) hi (by simp only [Geom.badAcc_false ha, failIf_false, check_ok_bind])

theorem mzero_illegal (hi : s.tile.canIssue { regs := [.g b], reads := [.g b], cls := some .mx }) (hw : s.tile.ex.cw = none)
    (ha : ¬(s.tile.geom (s.tile.g b)).AccFits) : TrapsWith s (.mzero b) 0 0x01 (instrWord (.mzero b)) :=
  trapsWith_of (show execMzero b s = _ from rfl) hi hw (by decide) (by decide)
    (by simp only [Geom.badAcc_true ha, failIf_true, check_error_bind])

/-! ## MMA and MMAT -/

variable (hi : s.tile.canIssue { regs := [.g a, .g b], reads := [.g a, .g b], cls := some .mx }) (hw : s.tile.ex.cw = none)
  (hc : cause ∉ [0x02, 0x0A, 0x0B]) (ha : aclass ≠ 1 ∧ aclass < 16)
include hi

theorem mma_enters (h : s.tile.checkMma (.mma a b) (s.tile.g a) (s.tile.geom (s.tile.g b)) = .ok ()) :
    ∃ t, exec (.mma a b) s = .next t ∧ IssuesHere s t ∧ t.tile.eng = s.tile.eng ∧
      EntersMx s t .mma (s.tile.geom (s.tile.g b)) (some (refSh (s.tile.g a))) (refOff (s.tile.g a)) :=
  entersMx_of (show execMma a b s = _ from rfl) hi (by simp only [h, check_ok_bind]; rfl)

theorem mmat_alone_enters (hj : s.tile.eng.joined = false)
    (h : s.tile.checkMma (.mmat a b) (s.tile.g a) (s.tile.geom (s.tile.g b)) = .ok ()) :
    ∃ t, exec (.mmat a b) s = .next t ∧ IssuesHere s t ∧ t.tile.eng = s.tile.eng ∧
      EntersMx s t (.mmat false true 0) (s.tile.geom (s.tile.g b)) (some (refSh (s.tile.g a))) (refOff (s.tile.g a)) :=
  entersMx_of (show execMmat a b s = _ from rfl) hi (by simp only [hj, Bool.not_false, if_true, h, check_ok_bind]; rfl)

theorem mmat_source_enters (hj : s.tile.eng.joined = true) (hp : s.tile.eng.pos.val % 3 = 0)
    (h : s.tile.checkMma (.mmat a b) (s.tile.g a) (s.tile.geom (s.tile.g b)) = .ok ()) :
    ∃ t, exec (.mmat a b) s = .next t ∧ IssuesHere s t ∧ t.tile.eng = { s.tile.eng with mmats := s.tile.eng.mmats + 1 } ∧
      EntersMx s t (.mmat true true s.tile.eng.mmats) (s.tile.geom (s.tile.g b)) (some (refSh (s.tile.g a))) (refOff (s.tile.g a)) := by
  have source : s.tile.eng.isSource = true := decide_eq_true hp
  refine entersMmat_of (show execMmat a b s = _ from rfl) hi ?_
  simp only [hj, source, Bool.not_true, Bool.false_eq_true, if_false, if_true, h, check_ok_bind]
  rfl

theorem mmat_member_enters (hj : s.tile.eng.joined = true) (hp : s.tile.eng.pos.val % 3 ≠ 0) (cim : (s.tile.geom (s.tile.g b)).CimFits)
    (acc : (s.tile.geom (s.tile.g b)).AccFits) (good : s.tile.GoodRows (s.tile.geom (s.tile.g b))) :
    ∃ t, exec (.mmat a b) s = .next t ∧ IssuesHere s t ∧ t.tile.eng = { s.tile.eng with mmats := s.tile.eng.mmats + 1 } ∧
      EntersMx s t (.mmat true false s.tile.eng.mmats) (s.tile.geom (s.tile.g b)) none 0 := by
  have member : s.tile.eng.isSource = false := decide_eq_false hp
  refine entersMmat_of (show execMmat a b s = _ from rfl) hi ?_
  simp only [hj, member, Bool.not_true, Bool.false_eq_true, if_false, Geom.badCim_false cim, Geom.badAcc_false acc, Bool.or_self,
    failIf_false, Tile.badRowTrap_good good, check_ok_bind]
  rfl

include hw hc ha

theorem mma_traps (h : s.tile.checkMma (.mma a b) (s.tile.g a) (s.tile.geom (s.tile.g b)) = .error (.cause cause tval aclass)) :
    TrapsWith s (.mma a b) aclass cause tval :=
  trapsWith_of (show execMma a b s = _ from rfl) hi hw hc ha (by simp only [h, check_error_bind])

/-- MMAT of a tile in no truss, or of the source of a row of its truss, traps as MMA does (R176). -/
theorem mmat_traps (hs : s.tile.eng.joined = false ∨ s.tile.eng.pos.val % 3 = 0)
    (h : s.tile.checkMma (.mmat a b) (s.tile.g a) (s.tile.geom (s.tile.g b)) = .error (.cause cause tval aclass)) :
    TrapsWith s (.mmat a b) aclass cause tval := by
  refine trapsWith_of (show execMmat a b s = _ from rfl) hi hw hc ha ?_
  cases hj : s.tile.eng.joined with
  | false => simp only [hj, Bool.not_false, if_true, h, check_error_bind]
  | true =>
    have source : s.tile.eng.isSource = true := decide_eq_true (hs.resolve_left (by simp [hj]))
    simp only [hj, source, Bool.not_true, Bool.false_eq_true, if_false, if_true, h, check_error_bind]

omit hc ha in
theorem mmat_member_illegal (hj : s.tile.eng.joined = true) (hp : s.tile.eng.pos.val % 3 ≠ 0)
    (h : ¬((s.tile.geom (s.tile.g b)).CimFits ∧ (s.tile.geom (s.tile.g b)).AccFits)) :
    TrapsWith s (.mmat a b) 0 0x01 (instrWord (.mmat a b)) := by
  have member : s.tile.eng.isSource = false := decide_eq_false hp
  refine trapsWith_of (show execMmat a b s = _ from rfl) hi hw (by decide) (by decide) ?_
  simp only [hj, member, Bool.not_true, Bool.false_eq_true, if_false, Geom.bad_of_not h, failIf_true, check_error_bind]

omit hc ha in
theorem mmat_member_badRow {k : Nat} (hj : s.tile.eng.joined = true) (hp : s.tile.eng.pos.val % 3 ≠ 0)
    (cim : (s.tile.geom (s.tile.g b)).CimFits) (acc : (s.tile.geom (s.tile.g b)).AccFits)
    (hk : s.tile.BadRow (s.tile.geom (s.tile.g b)) k) (low : ∀ j, s.tile.BadRow (s.tile.geom (s.tile.g b)) j → k ≤ j) :
    TrapsWith s (.mmat a b) 9 0x0C (BitVec.ofNat 64 (k % 128 * 256 + k / 128)) := by
  have member : s.tile.eng.isSource = false := decide_eq_false hp
  refine trapsWith_of (show execMmat a b s = _ from rfl) hi hw (by decide) (by decide) ?_
  simp only [hj, member, Bool.not_true, Bool.false_eq_true, if_false, Geom.badCim_false cim, Geom.badAcc_false acc, Bool.or_self,
    failIf_false, Tile.badRowTrap_lowest hk low, check_ok_bind, check_error_bind]

/-! ## MACC2S and MS2ACC -/

omit hw hc ha in
theorem macc2s_enters (h : s.tile.checkAccCopy (.macc2s a b clr f) (s.tile.g a) (s.tile.geom (s.tile.g b)) f = .ok ()) :
    ∃ t, exec (.macc2s a b clr f) s = .next t ∧ IssuesHere s t ∧ t.tile.eng = s.tile.eng ∧
      EntersMx s t (.macc2s clr f s.tile.regs.fmode.val) (s.tile.geom (s.tile.g b)) (some (refSh (s.tile.g a))) (refOff (s.tile.g a)) :=
  entersMx_of (show execMacc2s a b clr f s = _ from rfl) hi (by simp only [h, check_ok_bind]; rfl)

omit hw hc ha in
theorem ms2acc_enters (h : s.tile.checkAccCopy (.ms2acc a b f) (s.tile.g a) (s.tile.geom (s.tile.g b)) f = .ok ()) :
    ∃ t, exec (.ms2acc a b f) s = .next t ∧ IssuesHere s t ∧ t.tile.eng = s.tile.eng ∧
      EntersMx s t (.ms2acc f) (s.tile.geom (s.tile.g b)) (some (refSh (s.tile.g a))) (refOff (s.tile.g a)) :=
  entersMx_of (show execMs2acc a b f s = _ from rfl) hi (by simp only [h, check_ok_bind]; rfl)

theorem macc2s_traps (h : s.tile.checkAccCopy (.macc2s a b clr f) (s.tile.g a) (s.tile.geom (s.tile.g b)) f =
    .error (.cause cause tval aclass)) : TrapsWith s (.macc2s a b clr f) aclass cause tval :=
  trapsWith_of (show execMacc2s a b clr f s = _ from rfl) hi hw hc ha (by simp only [h, check_error_bind])

theorem ms2acc_traps (h : s.tile.checkAccCopy (.ms2acc a b f) (s.tile.g a) (s.tile.geom (s.tile.g b)) f =
    .error (.cause cause tval aclass)) : TrapsWith s (.ms2acc a b f) aclass cause tval :=
  trapsWith_of (show execMs2acc a b f s = _ from rfl) hi hw hc ha (by simp only [h, check_error_bind])

end

/-! ## The obligation's two halves -/

theorem operations_enter : OperationsEnter := fun s a b clr f => by
  intro x g cim acc rs rows arow good es free enters multiply copy
  have size : accSize f = es := accSize_eq f
  refine ⟨s.tile.geom_read _, fun hi hc he => mloadb_enters hi hc he, fun hi ha => mzero_enters hi ha, fun hi hm => ?mma,
    fun hi hj hm => ?alone, fun hi hj hp hm => ?source, fun hi hj hp hc ha hg => mmat_member_enters hi hj hp hc ha hg,
    fun hi hk => ?macc2s, fun hi hk => ?ms2acc⟩
  case mma =>
    obtain ⟨hc, ha, hg, he⟩ := hm
    exact mma_enters hi (Tile.checkMma_ok hc ha hg he)
  case alone =>
    obtain ⟨hc, ha, hg, he⟩ := hm
    exact mmat_alone_enters hi hj (Tile.checkMma_ok hc ha hg he)
  case source =>
    obtain ⟨hc, ha, hg, he⟩ := hm
    exact mmat_source_enters hi hj hp (Tile.checkMma_ok hc ha hg he)
  case macc2s =>
    obtain ⟨ha, ho, hs, he⟩ := hk
    exact macc2s_enters hi (Tile.checkAccCopy_ok ha (size ▸ ho) (size ▸ hs) (size ▸ he))
  case ms2acc =>
    obtain ⟨ha, ho, hs, he⟩ := hk
    exact ms2acc_enters hi (Tile.checkAccCopy_ok ha (size ▸ ho) (size ▸ hs) (size ▸ he))

theorem engine_traps : EngineTraps := fun s a b clr f tval hw => by
  intro t x g cim acc rs bytes arow badRow lowest es base illegal traps free multiply copy
  have size : accSize f = es := accSize_eq f
  have multiply_of {i : Instr} (stops : ∀ {cause aclass : Nat} {tval : Word}, cause ∉ [0x02, 0x0A, 0x0B] → aclass ≠ 1 ∧ aclass < 16 →
      t.checkMma i x g = .error (.cause cause tval aclass) → TrapsWith s i aclass cause tval) : multiply i := by
    refine ⟨fun h => stops (by decide) (by decide) (Tile.checkMma_illegal h), fun hc ha => ⟨fun he => ?_, fun he hl => ?_⟩⟩
    · exact stops (by decide) (by decide) (Tile.checkMma_shingle hc ha he)
    · obtain ⟨k, bad, low, rfl⟩ := hl
      exact stops (by decide) (by decide) (Tile.checkMma_badRow hc ha he bad low)
  have copy_of {i : Instr} (stops : ∀ {cause aclass : Nat} {tval : Word}, cause ∉ [0x02, 0x0A, 0x0B] → aclass ≠ 1 ∧ aclass < 16 →
      t.checkAccCopy i x g f = .error (.cause cause tval aclass) → TrapsWith s i aclass cause tval) : copy i := by
    refine ⟨fun h => stops (by decide) (by decide) (Tile.checkAccCopy_illegal h), fun ha => ⟨?_, ?_, fun ho hs he => ?_⟩⟩
    · rintro ho rfl
      exact stops (by decide) (by decide) (Tile.checkAccCopy_offset ha (size ▸ ho))
    · rintro ho hs rfl
      exact stops (by decide) (by decide) (size ▸ Tile.checkAccCopy_stride ha (size ▸ ho) (size ▸ hs))
    · exact stops (by decide) (by decide) (Tile.checkAccCopy_shingle ha (size ▸ ho) (size ▸ hs) (size ▸ he))
  refine ⟨fun hi ha => mzero_illegal hi hw ha, fun hi => ⟨fun hc => mloadb_illegal hi hw hc, fun hc he => mloadb_shingle hi hw hc he,
    multiply_of fun hc ha h => mma_traps hi hw hc ha h, copy_of fun hc ha h => macc2s_traps hi hw hc ha h,
    copy_of fun hc ha h => ms2acc_traps hi hw hc ha h, fun hs => multiply_of fun hc ha h => mmat_traps hi hw hc ha hs h,
    fun hj hp => ⟨fun h => mmat_member_illegal hi hw hj hp h, fun hc ha hl => ?_⟩⟩⟩
  obtain ⟨k, bad, low, rfl⟩ := hl
  exact mmat_member_badRow hi hw hj hp hc ha bad low

end Sys2Proof.Machine

open Sys2Proof Sys2Proof.Machine

/-- Settles O30: each engine operation by its check, whose conditions stand in the order of the traps. -/
theorem engineOperations : Obligations.EngineOperations := ⟨operations_enter, engine_traps⟩
end

section
/-! SUPPORT. MSWAP, MJOIN and MLEAVE at issue (R174, R175, R177, R182): the exchange counts, the members of a plan, and the notices to
them. -/

namespace Sys2Proof.Machine

/-! ## Tables and shingles -/

theorem tget_tset {α : Type} (d : α) (l : List (Nat × α)) (k : Nat) (x : α) (r : Nat) :
    tget d (tset l k x) r = if r = k then x else tget d l r := by
  induction l with
  | nil =>
    by_cases e : k = r
    · simp [tset, tget, e]
    · simp [tset, tget, e, Ne.symm e]
  | cons y l ih =>
    obtain ⟨j, y⟩ := y
    rw [tset]
    by_cases e : j = k
    · subst e
      rw [if_pos rfl, tget, tget]
      by_cases f : j = r
      · simp [f]
      · rw [if_neg f, if_neg f, if_neg (Ne.symm f)]
    · rw [if_neg e, tget, tget, ih]
      by_cases f : j = r
      · rw [if_pos f, if_pos f, if_neg (f ▸ e)]
      · rw [if_neg f, if_neg f]

theorem Tile.sh_setSh (t : Tile) (n j : Fin 64) (x : Option Shingle) : (t.setSh n x).sh j = if j = n then x else t.sh j :=
  vget_set t.eng.shingles n j x

theorem bitsOf_low (x hi : Nat) : bitsOf x hi 0 = x % 2 ^ (hi + 1) := congrArg (· % 2 ^ (hi + 1)) (Nat.div_one x)

/-! ## The members of a plan -/

/-- Rows of equal length, one behind another. -/
theorem flatMap_range {α : Type} (f : Nat → Nat → α) (r c : Nat) :
    ((List.range r).flatMap fun t => (List.range c).map (f t)) = (List.range (r * c)).map fun k => f (k / c) (k % c) := by
  induction r with
  | zero => simp
  | succ r ih =>
    rw [List.range_succ, List.flatMap_append, ih, Nat.succ_mul, List.range_add, List.map_append, List.map_map]
    congr 1
    rw [List.flatMap_singleton]
    refine List.map_congr_left fun k hk => ?_
    have hc := List.mem_range.mp hk
    rw [Function.comp_apply, Nat.add_comm, Nat.add_mul_div_right _ _ (by omega), Nat.add_mul_mod_self_right, Nat.div_eq_of_lt hc,
      Nat.mod_eq_of_lt hc, Nat.zero_add]

theorem Tile.notices_eq (t : Tile) (p : Plan) (plan : Nat) (leave : Bool) : t.notices p plan leave =
    (List.range (p.rows * p.cols)).map fun k =>
      ⟨0, { t.id with vt := (p.row0 + k / p.cols) * 4096 + (p.col0 + k % p.cols) }, none, t.id.vt, plan, leave⟩ := by
  rw [Tile.notices, Plan.members, flatMap_range, List.map_map]
  rfl

/-- A tile outside the rectangle of a plan has no position in it (R174, R175). -/
theorem Plan.posOf_none {p : Plan} {vt : Nat} (h : ∀ r c, r < p.rows → c < p.cols → vt ≠ (p.row0 + r) * 4096 + (p.col0 + c)) :
    p.posOf vt = none := by
  rw [Plan.posOf, Option.map_eq_none_iff, List.find?_eq_none]
  intro m hm
  simp only [Plan.members, List.mem_flatMap, List.mem_map, List.mem_range] at hm
  obtain ⟨r, hr, c, hc, rfl⟩ := hm
  simpa using Ne.symm (h r c hr hc)

/-! ## Notices -/

/-- A notice before it leaves. -/
def Notice.bare (x : Notice) : Notice := { x with serial := 0, phys := none }

theorem Notifies.refl (s : State) : Notifies s s [] := ⟨rfl, [], by simp, rfl⟩

theorem Notifies.trans {s t u : State} {k l : List Notice} (h : Notifies s t k) (h' : Notifies t u l) : Notifies s u (k ++ l) := by
  obtain ⟨fab, new, notices, told⟩ := h
  obtain ⟨fab', new', notices', told'⟩ := h'
  refine ⟨?_, new ++ new', by rw [notices', notices, List.append_assoc], by rw [List.map_append, told, told']⟩
  rw [fab', fab]

/-- A packet changes the serial number and the flits of the fabric alone. -/
theorem State.packet_fab (s : State) (m : Bool) (src : Nat) (dst : Option Nat) :
    s.packet m src dst = { s with fab := { s.fab with serial := (s.packet m src dst).fab.serial, flits := (s.packet m src dst).fab.flits
                                                      moves := (s.packet m src dst).fab.moves } } := by
  cases dst <;> rfl

theorem State.sendNotice_next (s : State) (x : Notice) :
    let t := s.sendNotices [x]
    t = { s with fab := t.fab } ∧ Notifies s t [x.bare] := by
  have fab := State.packet_fab s false s.tile.pl.phys (s.seen x.dst s.tile.pl.phys)
  generalize hp : s.packet false s.tile.pl.phys (s.seen x.dst s.tile.pl.phys) = p at fab
  have e : s.sendNotices [x] = { p with fab := { p.fab with
      notices := p.fab.notices ++ [{ x with serial := s.fab.serial, phys := s.seen x.dst s.tile.pl.phys }] } } := by
    rw [← hp]; rfl
  rw [e, fab]
  exact ⟨rfl, rfl, _, rfl, rfl⟩

theorem State.sendNotices_next (s : State) (l : List Notice) :
    let t := s.sendNotices l
    t = { s with fab := t.fab } ∧ Notifies s t (l.map Notice.bare) := by
  induction l generalizing s with
  | nil => exact ⟨rfl, Notifies.refl s⟩
  | cons x l ih =>
    obtain ⟨same, told⟩ := s.sendNotice_next x
    obtain ⟨same', told'⟩ := ih (s.sendNotices [x])
    have chain : (s.sendNotices [x]).sendNotices l = { s with fab := ((s.sendNotices [x]).sendNotices l).fab } :=
      same'.trans (congrArg (fun v : State => { v with fab := ((s.sendNotices [x]).sendNotices l).fab }) same)
    exact ⟨chain, Notifies.trans told told'⟩

/-- Notices go to every member of the plan, and nothing but the fabric changes (R175, R177). -/
theorem State.sendNotices_plan (s : State) (t : Tile) (p : Plan) (plan : Nat) (leave : Bool) :
    let u := s.sendNotices (t.notices p plan leave)
    u = { s with fab := u.fab } ∧ u.tile = s.tile ∧ Notifies s u ((List.range (p.rows * p.cols)).map fun k =>
      ⟨0, { t.id with vt := (p.row0 + k / p.cols) * 4096 + (p.col0 + k % p.cols) }, none, t.id.vt, plan, leave⟩) := by
  obtain ⟨same, told⟩ := s.sendNotices_next (t.notices p plan leave)
  refine ⟨same, by rw [same], ?_⟩
  have bare : (t.notices p plan leave).map Notice.bare = t.notices p plan leave := by
    rw [Tile.notices, List.map_map]
    rfl
  rw [bare] at told
  exact (t.notices_eq p plan leave) ▸ told

theorem IssuesHere.of_fab {s u v : State} (h : IssuesHere s u) (he : v = { u with fab := v.fab }) : IssuesHere { s with fab := v.fab } v := by
  obtain ⟨same, rest⟩ := h
  have tile : v.tile = u.tile := by rw [he]
  refine ⟨?_, ?_⟩
  · rw [SameModule] at same ⊢
    rw [he, same]
  · rw [tile]
    exact rest

/-! ## The instructions -/

/-- The tile of an MSWAP that issues: its operation is entered, its shingle fills, and the exchange is counted (R182). -/
def Tile.startSwap (t : Tile) (reads : List RegName) (n : Fin 64) (q : Nat) : Tile :=
  let k := tget 0 t.eng.mswaps q
  let u := ((t.issued reads).pushMx (.mswap q k) (t.geom 0) (some n) 0).startFill n 0
  { u with eng := { u.eng with mswaps := tset u.eng.mswaps q (k + 1) } }

theorem Tile.startSwap_eng (t : Tile) (reads : List RegName) (n : Fin 64) (q : Nat) :
    (t.startSwap reads n q).eng = { t.eng with
      shingles := t.eng.shingles.set n.val ((t.sh n).map fun x => { x with st := .filling, wmark := 0, fctr := 0 }) n.isLt
      mswaps := tset t.eng.mswaps q (tget 0 t.eng.mswaps q + 1) } := by
  simp only [Tile.startSwap, Tile.startFill, Tile.setSh, Tile.pushMx, Tile.sh, Tile.issued_eng]

theorem startSwap_enters (s : State) (reads : List RegName) (q : Nat) {n : Fin 64} {x : Shingle} (h : s.tile.sh n = some x) :
    let t := s.upd fun t => t.startSwap reads n q
    IssuesHere s t ∧ EntersMx s t (.mswap q (tget 0 s.tile.eng.mswaps q)) (s.tile.geom 0) (some n) 0 ∧
      t.tile.eng = { s.tile.eng with shingles := t.tile.eng.shingles, mswaps := t.tile.eng.mswaps } ∧
      (∀ r, tget 0 t.tile.eng.mswaps r = tget 0 s.tile.eng.mswaps r + if r = q then 1 else 0) ∧
      ∀ j, t.tile.sh j = if j = n then some { x with st := .filling, wmark := 0, fctr := 0 } else s.tile.sh j := by
  refine ⟨issuesHere_of_issued (reads := reads) rfl, ?_, ?_, fun r => ?_, fun j => ?_⟩
  · rw [EntersMx]
    simp only [State.upd_tile, Tile.startSwap, Tile.startFill, Tile.setSh, Tile.pushMx, Tile.issued_ops]
  · rw [State.upd_tile, Tile.startSwap_eng]
  · rw [State.upd_tile, Tile.startSwap_eng, tget_tset]
    by_cases e : r = q
    · rw [if_pos e, if_pos e, e]
    · rw [if_neg e, if_neg e, Nat.add_zero]
  · rw [State.upd_tile, Tile.sh, Tile.startSwap_eng, vget_set, h]
    rfl

section
variable {s : State} {a b : GReg} {p : Plan} {pos : Nat} {x : Shingle}

theorem mswap_next (hi : s.tile.canIssue { regs := [.g a, .g b], reads := [.g a, .g b], cls := some .mx })
    (hq : inGrid s.tile.gang.rows s.tile.gang.cols ((s.tile.g b).toNat % 2 ^ 24) = true) (hx : s.tile.sh (refSh (s.tile.g a)) = some x)
    (hr : x.st = .ready) (hh : s.tile.holds (refSh (s.tile.g a)) = false) :
    exec (.mswap a b) s =
      .next (s.upd fun t => t.startSwap [.g a, .g b] (refSh (s.tile.g a)) ((s.tile.g b).toNat % 2 ^ 24)) := by
  have waits : s.tile.namedWaits (refSh (s.tile.g a)) x .swap = .ok () := by simp [Tile.namedWaits, hr, hh]
  refine show execMswap a b s = _ from issue_of_ok hi ?_
  simp only [bitsOf_low, hq, Bool.not_true, failIf_false, check_ok_bind, waits,
    Tile.namedTraps_open (role := .swap) 9 hx fun e => ShState.noConfusion (hr.symm.trans e)]
  rfl

/-- The tile of an MJOIN that issues (R175). -/
def Tile.startJoin (t : Tile) (reads : List RegName) (k pos serial : Nat) : Tile :=
  let u := (t.issued reads).pushMx (.mjoin k) (t.geom 0) none 0
  { u with eng := { u.eng with joined := true, pos := Fin.ofNat 6 pos, plan := BitVec.ofNat 16 k, joinSerial := serial, mmats := 0 } }

theorem mjoin_next (hi : s.tile.canIssue { regs := [.g a], reads := [.g a], cls := some .mx }) (hj : s.tile.eng.joined = false)
    (hp : s.tile.gang.prog.plans[(s.tile.g a).toNat % 2 ^ 16]? = some p) (hpos : p.posOf s.tile.id.vt = some pos) :
    exec (.mjoin a) s = .next ((s.upd fun t => t.startJoin [.g a] ((s.tile.g a).toNat % 2 ^ 16) pos s.fab.serial).sendNotices
      (s.tile.notices p ((s.tile.g a).toNat % 2 ^ 16) false)) := by
  refine show execMjoin a s = _ from issue_of_ok hi ?_
  simp only [bitsOf_low, hj, hp, hpos]
  rfl

/-- The tile of an MLEAVE that leaves a truss (R177). -/
def Tile.leaveTruss (t : Tile) : Tile :=
  let u := t.issued []
  { u with eng := { u.eng with joined := false, pos := 0, plan := 0 } }

theorem mleave_next (hj : s.tile.eng.joined = true) (hm : s.tile.ops.mx = [])
    (hp : s.tile.gang.prog.plans[s.tile.eng.plan.toNat]? = some p) :
    exec .mleave s = .next ((s.upd Tile.leaveTruss).sendNotices (s.tile.notices p s.tile.eng.plan.toNat true)) := by
  have done : s.tile.count .mx = 0 := by rw [Tile.count, hm]; rfl
  refine show execMleave s = _ from issue_of_ok s.tile.canIssue_nothing ?_
  simp only [hj, done, hp]
  rfl

end

theorem trusses_enter : TrussesEnter := fun s a b p pos x => by
  intro n q k member told
  refine ⟨fun hi hq hx hr hh => ?swap, fun hi hj hp hpos h6 => ?join, fun hj => ?alone, fun hj hm hp => ?leave, fun hj hm => ?busy⟩
  case swap => exact ⟨_, mswap_next hi hq hx hr hh, startSwap_enters s _ _ hx⟩
  case join =>
    obtain ⟨same, tile, notified⟩ := State.sendNotices_plan (s.upd fun t => t.startJoin [.g a] k pos s.fab.serial) s.tile p k false
    refine ⟨_, mjoin_next hi hj hp hpos, IssuesHere.of_fab (issuesHere_of_issued (reads := [.g a]) rfl) same, ?_⟩
    rw [EntersMx, tile]
    refine ⟨?_, ?_, Nat.mod_eq_of_lt h6, notified⟩
    · simp only [State.upd_tile, Tile.startJoin, Tile.pushMx, Tile.issued_ops]
    · simp only [State.upd_tile, Tile.startJoin, Tile.pushMx, Tile.issued_eng]
  case alone =>
    refine ⟨_, show execMleave s = _ from issue_of_ok s.tile.canIssue_nothing ?_, frame_issued s []⟩
    simp only [hj]
    rfl
  case leave =>
    obtain ⟨same, tile, notified⟩ := State.sendNotices_plan (s.upd Tile.leaveTruss) s.tile p s.tile.eng.plan.toNat true
    refine ⟨_, mleave_next hj hm hp, IssuesHere.of_fab (issuesHere_of_issued (reads := []) rfl) same, ?_⟩
    rw [tile]
    refine ⟨s.tile.issued_ops [], ?_, notified⟩
    simp only [State.upd_tile, Tile.leaveTruss, Tile.issued_eng]
  case busy =>
    have busy : s.tile.count .mx ≠ 0 := fun e => hm (List.eq_nil_of_length_eq_zero e)
    refine show execMleave s = _ from issue_of_wait s.tile.canIssue_nothing ?_
    simp only [hj, decide_eq_true busy]
    rfl

section
variable {s : State} {a b : GReg}

theorem mswap_traps {cause : Nat} {tval : Word} (hi : s.tile.canIssue { regs := [.g a, .g b], reads := [.g a, .g b], cls := some .mx })
    (hw : s.tile.ex.cw = none) (hc : cause ∉ [0x02, 0x0A, 0x0B])
    (hq : inGrid s.tile.gang.rows s.tile.gang.cols ((s.tile.g b).toNat % 2 ^ 24) = true)
    (h : s.tile.namedTraps (refSh (s.tile.g a)) .swap 9 = .error (.cause cause tval 9)) : TrapsWith s (.mswap a b) 9 cause tval := by
  refine trapsWith_of (show execMswap a b s = _ from rfl) hi hw hc (by decide) ?_
  simp only [bitsOf_low, hq, Bool.not_true, failIf_false, check_ok_bind, h, check_error_bind]

theorem mswap_outside (hi : s.tile.canIssue { regs := [.g a, .g b], reads := [.g a, .g b], cls := some .mx }) (hw : s.tile.ex.cw = none)
    (hq : ¬inGrid s.tile.gang.rows s.tile.gang.cols ((s.tile.g b).toNat % 2 ^ 24) = true) :
    TrapsWith s (.mswap a b) 9 0x06 (s.tile.g b) := by
  refine trapsWith_of (show execMswap a b s = _ from rfl) hi hw (by decide) (by decide) ?_
  simp only [bitsOf_low, Bool.not_eq_true _ ▸ hq, Bool.not_false, failIf_true, check_error_bind]

/-- MJOIN in a truss already, for a plan that is not there, or outside the plan's rectangle (R175). -/
theorem mjoin_illegal (hi : s.tile.canIssue { regs := [.g a], reads := [.g a], cls := some .mx }) (hw : s.tile.ex.cw = none)
    (h : s.tile.eng.joined = true ∨ ∀ p, s.tile.gang.prog.plans[(s.tile.g a).toNat % 2 ^ 16]? = some p → p.posOf s.tile.id.vt = none) :
    TrapsWith s (.mjoin a) 0 0x01 (instrWord (.mjoin a)) := by
  refine trapsWith_of (show execMjoin a s = _ from rfl) hi hw (by decide) (by decide) ?_
  simp only [bitsOf_low]
  cases hj : s.tile.eng.joined with
  | true => rfl
  | false =>
    cases hp : s.tile.gang.prog.plans[(s.tile.g a).toNat % 2 ^ 16]? with
    | none => rfl
    | some p =>
      have outside := h.resolve_left (by simp [hj]) p hp
      simp only [outside]

end

theorem truss_traps : TrussTraps := fun s a b hw => by
  intro t n inside
  refine ⟨fun hi => ⟨fun hq => mswap_outside hi hw hq, fun hq hx => ?undefined, fun hq x hx he => ?empty⟩, fun hi h => ?join⟩
  case undefined => exact mswap_traps hi hw (by decide) hq (Tile.namedTraps_undefined .swap 9 hx)
  case empty => exact mswap_traps hi hw (by decide) hq (Tile.namedTraps_empty 9 hx he rfl)
  case join => exact mjoin_illegal hi hw (h.imp_right fun outside p hp => Plan.posOf_none (outside p hp))

end Sys2Proof.Machine

open Sys2Proof Sys2Proof.Machine

/-- Settles O31: the exchange by its count, and the notices of MJOIN and MLEAVE one after another. -/
theorem trusses : Obligations.Trusses := ⟨trusses_enter, truss_traps⟩
end

section
/-! SUPPORT. The shingle instructions (R25 to R27, R166, R183 to R186): the geometry of an entry, and the instructions that set one. -/

namespace Sys2Proof.Machine

theorem meets_false {a n b m : Nat} : meets a n b m = false ↔ a + n ≤ b ∨ b + m ≤ a := by
  rw [meets, decide_eq_false_iff_not]
  omega

theorem Tile.overlapsOther_false {t : Tile} {n : Fin 64} {base bytes : Nat} : t.overlapsOther n base bytes = false ↔
    ∀ (m : Fin 64) (x : Shingle), m ≠ n → t.sh m = some x → base + bytes ≤ x.base ∨ x.base + x.len * 64 ≤ base := by
  rw [Tile.overlapsOther, List.any_eq_false]
  constructor
  · intro h m x hm hx
    have apart := h (m, x) ((t.mem_shingleList m x).mpr hx)
    rwa [decide_eq_true hm, Bool.true_and, Bool.not_eq_true, meets_false] at apart
  · rintro h ⟨m, x⟩ hx
    rw [Bool.and_eq_true, decide_eq_true_iff, not_and, Bool.not_eq_true, meets_false]
    exact fun hm => h m x hm ((t.mem_shingleList m x).mp hx)

/-- The geometry check of SHDEF and SHSET is what R26 asks for. -/
theorem Tile.geometryOk_iff {t : Tile} {n : Fin 64} {base len : Nat} : t.geometryOk n base len = true ↔ FitsShingle t n base len := by
  rw [Tile.geometryOk, Bool.and_eq_true, decide_eq_true_iff, Bool.not_eq_true', Tile.overlapsOther_false, FitsShingle]
  simp only [and_assoc]

theorem Tile.geometryOk_false {t : Tile} {n : Fin 64} {base len : Nat} (h : ¬FitsShingle t n base len) : t.geometryOk n base len = false :=
  Bool.eq_false_iff.mpr fun ok => h (Tile.geometryOk_iff.mp ok)

/-- An issue that sets one shingle. -/
theorem setsShingle_issued (s : State) (reads : List RegName) (n : Fin 64) (x : Option Shingle) :
    SetsShingle s (s.upd fun t => (t.issued reads).setSh n x) n x := by
  refine ⟨issuesHere_of_issued (reads := reads) rfl, s.tile.issued_ops reads, ?_, fun j => ?_⟩
  · simp only [State.upd_tile, Tile.setSh, Tile.issued_eng]
  · rw [State.upd_tile, Tile.sh_setSh, Tile.sh, Tile.sh, Tile.issued_eng]

/-- An issue that leaves every shingle as it is. -/
theorem setsShingle_same {s : State} {n : Fin 64} {x : Option Shingle} (reads : List RegName) (h : s.tile.sh n = x) :
    SetsShingle s (s.upd fun t => t.issued reads) n x := by
  refine ⟨issuesHere_of_issued (reads := reads) rfl, s.tile.issued_ops reads, ?_, fun j => ?_⟩
  · rw [State.upd_tile, Tile.issued_eng]
  · rw [State.upd_tile, Tile.sh, Tile.issued_eng]
    split
    · next e => rw [e, ← h, Tile.sh]
    · rfl

/-! ## The instructions -/

theorem bitsOf_eq (x hi lo : Nat) : bitsOf x hi lo = x / 2 ^ lo % 2 ^ (hi + 1 - lo) := rfl

section
variable {s : State} {d a b : GReg} {n : Fin 64} {x : Shingle}

theorem shdef_sets (hi : s.tile.canIssue { regs := [.g a, .g b], reads := [.g a, .g b] })
    (hf : FitsShingle s.tile (refSh (s.tile.g a)) (bitsOf (s.tile.g b).toNat 18 0) (bitsOf (s.tile.g b).toNat 32 19))
    (hx : s.tile.sh (refSh (s.tile.g a)) = none) :
    ∃ t, exec (.shdef a b) s = .next t ∧ SetsShingle s t (refSh (s.tile.g a))
      (some ⟨.empty, 0, bitsOf (s.tile.g b).toNat 32 19, bitsOf (s.tile.g b).toNat 18 0, 0, 0⟩) := by
  refine ⟨_, show execShdef a b s = _ from issue_of_ok hi ?_, setsShingle_issued s [.g a, .g b] _ _⟩
  simp only [Tile.geometryOk_iff.mpr hf, Bool.not_true, failIf_false, check_ok_bind, hx]

theorem shdef_misfit (hi : s.tile.canIssue { regs := [.g a, .g b], reads := [.g a, .g b] }) (hw : s.tile.ex.cw = none)
    (hf : ¬FitsShingle s.tile (refSh (s.tile.g a)) (bitsOf (s.tile.g b).toNat 18 0) (bitsOf (s.tile.g b).toNat 32 19)) :
    ∃ t, exec (.shdef a b) s = .next t ∧ TrapTaken s t 0x07 (BitVec.ofNat 64 (bitsOf (s.tile.g b).toNat 18 0)) s.tile.ex.pc
      (BitVec.ofNat 64 (s.tile.ni.step.val * 2 ^ 14)) s.tile.iss.cycle := by
  show ∃ t, execShdef a b s = .next t ∧ _
  refine issue_causePlain hi hw (by decide) ?_
  simp only [Tile.geometryOk_false hf, Bool.not_false, failIf_true, check_error_bind]
  rfl

theorem shdef_defined (hi : s.tile.canIssue { regs := [.g a, .g b], reads := [.g a, .g b] }) (hw : s.tile.ex.cw = none)
    (hf : FitsShingle s.tile (refSh (s.tile.g a)) (bitsOf (s.tile.g b).toNat 18 0) (bitsOf (s.tile.g b).toNat 32 19))
    (hx : s.tile.sh (refSh (s.tile.g a)) = some x) :
    ∃ t, exec (.shdef a b) s = .next t ∧ TrapTaken s t 0x09 (BitVec.ofNat 64 (x.st.code * 256 + (refSh (s.tile.g a)).val)) s.tile.ex.pc
      (BitVec.ofNat 64 (s.tile.ni.step.val * 2 ^ 14)) s.tile.iss.cycle := by
  show ∃ t, execShdef a b s = .next t ∧ _
  refine issue_causePlain hi hw (by decide) ?_
  simp only [Tile.geometryOk_iff.mpr hf, Bool.not_true, failIf_false, check_ok_bind, hx, shingleTval, Bool.toNat_false, Nat.zero_mul,
    Nat.zero_add]

theorem shset_clears (hi : s.tile.canIssue { regs := [.g a, .g b], reads := [.g a, .g b] }) (hp : s.tile.ex.prv = true)
    (hh : s.tile.holds n = false) (hm : (s.tile.g a).msb = false) :
    ∃ t, exec (.shset a b n) s = .next t ∧ SetsShingle s t n none := by
  refine ⟨_, show execShset a b n s = _ from issue_of_ok hi ?_, setsShingle_issued s [.g a, .g b] _ _⟩
  simp only [hh, failIf_false, check_ok_bind, failIf_supervisor _ hp, hm, Bool.false_eq_true, if_false]

theorem shset_sets (hi : s.tile.canIssue { regs := [.g a, .g b], reads := [.g a, .g b] }) (hp : s.tile.ex.prv = true)
    (hh : s.tile.holds n = false) (hm : (s.tile.g a).msb = true) (hst : ShState.ofCode (bitsOf (s.tile.g a).toNat 60 59) = x.st)
    (hmark : bitsOf (s.tile.g a).toNat 58 39 = x.wmark) (hlen : bitsOf (s.tile.g a).toNat 32 19 = x.len)
    (hbase : bitsOf (s.tile.g a).toNat 18 0 = x.base) (hf : (s.tile.g b).truncate 32 = x.fctr)
    (hd : (s.tile.g b >>> 32).truncate 32 = x.dctr) (fits : FitsShingle s.tile n x.base x.len) (below : x.wmark ≤ x.len * 64) :
    ∃ t, exec (.shset a b n) s = .next t ∧ SetsShingle s t n (some x) := by
  obtain ⟨st, mark, len, base, fctr, dctr⟩ := x
  subst hst hmark hlen hbase hf hd
  have within : decide (bitsOf (s.tile.g a).toNat 58 39 > bitsOf (s.tile.g a).toNat 32 19 * 64) = false := decide_eq_false (Nat.not_lt.mpr below)
  refine ⟨_, show execShset a b n s = _ from issue_of_ok hi ?_, setsShingle_issued s [.g a, .g b] _ _⟩
  simp only [hh, failIf_false, check_ok_bind, failIf_supervisor _ hp, hm, if_true, Tile.geometryOk_iff.mpr fits, within, Bool.not_true,
    Bool.or_self]
  rfl

theorem shfree_sets (hi : s.tile.canIssue { regs := [.g a], reads := [.g a] }) (hx : s.tile.sh (refSh (s.tile.g a)) = some x)
    (hs : x.st = .empty ∨ x.st = .ready) (hh : s.tile.holds (refSh (s.tile.g a)) = false) :
    ∃ t, exec (.shfree a) s = .next t ∧ SetsShingle s t (refSh (s.tile.g a)) none := by
  have waits : s.tile.namedWaits (refSh (s.tile.g a)) x .free = .ok () := by
    obtain e | e := hs <;> simp [Tile.namedWaits, e, hh]
  refine ⟨_, show execShfree a s = _ from issue_of_ok hi ?_, setsShingle_issued s [.g a] _ _⟩
  simp only [Tile.namedTraps_open (role := .free) 0 hx fun _ => rfl, waits, check_ok_bind]

theorem shrdy_sets (hi : s.tile.canIssue { regs := [.g a], reads := [.g a] }) (hx : s.tile.sh (refSh (s.tile.g a)) = some x)
    (hs : x.st = .empty ∨ x.st = .ready) : ∃ t, exec (.shrdy a) s = .next t ∧ SetsShingle s t (refSh (s.tile.g a))
      (some (if x.st = .empty then { x with st := .ready, wmark := x.len * 64 } else x)) := by
  have waits : s.tile.namedWaits (refSh (s.tile.g a)) x .ready = .ok () := by
    obtain e | e := hs <;> simp [Tile.namedWaits, e, ShRole.holdWaits]
  by_cases e : x.st = .empty
  · rw [if_pos e]
    refine ⟨_, show execShrdy a s = _ from issue_of_ok hi ?_, setsShingle_issued s [.g a] _ _⟩
    simp only [Tile.namedTraps_open (role := .ready) 0 hx fun _ => rfl, waits, check_ok_bind, if_pos e]
  · rw [if_neg e]
    refine ⟨_, show execShrdy a s = _ from issue_of_ok hi ?_, setsShingle_same [.g a] hx⟩
    simp only [Tile.namedTraps_open (role := .ready) 0 hx fun _ => rfl, waits, check_ok_bind, if_neg e]

theorem shfree_undefined (hi : s.tile.canIssue { regs := [.g a], reads := [.g a] }) (hw : s.tile.ex.cw = none)
    (hx : s.tile.sh (refSh (s.tile.g a)) = none) : TrapsWith s (.shfree a) 0 0x09 (BitVec.ofNat 64 (1024 + (refSh (s.tile.g a)).val)) :=
  trapsWith_of (show execShfree a s = _ from rfl) hi hw (by decide) (by decide)
    (by simp only [Tile.namedTraps_undefined .free 0 hx, check_error_bind])

theorem shrdy_undefined (hi : s.tile.canIssue { regs := [.g a], reads := [.g a] }) (hw : s.tile.ex.cw = none)
    (hx : s.tile.sh (refSh (s.tile.g a)) = none) : TrapsWith s (.shrdy a) 0 0x09 (BitVec.ofNat 64 (1024 + (refSh (s.tile.g a)).val)) :=
  trapsWith_of (show execShrdy a s = _ from rfl) hi hw (by decide) (by decide)
    (by simp only [Tile.namedTraps_undefined .ready 0 hx, check_error_bind])

/-- SHSTAT of word 0 or of word 1 (R185). -/
theorem shstat_result (s : State) (d a : GReg) (w1 : Bool) : LateResult s (.shstat d a w1) d [.g a] .other 2
    (if w1 then s.tile.shWord1 (refSh (s.tile.g a)) else s.tile.shWord0 (refSh (s.tile.g a))) :=
  lateResult_of_body (by decide) (show execShstat d a w1 s = _ from rfl) rfl

end

end Sys2Proof.Machine

open Sys2Proof Sys2Proof.Machine

/-- Settles O32: each shingle instruction by its checks, the geometry check among them. -/
theorem shingles : Obligations.Shingles := fun s d a b n x => by
  intro w y r step base len code
  have hcode (st : ShState) : code st = st.code := by cases st <;> rfl
  have hbase : bitsOf y 18 0 = base := bitsOf_low y 18
  have hlen : bitsOf y 32 19 = len := rfl
  refine ⟨fun hi => ⟨fun hf hx => ?define, fun hw hf => ?misfit, fun hw hf hx => ?defined, fun hp hh => ⟨fun hlt => ?clear, ?set⟩⟩,
    fun hi hx hs => ⟨shfree_sets hi hx hs, shrdy_sets hi hx hs⟩, fun hi hw hx => ?undefined, fun hx w1 => ?noEntry,
    fun hx hb hl hm => ?entry⟩
  case define =>
    have sets := shdef_sets hi (hbase.symm ▸ hf) hx
    rwa [show bitsOf (s.tile.g b).toNat 18 0 = base from hbase] at sets
  case misfit =>
    have taken := shdef_misfit hi hw (hbase.symm ▸ hf)
    rwa [show bitsOf (s.tile.g b).toNat 18 0 = base from hbase] at taken
  case defined =>
    rw [hcode]
    exact shdef_defined hi hw (hbase.symm ▸ hf) hx
  case clear =>
    exact shset_clears hi hp hh (by rw [BitVec.msb_eq_decide, decide_eq_false (by simpa using hlt)])
  case set =>
    intro hge hst hb hl hm hf hd fits below
    have lt := (s.tile.g b).isLt
    refine shset_sets hi hp hh (by rw [BitVec.msb_eq_decide, decide_eq_true hge]) ?_ hm.symm hl.symm ((bitsOf_low w 18).trans hb.symm) ?_ ?_
      fits below
    · rw [show bitsOf (s.tile.g a).toNat 60 59 = w / 2 ^ 59 % 4 from rfl, ← hst]
      cases x.st <;> rfl
    · exact BitVec.eq_of_toNat_eq ((BitVec.toNat_setWidth ..).trans hf.symm)
    · refine BitVec.eq_of_toNat_eq ?_
      rw [hd, BitVec.truncate_eq_setWidth, BitVec.toNat_setWidth, BitVec.toNat_ushiftRight, Nat.shiftRight_eq_div_pow]
      exact Nat.mod_eq_of_lt (by omega)
  case undefined =>
    intro i hmem
    simp only [List.mem_cons, List.not_mem_nil, or_false] at hmem
    obtain rfl | rfl := hmem
    · exact shfree_undefined hi hw hx
    · exact shrdy_undefined hi hw hx
  case noEntry =>
    have result := shstat_result s d a w1
    rwa [Tile.shWord0, Tile.shWord1, show s.tile.sh (refSh (s.tile.g a)) = none from hx, ite_self] at result
  case entry =>
    have word0 := Tile.shWord0_eq hx (show x.wmark < 2 ^ 20 from hm) (show x.len < 2 ^ 14 from hl) hb
    have word1 : s.tile.shWord1 r = w64 (x.dctr.toNat * 2 ^ 32 + x.fctr.toNat) := by rw [Tile.shWord1, hx]
    rw [hcode, ← word0, show BitVec.ofNat 64 (x.dctr.toNat * 2 ^ 32 + x.fctr.toNat) = _ from word1.symm]
    exact ⟨shstat_result s d a false, shstat_result s d a true⟩
end

section
/-! SUPPORT. HANDOVER and HSET at issue (R14, R229 to R233): the use of translations, and the checks of HANDOVER in order. -/

namespace Sys2Proof.Machine

/-! ## Translations and counters -/

/-- The translations that an access has used are the same ones in another order (R340). -/
theorem Tile.usePages_tlb (t : Tile) (va n : Nat) : (t.usePages va n).ni.tlb.Perm t.ni.tlb :=
  List.perm_append_comm.trans (List.filter_append_perm ..)

theorem sysCtr_of_free {s : State} {id : W32} (h : CtrFree s id) : sysCtr id = false := by
  obtain rfl | ⟨small, -⟩ := h
  · rfl
  · exact decide_eq_false (by omega)

/-- A counter whose home is not denied gives no THROTTLE (R219). -/
theorem throttle_of_free {s : State} {id : W32} (h : CtrFree s id) :
    (decide (id ≠ 0) && (s.throttle 0 id 10).toOption.isNone) = false := by
  obtain rfl | ⟨-, free⟩ := h
  · rfl
  · rw [State.throttle, free, failIf_false]
    exact Bool.and_false _

theorem ctrId_eq (x : Word) : ctrId x = BitVec.ofNat 32 x.toNat := (BitVec.ofNat_toNat 32 x).symm

/-- The wait for a mode change of a range that has one byte at least (R283). -/
theorem modeWait_false {s : State} {a va n : Nat} (h : n ≠ 0 → s.modePending a va n = false) :
    (decide (n ≠ 0) && s.modePending a va n) = false := by
  by_cases e : n = 0
  · rw [decide_eq_false (not_not_intro e), Bool.false_and]
  · rw [h e, Bool.and_false]

/-! ## HANDOVER -/

section
variable {s : State} {h : HReg} {a b : GReg} {read : Bool} {l : List TlbEntry}

/-- Every page of the range lies inside it, is the tile's own and may change hands (R229): no check fails. -/
theorem State.checkHandover_ok {ga : Word} {r : Handle} {id : W32} (hc : CtrFree s id) (hb : r.base.toNat % 65536 = 0)
    (hl : r.len.toNat % 65536 = 0) (hg : read = true ∨ inGrid s.tile.gang.rows s.tile.gang.cols (ga.toNat % 2 ^ 24) = true)
    (hp : s.tile.handPages r.base.toNat r.span = (l, none))
    (hm : r.span ≠ 0 → s.modePending s.tile.gang.asid r.base.toNat r.span = false)
    (ho : ∀ e ∈ l, r.base.toNat ≤ e.va ∧ e.va + e.size ≤ r.base.toNat + r.span ∧ permits e.perms s.tile.ex.prv .handover = true ∧
      s.tile.modeFor e e.va = (0, s.tile.id.vt)) : s.checkHandover ga r id read = .ok () := by
  have aligned : decide (r.base.toNat % 65536 ≠ 0 ∨ r.len.toNat % 65536 ≠ 0) = false := decide_eq_false (by omega)
  have owner : (!read && !inGrid s.tile.gang.rows s.tile.gang.cols (bitsOf ga.toNat 23 0)) = false := by
    rw [bitsOf_low]
    obtain e | e := hg
    · rw [e, Bool.not_true, Bool.false_and]
    · rw [e, Bool.not_true, Bool.and_false]
  have inside : (l.find? fun e => decide (e.va < r.base.toNat ∨ r.base.toNat + r.span < e.va + e.size)) = none :=
    List.find?_eq_none.mpr fun e he => by
      obtain ⟨lo, hi, -⟩ := ho e he
      simp only [decide_eq_true_iff]
      omega
  have perms : (l.find? fun e => !permits e.perms s.tile.ex.prv .handover) = none :=
    List.find?_eq_none.mpr fun e he => by simp [(ho e he).2.2.1]
  have own : (l.find? fun e => decide (s.tile.modeFor e e.va ≠ (0, s.tile.id.vt))) = none :=
    List.find?_eq_none.mpr fun e he => by simp [(ho e he).2.2.2]
  simp only [State.checkHandover, hp, modeWait_false hm, throttle_of_free hc, aligned, State.checkGap, owner, sysCtr_of_free hc, failIf_false, check_ok_bind,
    inside, perms, own]

/-- The tile of a HANDOVER that issues. -/
theorem handover_enters (s : State) (reads : List RegName) (va n : Nat) (k : MsKind) (hs : BitVec 8) :
    let t := s.upd fun t => ((t.issued reads).usePages va n).pushMs k false hs
    EntersMs s t k false hs ∧ t.tile.ops.epoch = s.tile.ops.epoch ∧ t.tile.ops.redSeq = s.tile.ops.redSeq := by
  obtain ⟨⟨id, gang, inb, eng, ni, pl⟩, ops, pad, regs, pc⟩ := s.tile.keeps_issuedWords 1 reads
  have phys : s.tile.SamePhys ((s.tile.issued reads).usePages va n) := by
    refine ⟨?_, ?_⟩
    · simp only [Tile.usePages, Tile.issued_ni]
    · rw [← Tile.issued_ni s.tile reads]
      exact Tile.usePages_tlb ..
  have pushed : (((s.tile.issued reads).usePages va n).pushMs k false hs).ops = { s.tile.ops with
      stamp := s.tile.ops.stamp + 1
      ms := s.tile.ops.ms ++ [{ stamp := s.tile.ops.stamp, kind := k, rel := false, hs := hs, done := false }] } := by
    rw [Tile.pushMs, Tile.usePages_ops, Tile.issued_ops]
  have keeps : s.tile.Keeps (((s.tile.issued reads).usePages va n).pushMs k false hs) := ⟨[], by rw [pushed, List.append_nil], by simp⟩
  refine ⟨⟨⟨rfl, id, gang, inb, pl, phys, pad, regs, pc, s.tile.issued_writes reads, keeps⟩, eng, ?_⟩, ?_, ?_⟩
  · rw [State.upd_tile, pushed]
  · rw [State.upd_tile, pushed]
  · rw [State.upd_tile, pushed]

theorem handover_next {r : Handle} {hs : BitVec 8} (hr : s.tile.regs.h.get h = r)
    (hh : s.tile.handlesOf [(r.base.toNat, r.len.toNat)] = hs)
    (hi : s.tile.canIssue { regs := [.g a, .g b], reads := [.g a, .g b], cls := some .ms, hs := hs })
    (ok : s.checkHandover (s.tile.g a) r (ctrId (s.tile.g b)) read = .ok ()) :
    exec (.handover h a b read) s = .next (s.upd fun t => ((t.issued [.g a, .g b]).usePages r.base.toNat r.span).pushMs
      (.handover h r.base.toNat r.span ((s.tile.g a).toNat % 2 ^ 24) read (ctrId (s.tile.g b))) false hs) := by
  subst hr hh
  show execHandover h a b read s = _
  unfold execHandover
  refine issue_of_ok hi ?_
  simp only [ok, check_ok_bind, bitsOf_low]

end

/-! ## HSET -/

theorem hset_sets (s : State) (h : HReg) (reads : List RegName) (x : Handle) :
    let t := s.upd fun t => { t.issued reads with regs := { (t.issued reads).regs with h := (t.issued reads).regs.h.set h.val x h.isLt } }
    SameModule s t ∧ s.tile.SameUnits t.tile ∧
        t.tile.ops = s.tile.ops ∧ s.tile.SamePad t.tile ∧ s.tile.SameG t.tile [] ∧ s.tile.SameV t.tile ∧ s.tile.SameM t.tile ∧
        s.tile.NextPc t.tile 1 ∧ t.tile.iss.writes = s.tile.iss.writes ∧
        t.tile.regs = { s.tile.regs with perf := t.tile.regs.perf, h := t.tile.regs.h } ∧
        ∀ j, t.tile.regs.h.get j = if j = h then x else s.tile.regs.h.get j := by
  obtain ⟨units, ops, pad, ⟨g, v, m, -⟩, pc⟩ := s.tile.keeps_issuedWords 1 reads
  refine ⟨rfl, units, ops, pad, g, v, m, pc, s.tile.issued_writes reads, ?_, fun j => ?_⟩
  · simp only [State.upd_tile, Tile.issued]
    rw [Tile.issuedWords_regs]
  · simp only [State.upd_tile, Tile.issued]
    rw [vget_set, Tile.issuedWords_regs]

end Sys2Proof.Machine

open Sys2Proof Sys2Proof.Machine

/-- Settles O39: HANDOVER by its checks in order, HSET by the count of its handle. -/
theorem ownership : Obligations.Ownership := fun s h a b read l => by
  intro r len id owner hs two
  refine ⟨fun hi hc hb hl hg hp hm ho => ?handover, fun hi => ⟨fun busy => ?waits, fun free => ?sets⟩⟩
  case handover =>
    have ok : s.checkHandover (s.tile.g a) r (ctrId (s.tile.g b)) read = .ok () := by
      rw [ctrId_eq]
      exact State.checkHandover_ok hc hb hl hg hp hm ho
    rw [show id = ctrId (s.tile.g b) from (ctrId_eq _).symm]
    exact ⟨_, handover_next rfl rfl hi ok, handover_enters s two r.base.toNat r.span _ hs⟩
  case waits =>
    refine show execHset h a b s = _ from issue_of_wait hi ?_
    simp only [decide_eq_true busy, failIf_true, check_error_bind]
  case sets =>
    refine ⟨_, show execHset h a b s = _ from issue_of_ok hi ?_, hset_sets s h two ⟨s.tile.g a, s.tile.g b⟩⟩
    simp only [decide_eq_false (not_not_intro free), failIf_false, check_ok_bind]
    rfl
end

section
/-! SUPPORT. The traps of local memory accesses (R23, R28, R105, R106, R156, R393): the lowest byte that an EMPTY shingle holds, and the
checks in the order of R37. -/

namespace Sys2Proof.Machine

/-! ## The order of the touched shingles -/

theorem insertInto_sorted {α : Type} {f : α → Nat} (x : α) {l : List α} (h : l.Pairwise fun a b => f a ≤ f b) :
    (insertInto (fun a b => decide (f a ≤ f b)) x l).Pairwise fun a b => f a ≤ f b := by
  induction l with
  | nil => exact List.pairwise_singleton ..
  | cons y l ih =>
    obtain ⟨first, rest⟩ := List.pairwise_cons.mp h
    rw [insertInto]
    by_cases le : f x ≤ f y
    · rw [if_pos (decide_eq_true le)]
      refine List.pairwise_cons.mpr ⟨fun z hz => ?_, h⟩
      obtain rfl | hz := List.mem_cons.mp hz
      · exact le
      · exact Nat.le_trans le (first z hz)
    · rw [if_neg (by simpa using le)]
      refine List.pairwise_cons.mpr ⟨fun z hz => ?_, ih rest⟩
      obtain rfl | hz := List.mem_cons.mp ((insertInto_perm ..).mem_iff.mp hz)
      · exact Nat.le_of_not_le le
      · exact first z hz

theorem sortList_sorted {α : Type} (f : α → Nat) (l : List α) :
    (sortList (fun a b => decide (f a ≤ f b)) l).Pairwise fun a b => f a ≤ f b := by
  induction l with
  | nil => exact .nil
  | cons x l ih => exact insertInto_sorted x ih

/-- The first element of a sorted list that has a property stands no higher than any other that has it. -/
theorem find_sorted {α : Type} {f : α → Nat} {p : α → Bool} {l : List α} (h : l.Pairwise fun a b => f a ≤ f b) {x : α} (hx : x ∈ l)
    (hp : p x = true) : ∃ y ∈ l, l.find? p = some y ∧ p y = true ∧ f y ≤ f x := by
  induction l with
  | nil => exact absurd hx (List.not_mem_nil)
  | cons y l ih =>
    obtain ⟨first, rest⟩ := List.pairwise_cons.mp h
    cases hy : p y with
    | true =>
      refine ⟨y, List.mem_cons_self .., List.find?_cons_of_pos hy, hy, ?_⟩
      obtain rfl | hx := List.mem_cons.mp hx
      · exact Nat.le_refl _
      · exact first x hx
    | false =>
      have hx : x ∈ l := (List.mem_cons.mp hx).resolve_left fun e => by simp [← e, hp] at hy
      obtain ⟨z, hz, found, pz, low⟩ := ih rest hx
      exact ⟨z, List.mem_cons_of_mem _ hz, by rw [List.find?_cons_of_neg (by simp [hy]), found], pz, low⟩

/-! ## The touched bytes of a shingle -/

theorem foldl_min_le (l : List Nat) (b : Nat) : l.foldl Nat.min b ≤ b ∧ ∀ x ∈ l, l.foldl Nat.min b ≤ x := by
  induction l generalizing b with
  | nil => exact ⟨Nat.le_refl b, by simp⟩
  | cons y l ih =>
    obtain ⟨low, each⟩ := ih (Nat.min b y)
    refine ⟨Nat.le_trans low (Nat.min_le_left ..), fun x hx => ?_⟩
    obtain rfl | hx := List.mem_cons.mp hx
    · exact Nat.le_trans low (Nat.min_le_right ..)
    · exact each x hx

theorem foldl_min_mem (l : List Nat) (b : Nat) : l.foldl Nat.min b ∈ b :: l := by
  induction l generalizing b with
  | nil => exact List.mem_cons_self ..
  | cons y l ih =>
    obtain e | hm := List.mem_cons.mp (ih (Nat.min b y))
    · rw [List.foldl_cons, e]
      obtain h | h := Nat.le_total b y
      · simp [Nat.min_eq_left h]
      · simp [Nat.min_eq_right h]
    · exact List.mem_cons_of_mem _ (List.mem_cons_of_mem _ hm)

/-- A touched shingle with the bytes that it holds and the lowest of them (R393). -/
theorem Tile.mem_touched {t : Tile} {bytes : List Nat} {n : Fin 64} {x : Shingle} {low : Nat} {held : List Nat} :
    (n, x, low, held) ∈ t.touched bytes ↔
      t.sh n = some x ∧ held = bytes.filter x.holds ∧ low ∈ held ∧ ∀ b ∈ held, low ≤ b := by
  rw [Tile.touched, mem_sortList, List.mem_filterMap]
  constructor
  · rintro ⟨⟨m, y⟩, hm, hit⟩
    have defined := (t.mem_shingleList m y).mp hm
    cases hb : bytes.filter y.holds with
    | nil => simp [hb] at hit
    | cons b bs =>
      simp only [hb, Option.some.injEq, Prod.mk.injEq] at hit
      obtain ⟨rfl, rfl, rfl, rfl⟩ := hit
      refine ⟨defined, hb.symm, foldl_min_mem bs b, fun c hc => ?_⟩
      obtain rfl | hc := List.mem_cons.mp hc
      · exact (foldl_min_le bs c).1
      · exact (foldl_min_le bs b).2 c hc
  · rintro ⟨defined, rfl, hlow, least⟩
    refine ⟨(n, x), (t.mem_shingleList n x).mpr defined, ?_⟩
    cases hb : bytes.filter x.holds with
    | nil => simp [hb] at hlow
    | cons b bs =>
      rw [hb] at hlow least
      have same : bs.foldl Nat.min b = low := by
        refine Nat.le_antisymm ?_ (least _ (foldl_min_mem bs b))
        obtain rfl | hlow := List.mem_cons.mp hlow
        · exact (foldl_min_le bs low).1
        · exact (foldl_min_le bs b).2 low hlow
      simp only [same]

theorem Tile.touched_sorted (t : Tile) (bytes : List Nat) : (t.touched bytes).Pairwise fun a b => a.2.2.1 ≤ b.2.2.1 :=
  sortList_sorted (fun h : Fin 64 × Shingle × Nat × List Nat => h.2.2.1) _

theorem Shingle.verdict_trap {x : Shingle} {load : Bool} {bytes : List Nat} : x.verdict load bytes = .trap ↔ x.st = .empty := by
  unfold Shingle.verdict
  cases x.st with
  | empty => simp
  | ready => simp
  | draining => simp
  | filling =>
    simp only [reduceCtorEq, iff_false]
    split <;> exact ShVerdict.noConfusion

/-! ## The shingle rule -/

/-- The trap of an EMPTY shingle that holds the lowest such byte (R28, R393). -/
theorem Tile.gate_empty {t : Tile} {bytes : List Nat} {k : Fin 64} {m : Nat} (load : Bool) (c : Nat) (lane : Option (Fin 64))
    (h : EmptyAt t bytes k m) : t.gate load c lane bytes =
      .error (.trap { cause := 0x09, tval := BitVec.ofNat 64 (m * 2 ^ 32 + k.val), aclass := c, lane := lane }) := by
  obtain ⟨hm, ⟨sh, defined, empty, holds⟩, least⟩ := h
  have hit : (k, sh, m, bytes.filter sh.holds) ∈ t.touched bytes := by
    refine Tile.mem_touched.mpr ⟨defined, rfl, List.mem_filter.mpr ⟨hm, holds⟩, fun b hb => ?_⟩
    obtain ⟨inside, held⟩ := List.mem_filter.mp hb
    exact (least k b inside ⟨sh, defined, empty, held⟩).1
  obtain ⟨⟨j, x, low, held⟩, hy, found, trap, le⟩ := find_sorted (f := fun h : Fin 64 × Shingle × Nat × List Nat => h.2.2.1)
    (p := fun h => decide (h.2.1.verdict load h.2.2.2 = .trap)) (t.touched_sorted bytes) hit
    (decide_eq_true (Shingle.verdict_trap.mpr empty))
  obtain ⟨defined', rfl, hlow, -⟩ := Tile.mem_touched.mp hy
  obtain ⟨inside, holds'⟩ := List.mem_filter.mp hlow
  have empty' : x.st = .empty := Shingle.verdict_trap.mp (of_decide_eq_true trap)
  obtain ⟨above, apart⟩ := least j low inside ⟨x, defined', empty', holds'⟩
  obtain rfl : low = m := Nat.le_antisymm le above
  obtain rfl : j = k := not_ne_iff.mp fun e => Nat.lt_irrefl _ (apart e)
  simp only [Tile.gate, found, empty', shingleTval, ShState.code, Bool.toNat_false, Nat.zero_mul, Nat.add_zero]

theorem Tile.gateTraps_empty {t : Tile} {bytes : List Nat} {k : Fin 64} {m : Nat} (load : Bool) (c : Nat) (h : EmptyAt t bytes k m) :
    t.gateTraps load c bytes = .error (.cause 0x09 (BitVec.ofNat 64 (m * 2 ^ 32 + k.val)) c) := by
  rw [Tile.gateTraps, Tile.gate_empty load c none h]
  rfl

/-- Bytes that no EMPTY shingle holds meet no trap (R28). -/
theorem Tile.gateTraps_ok {t : Tile} {bytes : List Nat} (load : Bool) (c : Nat)
    (h : ∀ k sh, t.sh k = some sh → sh.st = .empty → ∀ b ∈ bytes, sh.holds b = false) : t.gateTraps load c bytes = .ok () := by
  have none : (t.touched bytes).find? (fun h => decide (h.2.1.verdict load h.2.2.2 = .trap)) = none := by
    refine List.find?_eq_none.mpr ?_
    rintro ⟨n, x, low, held⟩ hy trap
    obtain ⟨defined, rfl, hlow, -⟩ := Tile.mem_touched.mp hy
    obtain ⟨inside, holds⟩ := List.mem_filter.mp hlow
    have apart := h n x defined (Shingle.verdict_trap.mp (of_decide_eq_true trap)) low inside
    simp [holds] at apart
  rw [Tile.gateTraps]
  unfold Tile.gate
  simp only [none]
  cases (t.touched bytes).any fun h => decide (h.2.1.verdict load h.2.2.2 = .wait)
  · rfl
  · rfl

end Sys2Proof.Machine
end

section
/-! SUPPORT. The traps of scalar and vector accesses to local memory (R23, R28, R37, R105, R106, R155, R156, R158). -/

namespace Sys2Proof.Machine

theorem word_ofNat_toNat (x : Word) : BitVec.ofNat 64 x.toNat = x := by simp

/-- What follows the alignment and the window of a local access: its permissions and its bytes (R37, R106). -/
def Tile.localRest (t : Tile) (load : Bool) (aclass : Nat) (ea : Word) (n : Nat) (w : Window) (o : Nat) : Except Stop Unit :=
  if load then do
    failIf (w.wide && decide (n < 4)) (.cause 0x07 ea aclass)
    t.gateTraps true aclass (w.touch o n)
  else do
    failIf (decide (w ≠ .raw)) (.cause 0x07 ea aclass)
    failIf (!t.ex.prv && decide (o < t.regs.shbase.toNat)) (.cause 0x07 ea aclass)
    t.gateTraps false aclass (w.touch o n)

/-- The conditions of a local access in the order of R37: the window and the offset in it. -/
def Tile.localChecks (t : Tile) (load : Bool) (aclass : Nat) (ea : Word) (n : Nat) : Except Stop (Window × Nat) := do
  failIf (decide (ea.toNat % n ≠ 0)) (.cause 0x04 ea aclass)
  let (w, o) ← localWindow ea aclass
  t.localRest load aclass ea n w o
  .ok (w, o)

theorem windowOf_raw_offset {ea o : Nat} (h : windowOf ea = some (.raw, o)) : o = ea := by
  unfold windowOf at h
  split at h
  · exact (Prod.mk.inj (Option.some.inj h)).2.symm
  · repeat' (split at h)
    all_goals simp at h

theorem Tile.localRest_perm {t : Tile} {load : Bool} {c : Nat} {ea : Word} {n : Nat} {w : Window} {o : Nat}
    (hw : windowOf ea.toNat = some (w, o)) (h : NoPermission t load ea.toNat w n) :
    t.localRest load c ea n w o = .error (.cause 0x07 ea c) := by
  cases load with
  | true =>
    obtain ⟨wide, narrow⟩ := h
    rw [Tile.localRest, if_pos rfl, wide, decide_eq_true narrow, Bool.and_self, failIf_true, check_error_bind]
  | false =>
    rw [Tile.localRest, if_neg Bool.false_ne_true]
    by_cases raw : w = .raw
    · subst raw
      obtain ⟨user, low⟩ := (show _ ∨ _ from h).resolve_left fun e => e rfl
      rw [windowOf_raw_offset hw, decide_eq_false (not_not_intro rfl), failIf_false, check_ok_bind, user, decide_eq_true low, Bool.not_false,
        Bool.and_self, failIf_true, check_error_bind]
    · rw [decide_eq_true raw, failIf_true, check_error_bind]

/-- With permission, what is left is the shingle rule. -/
theorem Tile.localRest_permitted {t : Tile} {load : Bool} (c : Nat) {ea : Word} {n : Nat} {w : Window} {o : Nat}
    (hw : windowOf ea.toNat = some (w, o)) (h : ¬NoPermission t load ea.toNat w n) :
    t.localRest load c ea n w o = t.gateTraps load c (w.touch o n) := by
  cases load with
  | true =>
    have free : (w.wide && decide (n < 4)) = false := by
      rw [Bool.and_eq_false_imp]
      intro wide
      exact decide_eq_false fun narrow => h ⟨wide, narrow⟩
    rw [Tile.localRest, if_pos rfl, free, failIf_false, check_ok_bind]
  | false =>
    have raw : w = .raw := not_ne_iff.mp fun e => h (.inl e)
    subst raw
    have free : (!t.ex.prv && decide (o < t.regs.shbase.toNat)) = false := by
      rw [Bool.and_eq_false_imp, windowOf_raw_offset hw, Bool.not_eq_true']
      intro user
      exact decide_eq_false fun low => h (.inr ⟨user, low⟩)
    rw [Tile.localRest, if_neg Bool.false_ne_true, decide_eq_false (not_not_intro rfl), failIf_false, check_ok_bind, free, failIf_false,
      check_ok_bind]

/-- The first condition that a local access meets is the one that it traps with (R37). -/
theorem Tile.localChecks_trap {t : Tile} {load : Bool} (c : Nat) {ea : Word} {n cause tval : Nat}
    (h : LocalTrap t load ea.toNat n cause tval) : t.localChecks load c ea n = .error (.cause cause (BitVec.ofNat 64 tval) c) := by
  obtain ⟨odd, rfl, rfl⟩ | ⟨even, outside, rfl, rfl⟩ | ⟨w, o, even, inside, ⟨perm, rfl, rfl⟩ | ⟨perm, k, m, empty, rfl, rfl⟩⟩ := h
  · rw [Tile.localChecks, decide_eq_true odd, failIf_true, check_error_bind, word_ofNat_toNat]
  · rw [Tile.localChecks, decide_eq_false (not_not_intro even), failIf_false, check_ok_bind, localWindow, outside, check_error_bind,
      word_ofNat_toNat]
  · rw [Tile.localChecks, decide_eq_false (not_not_intro even), failIf_false, check_ok_bind, localWindow, inside, word_ofNat_toNat]
    simp only [check_ok_bind, Tile.localRest_perm inside perm, check_error_bind]
  · rw [Tile.localChecks, decide_eq_false (not_not_intro even), failIf_false, check_ok_bind, localWindow, inside]
    simp only [check_ok_bind, Tile.localRest_permitted c inside perm, Tile.gateTraps_empty load c empty, check_error_bind]

theorem Tile.localChecks_ok {t : Tile} {load : Bool} (c : Nat) {ea : Word} {n : Nat} (h : Untrapped t load ea.toNat n) :
    ∃ w o, windowOf ea.toNat = some (w, o) ∧ t.localChecks load c ea n = .ok (w, o) := by
  obtain ⟨w, o, even, inside, perm, apart, -⟩ := h
  refine ⟨w, o, inside, ?_⟩
  rw [Tile.localChecks, decide_eq_false (not_not_intro even), failIf_false, check_ok_bind, localWindow, inside]
  simp only [check_ok_bind, Tile.localRest_permitted c inside perm, Tile.gateTraps_ok load c apart]

/-! ## LD, LDN and ST -/

/-- A gate that its traps alone stop is one that stops. -/
theorem Tile.gate_of_gateTraps {t : Tile} {load : Bool} {c : Nat} {bytes : List Nat} {i : TrapInfo}
    (h : t.gateTraps load c bytes = .error (.trap i)) : t.gate load c none bytes = .error (.trap i) := by
  rw [Tile.gateTraps] at h
  split at h
  · next e => rw [e]; exact h
  · exact absurd h (by simp)

/-- A trap of the first of two steps is one of both. -/
theorem bind_trap {α β : Type} {x : Except Stop α} {f : α → Except Stop β} {st : Stop} (h : x = .error st) : (x >>= f) = .error st := by
  rw [h, check_error_bind]

/-- Two checks that begin alike: a stop of the first in its second part is one of the second. -/
theorem bind_stop {α β γ : Type} {x : Except Stop α} {f : α → Except Stop β} {g : α → Except Stop γ} {st : Stop}
    (h : (x >>= f) = .error st) (step : ∀ y, x = .ok y → f y = .error st → g y = .error st) : (x >>= g) = .error st := by
  cases x with
  | error e => exact congrArg Except.error (Except.error.inj h)
  | ok y => exact step y rfl h

theorem bind_ok_error {α β : Type} {x : Except Stop α} {y : β} {st : Stop} (h : (x >>= fun _ => Except.ok y) = .error st) :
    x = .error st := by
  cases x with
  | error e => exact congrArg Except.error (Except.error.inj h)
  | ok _ => exact nomatch (show (Except.ok y : Except Stop β) = .error st from h)

theorem Tile.checkLoad_trap {t : Tile} {ea : Word} {n : Nat} {i : TrapInfo} (h : t.localChecks true 2 ea n = .error (.trap i)) :
    t.checkLoad ea n = .error (.trap i) := by
  refine bind_stop h fun _ _ h => bind_stop h fun p _ h => ?_
  exact bind_stop (bind_ok_error h) fun _ _ h => bind_trap (Tile.gate_of_gateTraps h)

theorem Tile.checkStore_trap {t : Tile} {ea : Word} {n : Nat} {i : TrapInfo} (h : t.localChecks false 3 ea n = .error (.trap i)) :
    t.checkStore ea n = .error (.trap i) := by
  refine bind_stop h fun _ _ h => bind_stop h fun p _ h => ?_
  refine bind_stop (bind_ok_error h) fun _ hraw h => bind_stop h fun _ _ h => ?_
  obtain ⟨w, o⟩ := p
  have raw : w = .raw := by
    by_contra other
    rw [decide_eq_true other, failIf_true] at hraw
    exact nomatch hraw
  subst raw
  exact bind_trap h

/-- A scalar load takes the trap that its checks give. -/
theorem localLoad_traps {s : State} {i : Instr} {d a : GReg} {z : Fin 8} {off : BitVec 13} {signed : Bool} {cause tval : Nat}
    (he : exec i s = localLoad d a z off signed s)
    (hi : s.tile.canIssue { regs := [.g d, .g a], reads := [.g a], unit := .localPort, cls := some .ld }) (hw : s.tile.ex.cw = none)
    (hc : cause ∉ [0x02, 0x0A, 0x0B]) (h : LocalTrap s.tile true (memEa s.tile a z off).toNat (2 ^ z.val) cause tval) :
    TrapsWith s i 2 cause (BitVec.ofNat 64 tval) :=
  trapsWith_of (he.trans rfl) hi hw hc (by decide) (bind_trap (Tile.checkLoad_trap (Tile.localChecks_trap 2 h)))

theorem st_traps {s : State} {d a : GReg} {z : Fin 8} {off : BitVec 13} {cause tval : Nat}
    (hi : s.tile.canIssue { regs := [.g d, .g a], reads := [.g d, .g a], unit := .localPort }) (hw : s.tile.ex.cw = none)
    (hc : cause ∉ [0x02, 0x0A, 0x0B]) (h : LocalTrap s.tile false (memEa s.tile a z off).toNat (2 ^ z.val) cause tval) :
    TrapsWith s (.st d a z off) 3 cause (BitVec.ofNat 64 tval) :=
  trapsWith_of (show execSt d a z off s = _ from rfl) hi hw hc (by decide)
    (bind_trap (Tile.checkStore_trap (Tile.localChecks_trap 3 h)))

/-- The conditions of a local access are none of the traps of fetch, THROTTLE and ECC. -/
theorem cause_of_localTrap {t : Tile} {load : Bool} {ea sz cause tval : Nat} (h : LocalTrap t load ea sz cause tval) :
    cause ∉ [0x02, 0x0A, 0x0B] := by
  obtain ⟨-, rfl, -⟩ | ⟨-, -, rfl, -⟩ | ⟨w, o, -, -, ⟨-, rfl, -⟩ | ⟨-, k, m, -, rfl, -⟩⟩ := h
  · decide
  · decide
  · decide
  · decide

theorem scalar_traps : ScalarTraps := fun s d a z off cause tval _ hw => by
  intro ea trap
  have address : memEa s.tile a z off = ea := memEa_eq ..
  refine ⟨fun hi => ⟨fun h => ?_, fun h => ?_⟩, fun hi h => ?_⟩
  · exact localLoad_traps (signed := true) rfl hi hw (cause_of_localTrap h) (address ▸ h)
  · exact localLoad_traps (signed := false) rfl hi hw (cause_of_localTrap h) (address ▸ h)
  · exact st_traps hi hw (cause_of_localTrap h) (address ▸ h)

end Sys2Proof.Machine
end

section
/-! SUPPORT. The traps of vector accesses to local memory (R155, R156, R158): the elements in order, the first that meets a condition, and its
lane. -/

namespace Sys2Proof.Machine

/-! ## The enabled lanes -/

/-- The bits of a number made from a list, the first the lowest. -/
theorem testBit_foldr {α : Type} (f : α → Bool) (l : List α) (j : Nat) (h : j < l.length) :
    (l.foldr (fun i n => (f i).toNat + 2 * n) 0).testBit j = f l[j] := by
  induction l generalizing j with
  | nil => exact absurd h (Nat.not_lt_zero j)
  | cons x l ih =>
    have low : (f x).toNat ≤ 1 := Bool.toNat_le _
    rw [List.foldr_cons]
    cases j with
    | zero =>
      rw [Nat.testBit_zero, Nat.add_mul_mod_self_left, List.getElem_cons_zero]
      cases f x <;> rfl
    | succ j =>
      rw [Nat.testBit_succ, Nat.add_mul_div_left _ _ (by decide), Nat.div_eq_of_lt (by omega), Nat.zero_add, List.getElem_cons_succ]
      exact ih j (Nat.lt_of_succ_lt_succ h)

theorem maskOf_bit (f : Fin 16 → Bool) (i : Fin 16) : (maskOf f).getLsbD i.val = f i := by
  have len : (List.finRange 16).length = 16 := List.length_finRange
  rw [maskOf, BitVec.getLsbD_ofNat, decide_eq_true i.isLt, Bool.true_and, testBit_foldr f _ i.val (by rw [len]; exact i.isLt),
    List.getElem_finRange]
  rfl

theorem Tile.active_bit (t : Tile) (i : Fin 16) : t.active.getLsbD i.val = decide (i.val < t.regs.vl.val) := maskOf_bit _ i

theorem Tile.mem_enabledLanes {t : Tile} {k : MReg} {i : Fin 16} : i ∈ t.enabledLanes k ↔ LaneOn t k i := by
  rw [Tile.enabledLanes, List.mem_filter, Tile.enabled, BitVec.getLsbD_and, Bool.and_eq_true, t.active_bit, decide_eq_true_iff]
  exact and_iff_right (List.mem_finRange i)

/-- Below an enabled lane stand enabled lanes of lower numbers. -/
theorem Tile.enabledLanes_split {t : Tile} {k : MReg} {i : Fin 16} (h : LaneOn t k i) :
    ∃ l1 l2, t.enabledLanes k = l1 ++ i :: l2 ∧ ∀ j ∈ l1, j < i ∧ LaneOn t k j := by
  obtain ⟨l1, l2, e⟩ := List.append_of_mem (Tile.mem_enabledLanes.mpr h)
  have sorted : (t.enabledLanes k).Pairwise (· < ·) := (List.pairwise_lt_finRange 16).filter _
  rw [e, List.pairwise_append] at sorted
  obtain ⟨-, -, below⟩ := sorted
  refine ⟨l1, l2, e, fun j hj => ⟨below j hj i (List.mem_cons_self ..), ?_⟩⟩
  exact Tile.mem_enabledLanes.mp (e ▸ List.mem_append_left _ hj)

/-! ## Checks one after another -/

/-- A list of checks stops at the first that fails. -/
theorem mapM_stop {α β : Type} {f : α → Except Stop β} {l1 l2 : List α} {x : α} {st : Stop} (before : ∀ y ∈ l1, ∃ z, f y = .ok z)
    (h : f x = .error st) : (l1 ++ x :: l2).mapM f = .error st := by
  induction l1 with
  | nil => rw [List.nil_append, List.mapM_cons, h, check_error_bind]
  | cons y l1 ih =>
    obtain ⟨z, hz⟩ := before y (List.mem_cons_self ..)
    rw [List.cons_append, List.mapM_cons, hz, check_ok_bind, ih fun y hy => before y (List.mem_cons_of_mem _ hy), check_error_bind]

theorem laneCheck_trap {α : Type} {e : VElem} {x : Except Stop α} {cause c : Nat} {tval : Word} (h : x = .error (.cause cause tval c)) :
    laneCheck e x = .error (.trap { cause := cause, tval := tval, aclass := c, lane := some e.lane }) := by
  rw [h]
  rfl

theorem laneCheck_ok {α : Type} {e : VElem} {x : Except Stop α} {y : α} (h : x = .ok y) : laneCheck e x = .ok y := by
  rw [h]
  rfl

section
variable {t : Tile} {e : VElem} {sz cause tval : Nat}

/-- The checks of one element of a local load are those of a local access (R156). -/
theorem Tile.checkVload_trap (h : LocalTrap t true e.ea.toNat sz cause tval) : t.checkVload sz e =
    .error (.trap { cause := cause, tval := BitVec.ofNat 64 tval, aclass := 2, lane := some e.lane }) := by
  refine laneCheck_trap (bind_stop (Tile.localChecks_trap 2 h) fun _ _ h => bind_stop h fun p _ h => ?_)
  exact bind_stop (bind_ok_error h) fun _ _ h => bind_trap h

theorem Tile.checkVload_ok (h : Untrapped t true e.ea.toNat sz) : ∃ z, t.checkVload sz e = .ok z := by
  obtain ⟨w, o, -, checks⟩ := Tile.localChecks_ok 2 h
  refine ⟨(e, w, o), laneCheck_ok ?_⟩
  have alike : (t.localChecks true 2 e.ea sz >>= fun p => .ok (e, p.1, p.2)) = .ok (e, w, o) := by rw [checks, check_ok_bind]
  simpa only [Tile.localChecks, Tile.localRest, if_true, bind_assoc, check_ok_bind] using alike

theorem Tile.checkVstore_trap {addrs : List Nat} (h : LocalTrap t false e.ea.toNat sz cause tval) : t.checkVstore sz addrs e =
    .error (.trap { cause := cause, tval := BitVec.ofNat 64 tval, aclass := 3, lane := some e.lane }) := by
  refine laneCheck_trap (bind_stop (Tile.localChecks_trap 3 h) fun _ _ h => bind_stop h fun p _ h => ?_)
  refine bind_stop (bind_ok_error h) fun _ hraw h => bind_stop h fun _ _ h => ?_
  obtain ⟨w, o⟩ := p
  have raw : w = .raw := by
    by_contra other
    rw [decide_eq_true other, failIf_true] at hraw
    exact nomatch hraw
  subst raw
  exact bind_trap h

theorem Tile.checkVstore_ok {addrs : List Nat} (h : Untrapped t false e.ea.toNat sz) : ∃ z, t.checkVstore sz addrs e = .ok z := by
  obtain ⟨w, o, even, inside, perm, apart, good⟩ := h
  have raw : w = .raw := not_ne_iff.mp fun other => perm (.inl other)
  subst raw
  obtain rfl : o = e.ea.toNat := windowOf_raw_offset inside
  have code : (!t.ex.prv && decide (e.ea.toNat < t.regs.shbase.toNat)) = false := by
    rw [Bool.and_eq_false_imp, Bool.not_eq_true']
    exact fun user => decide_eq_false fun low => perm (.inr ⟨user, low⟩)
  have gate : t.gateTraps false 3 (upFrom e.ea.toNat sz) = .ok () := Tile.gateTraps_ok false 3 apart
  have whole : (t.pad.bad.contains (e.ea.toNat / 8) && !coversWord addrs (e.ea.toNat / 8)) = false := by rw [good rfl, Bool.false_and]
  have aligned : decide (e.ea.toNat % sz ≠ 0) = false := decide_eq_false (not_not_intro even)
  refine ⟨(e, e.ea.toNat), laneCheck_ok ?_⟩
  simp only [aligned, failIf_false, check_ok_bind, localWindow, inside, ne_eq, not_true_eq_false, decide_false, code, gate, whole]

end

/-! ## The instructions -/

/-- A trap in a lane (R17, R156). -/
theorem issue_causeOfLane {n : Need} {body : State → Except Stop State} {s : State} {cause : Nat} {tval : Word} {aclass : Nat}
    {lane : Fin 64} (h : s.tile.canIssue n) (hw : s.tile.ex.cw = none) (hc : cause ∉ [0x02, 0x0A, 0x0B]) (ha : aclass ≠ 1 ∧ aclass < 16)
    (hb : body s = .error (.trap { cause := cause, tval := tval, aclass := aclass, lane := some lane })) :
    ∃ t, issue n body s = .next t ∧ TrapTaken s t cause tval s.tile.ex.pc
      (BitVec.ofNat 64 (s.tile.ni.step.val * 2 ^ 14 + aclass * 2 ^ 8 + 128 + lane.val)) s.tile.iss.cycle := by
  simpa only [Option.elim, ← Nat.add_assoc] using issue_causeInLane h hw hc ha hb

section
variable {s : State} {i : Instr} {reads : List RegName} {k : MReg} {ty : ElemTy} {elems : Tile → List VElem} {l1 l2 : List VElem} {e : VElem}
  {cause tval : Nat}

theorem localVload_traps {dst : Tile → List RegName} (he : exec i s = localVload reads k ty dst elems s)
    (hi : s.tile.canIssue { regs := dst s.tile ++ .m k :: reads, reads := .m k :: reads, unit := .localPort, cls := some .ld })
    (hw : s.tile.ex.cw = none) (hl : elems s.tile = l1 ++ e :: l2)
    (before : ∀ y ∈ l1, Untrapped s.tile true y.ea.toNat (elemSize ty))
    (h : LocalTrap s.tile true e.ea.toNat (elemSize ty) cause tval) :
    ∃ t, exec i s = .next t ∧ TrapTaken s t cause (BitVec.ofNat 64 tval) s.tile.ex.pc
      (BitVec.ofNat 64 (s.tile.ni.step.val * 2 ^ 14 + 2 * 2 ^ 8 + 128 + e.lane.val)) s.tile.iss.cycle := by
  have some : (elems s.tile).isEmpty = false := by rw [hl, List.isEmpty_eq_false_iff]; simp
  have stop := mapM_stop (l2 := l2) (fun y hy => Tile.checkVload_ok (before y hy)) (Tile.checkVload_trap h)
  rw [← hl] at stop
  rw [he, localVload]
  simp only [some, Bool.false_eq_true, if_false]
  exact issue_causeOfLane hi hw (cause_of_localTrap h) (by decide) (bind_trap stop)

theorem localVstore_traps {d : VReg} (he : exec i s = localVstore d reads k ty elems s)
    (hi : s.tile.canIssue { regs := .v d :: .m k :: reads, reads := .v d :: .m k :: reads, unit := .localPort })
    (hw : s.tile.ex.cw = none) (hl : elems s.tile = l1 ++ e :: l2)
    (before : ∀ y ∈ l1, Untrapped s.tile false y.ea.toNat (elemSize ty))
    (h : LocalTrap s.tile false e.ea.toNat (elemSize ty) cause tval) :
    ∃ t, exec i s = .next t ∧ TrapTaken s t cause (BitVec.ofNat 64 tval) s.tile.ex.pc
      (BitVec.ofNat 64 (s.tile.ni.step.val * 2 ^ 14 + 3 * 2 ^ 8 + 128 + e.lane.val)) s.tile.iss.cycle := by
  have stop := mapM_stop (l2 := l2) (f := s.tile.checkVstore (elemSize ty) ((elems s.tile).flatMap fun e => upFrom e.ea.toNat (elemSize ty)))
    (fun y hy => Tile.checkVstore_ok (before y hy)) (Tile.checkVstore_trap h)
  rw [← hl] at stop
  rw [he, localVstore]
  exact issue_causeOfLane hi hw (cause_of_localTrap h) (by decide) (bind_trap stop)

end

/-! ## Addresses and elements -/

theorem strideEa_eq (t : Tile) (a b : GReg) (j : Fin 16) : strideEa t a b j = t.g a + BitVec.ofInt 64 (j.val * (t.g b).toInt) := by
  rw [strideEa, BitVec.ofInt_mul, BitVec.ofInt_natCast, BitVec.ofInt_toInt]
  rfl

/-- The elements before that of an enabled lane are those of the enabled lanes below it. -/
theorem Tile.velems_split {t : Tile} {k : MReg} {i : Fin 16} (d : VReg) (f : Fin 16 → Word) (h : LaneOn t k i) :
    ∃ l1 l2, t.velems k d f = l1 ++ ⟨Fin.ofNat 64 i.val, d, f i⟩ :: l2 ∧
      ∀ y ∈ l1, ∃ j, j < i ∧ LaneOn t k j ∧ y = ⟨Fin.ofNat 64 j.val, d, f j⟩ := by
  obtain ⟨l1, l2, e, below⟩ := Tile.enabledLanes_split h
  refine ⟨_, _, by rw [Tile.velems, e, List.map_append, List.map_cons], fun y hy => ?_⟩
  obtain ⟨j, hj, rfl⟩ := List.mem_map.mp hy
  exact ⟨j, (below j hj).1, (below j hj).2, rfl⟩

theorem range_split {c n : Nat} (h : c < n) : ∃ r1 r2, List.range n = r1 ++ c :: r2 ∧ ∀ m ∈ r1, m < c := by
  obtain ⟨r1, r2, e⟩ := List.append_of_mem (List.mem_range.mpr h)
  have sorted : (List.range n).Pairwise (· < ·) := List.pairwise_lt_range
  rw [e, List.pairwise_append] at sorted
  obtain ⟨-, -, below⟩ := sorted
  exact ⟨r1, r2, e, fun m hm => below m hm c (List.mem_cons_self ..)⟩

/-- The element of VLDX of a lane and a column (R158). -/
def Tile.xposeWord (t : Tile) (d : VReg) (a b : GReg) (j : Fin 16) (c : Nat) : VElem :=
  ⟨Fin.ofNat 64 j.val, d + Fin.ofNat 32 c, strideEa t a b j + w64 (4 * c)⟩

/-- The elements of VLDX before that of a lane and a column are those of the enabled lanes below it, and of the lower columns (R158). -/
theorem Tile.xposeElems_split {t : Tile} {k : MReg} {i : Fin 16} {c : Nat} (d : VReg) (a b : GReg) (h : LaneOn t k i)
    (hc : c < t.regs.vl.val) : ∃ l1 l2, t.xposeElems d a b k = l1 ++ t.xposeWord d a b i c :: l2 ∧
      ∀ y ∈ l1, ∃ j n, LaneOn t k j ∧ n < t.regs.vl.val ∧ (j < i ∨ (j = i ∧ n < c)) ∧ y = t.xposeWord d a b j n := by
  obtain ⟨l1, l2, lanes, below⟩ := Tile.enabledLanes_split h
  obtain ⟨r1, r2, columns, left⟩ := range_split hc
  have rows : t.xposeElems d a b k =
      (t.enabledLanes k).flatMap fun j => (List.range t.regs.vl.val).map (t.xposeWord d a b j) := rfl
  have row : (List.range t.regs.vl.val).map (t.xposeWord d a b i) =
      r1.map (t.xposeWord d a b i) ++ t.xposeWord d a b i c :: r2.map (t.xposeWord d a b i) := by
    rw [columns, List.map_append, List.map_cons]
  refine ⟨(l1.flatMap fun j => (List.range t.regs.vl.val).map (t.xposeWord d a b j)) ++ r1.map (t.xposeWord d a b i),
    r2.map (t.xposeWord d a b i) ++ l2.flatMap fun j => (List.range t.regs.vl.val).map (t.xposeWord d a b j), ?_, fun y hy => ?_⟩
  · rw [rows, lanes, List.flatMap_append, List.flatMap_cons, row]
    simp only [List.append_assoc, List.cons_append]
  · obtain hy | hy := List.mem_append.mp hy
    · obtain ⟨j, hj, hy⟩ := List.mem_flatMap.mp hy
      obtain ⟨n, hn, rfl⟩ := List.mem_map.mp hy
      exact ⟨j, n, (below j hj).2, List.mem_range.mp hn, .inl (below j hj).1, rfl⟩
    · obtain ⟨n, hn, rfl⟩ := List.mem_map.mp hy
      exact ⟨i, n, h, Nat.lt_trans (left n hn) hc, .inr ⟨rfl, left n hn⟩, rfl⟩

/-- A form of local loads whose element of lane i meets the first condition. -/
theorem vload_laneTrap {s : State} {x : Instr} {d : VReg} {reads : List RegName} {k : MReg} {ty : ElemTy} {i : Fin 16}
    {ea : Tile → Fin 16 → Word} (f : Fin 16 → Word) (hf : ea s.tile = f)
    (he : exec x s = localVload reads k ty (fun _ => [.v d]) (fun u => u.velems k d (ea u)) s)
    (hi : s.tile.canIssue { regs := .v d :: .m k :: reads, reads := .m k :: reads, unit := .localPort, cls := some .ld })
    (hw : s.tile.ex.cw = none) (hl : LaneOn s.tile k i) :
    LaneTrap s true x (elemSize ty) (fun y => ∃ j, j < i ∧ LaneOn s.tile k j ∧ y = ⟨Fin.ofNat 64 j.val, d, f j⟩)
      ⟨Fin.ofNat 64 i.val, d, f i⟩ := by
  subst hf
  intro cause tval h before
  obtain ⟨l1, l2, split, below⟩ := Tile.velems_split d (ea s.tile) hl
  exact localVload_traps he hi hw split (fun y hy => before y (below y hy)) h

theorem vstore_laneTrap {s : State} {x : Instr} {d : VReg} {reads : List RegName} {k : MReg} {ty : ElemTy} {i : Fin 16}
    {ea : Tile → Fin 16 → Word} (f : Fin 16 → Word) (hf : ea s.tile = f)
    (he : exec x s = localVstore d reads k ty (fun u => u.velems k d (ea u)) s)
    (hi : s.tile.canIssue { regs := .v d :: .m k :: reads, reads := .v d :: .m k :: reads, unit := .localPort })
    (hw : s.tile.ex.cw = none) (hl : LaneOn s.tile k i) :
    LaneTrap s false x (elemSize ty) (fun y => ∃ j, j < i ∧ LaneOn s.tile k j ∧ y = ⟨Fin.ofNat 64 j.val, d, f j⟩)
      ⟨Fin.ofNat 64 i.val, d, f i⟩ := by
  subst hf
  intro cause tval h before
  obtain ⟨l1, l2, split, below⟩ := Tile.velems_split d (ea s.tile) hl
  exact localVstore_traps he hi hw split (fun y hy => before y (below y hy)) h

theorem vldx_laneTrap {s : State} {d : VReg} {a b : GReg} {k : MReg} {ty : ElemTy} {i : Fin 16} {c : Nat} (hc : c < s.tile.regs.vl.val)
    (hi : s.tile.canIssue { regs := ((List.range s.tile.regs.vl.val).map fun c => .v (d + Fin.ofNat 32 c)) ++ [.m k, .g a, .g b]
                            reads := [.m k, .g a, .g b], unit := .localPort, cls := some .ld })
    (hw : s.tile.ex.cw = none) (hl : LaneOn s.tile k i) : LaneTrap s true (.vldx d a b k ty) (elemSize ty)
      (fun y => ∃ j n, LaneOn s.tile k j ∧ n < s.tile.regs.vl.val ∧ (j < i ∨ (j = i ∧ n < c)) ∧ y = s.tile.xposeWord d a b j n)
      (s.tile.xposeWord d a b i c) := by
  intro cause tval h before
  obtain ⟨l1, l2, split, below⟩ := Tile.xposeElems_split d a b hl hc
  exact localVload_traps (reads := [.g a, .g b]) (dst := fun u => (List.range u.regs.vl.val).map fun c => .v (d + Fin.ofNat 32 c))
    (elems := fun u => u.xposeElems d a b k) (show execVldx d a b k ty s = _ from rfl) hi hw split (fun y hy => before y (below y hy)) h

theorem lane_traps : LaneTraps := fun s d v a b k ty i hw hl => by
  intro sz reg at_ lanes loads stores unit stride index
  have strides : strideEa s.tile a b = stride := funext fun j => strideEa_eq s.tile a b j
  refine ⟨fun hi => vload_laneTrap (ea := fun u => unitEa u a ty) unit rfl (show execVld d a k ty s = _ from rfl) hi hw hl,
    fun hi => vload_laneTrap (ea := fun u => strideEa u a b) stride strides (show execVlds d a b k ty s = _ from rfl) hi hw hl,
    fun hi => vload_laneTrap (ea := fun u => indexEa u a v) index rfl (show execVldg d a v k ty s = _ from rfl) hi hw hl,
    fun hi => vstore_laneTrap (ea := fun u => unitEa u a ty) unit rfl (show execVst d a k ty s = _ from rfl) hi hw hl,
    fun hi => vstore_laneTrap (ea := fun u => strideEa u a b) stride strides (show execVsts d a b k ty s = _ from rfl) hi hw hl,
    fun hi => vstore_laneTrap (ea := fun u => indexEa u a v) index rfl (show execVstg d a v k ty s = _ from rfl) hi hw hl,
    fun c hc h4 => ?_⟩
  intro word hi
  have words : s.tile.xposeWord d a b = word := funext fun j => funext fun c => by
    rw [Tile.xposeWord, strideEa_eq]
    rfl
  rw [← words, ← h4]
  exact vldx_laneTrap hc hi hw hl

end Sys2Proof.Machine
end

section
/-! SUPPORT. The traps of accesses to global memory (R37, R109, R110, R155, R159, R220). -/

namespace Sys2Proof.Machine

/-! ## The checks of a global access -/

section
variable {s : State} {k : AccessKind} {c : Nat} {ea : Word} {n cause : Nat}

/-- What a global access of aligned bytes traps with (R109, R110). -/
theorem State.checkGlobal_trap (h : GlobalTrap s k ea.toNat n cause) (ha : ea.toNat % n = 0) :
    s.checkGlobal k c none ea.toNat n = .error (.cause cause ea c) := by
  obtain ⟨odd, -⟩ | ⟨-, high, rfl⟩ | ⟨-, low, mode, ⟨absent, told, unmapped, rfl⟩ | ⟨e, held, ⟨perm, rfl⟩ | ⟨perm, mode', rfl⟩⟩⟩ := h
  · exact absurd ha odd
  · rw [State.checkGlobal]
    simp only [ge_iff_le, high, if_true, word_ofNat_toNat]
    rfl
  · have noted : (s.tile.ni.noLeaf.contains ea.toNat && (s.walk s.tile.gang.asid ea.toNat).isNone) = true := by
      rw [List.contains_iff_mem.mpr told, unmapped]
      rfl
    rw [State.checkGlobal]
    simp only [ge_iff_le, Nat.not_le.mpr low, if_false, mode, Bool.false_eq_true, absent, noted, if_true, word_ofNat_toNat]
    rfl
  · rw [State.checkGlobal]
    simp only [ge_iff_le, Nat.not_le.mpr low, if_false, mode, Bool.false_eq_true, held, perm, Bool.not_false, if_true, word_ofNat_toNat]
    rfl
  · rw [State.checkGlobal]
    simp only [ge_iff_le, Nat.not_le.mpr low, if_false, mode, Bool.false_eq_true, held, perm, Bool.not_true, mode', Bool.not_false, if_true,
      word_ofNat_toNat]
    rfl

theorem State.scalarGlobal_trap (h : GlobalTrap s k ea.toNat n cause) : s.scalarGlobal k c ea n = .error (.cause cause ea c) := by
  by_cases ha : ea.toNat % n = 0
  · rw [State.scalarGlobal, decide_eq_false (not_not_intro ha), failIf_false, check_ok_bind, State.checkGlobal_trap h ha]
  · obtain ⟨-, rfl⟩ | ⟨even, -⟩ | ⟨even, -⟩ := h
    · rw [State.scalarGlobal, decide_eq_true ha, failIf_true, check_error_bind]
    · exact absurd even ha
    · exact absurd even ha

theorem State.scalarGlobal_ok {e : TlbEntry} (ha : ea.toNat % n = 0) (h : Reaches s k ea.toNat n e) :
    s.scalarGlobal k c ea n = .ok (e.pa + (ea.toNat - e.va)) := by
  obtain ⟨low, mode, held, perm, mode'⟩ := h
  rw [State.scalarGlobal, decide_eq_false (not_not_intro ha), failIf_false, check_ok_bind, State.checkGlobal]
  simp only [ge_iff_le, Nat.not_le.mpr low, if_false, mode, Bool.false_eq_true, held, perm, Bool.not_true, mode']

end

/-- The conditions of a global access are none of the traps of fetch, THROTTLE and ECC. -/
theorem cause_of_globalTrap {s : State} {k : AccessKind} {va n cause : Nat} (h : GlobalTrap s k va n cause) :
    cause ∉ [0x02, 0x0A, 0x0B] := by
  obtain ⟨-, rfl⟩ | ⟨-, -, rfl⟩ | ⟨-, -, -, ⟨-, -, -, rfl⟩ | ⟨e, -, ⟨-, rfl⟩ | ⟨-, -, rfl⟩⟩⟩ := h
  · decide
  · decide
  · decide
  · decide
  · decide

/-! ## GLD, GLDN and GST -/

theorem globalLoad_traps {s : State} {i : Instr} {d a : GReg} {z : Fin 8} {off : BitVec 13} {ext : LoadExt} {cause : Nat}
    (he : exec i s = globalLoad d a z off ext s)
    (hi : s.tile.canIssue { regs := [.g d, .g a], reads := [.g a], cls := some .ld
                            hs := s.tile.handlesOf [((memEa s.tile a z off).toNat, 2 ^ z.val)] })
    (hw : s.tile.ex.cw = none) (h : GlobalTrap s .load (memEa s.tile a z off).toNat (2 ^ z.val) cause) :
    TrapsWith s i 4 cause (memEa s.tile a z off) := by
  rw [TrapsWith, he, globalLoad]
  exact issue_cause hi hw (cause_of_globalTrap h) (by decide) (bind_trap (State.scalarGlobal_trap h))

theorem gst_traps {s : State} {d a : GReg} {z : Fin 8} {off : BitVec 13} {cause : Nat}
    (hi : s.tile.canIssue { regs := [.g d, .g a], reads := [.g d, .g a], cls := some .st
                            hs := s.tile.handlesOf [((memEa s.tile a z off).toNat, 2 ^ z.val)] })
    (hw : s.tile.ex.cw = none) (h : GlobalTrap s .store (memEa s.tile a z off).toNat (2 ^ z.val) cause) :
    TrapsWith s (.gst d a z off) 5 cause (memEa s.tile a z off) := by
  rw [TrapsWith, show exec (.gst d a z off) s = execGst d a z off s from rfl, execGst]
  exact issue_cause hi hw (cause_of_globalTrap h) (by decide) (bind_trap (State.scalarGlobal_trap h))

/-! ## VGLD and VGST -/

/-- The handles that a vector access counts in are those that overlap an element (R14, R33). -/
theorem Tile.handlesOf_bit (t : Tile) (rs : List (Nat × Nat)) (j : Fin 8) :
    (t.handlesOf rs).getLsbD j.val = rs.any fun r => (t.regs.h.get j).overlaps r.1 r.2 := by
  have len : (List.finRange 8).length = 8 := List.length_finRange
  rw [Tile.handlesOf, BitVec.getLsbD_ofNat, decide_eq_true j.isLt, Bool.true_and,
    testBit_foldr (fun k => rs.any fun r => (t.regs.h.get k).overlaps r.1 r.2) _ j.val (by rw [len]; exact j.isLt), List.getElem_finRange]
  rfl

theorem Tile.handlesOf_velems {t : Tile} {k : MReg} {d : VReg} {f : Fin 16 → Word} {sz : Nat} (j : Fin 8) :
    (t.handlesOf ((t.velems k d f).map fun e => (e.ea.toNat, sz))).getLsbD j.val = true ↔
      ∃ i, LaneOn t k i ∧ (t.regs.h.get j).overlaps (f i).toNat sz = true := by
  rw [Tile.handlesOf_bit, List.any_map, List.any_eq_true]
  constructor
  · rintro ⟨y, hy, hit⟩
    obtain ⟨i, hi, rfl⟩ := List.mem_map.mp hy
    exact ⟨i, Tile.mem_enabledLanes.mp hi, hit⟩
  · rintro ⟨i, hi, hit⟩
    exact ⟨_, List.mem_map.mpr ⟨i, Tile.mem_enabledLanes.mpr hi, rfl⟩, hit⟩

section
variable {s : State} {kind : AccessKind} {c sz : Nat} {e : VElem}

theorem State.checkVglobal_trap {cause : Nat} (h : GlobalTrap s kind e.ea.toNat sz cause) : s.checkVglobal kind c sz e =
    .error (.trap { cause := cause, tval := e.ea, aclass := c, lane := some e.lane }) :=
  laneCheck_trap (bind_trap (State.scalarGlobal_trap h))

theorem State.checkVglobal_ok (h : e.ea.toNat % sz = 0 ∧ ∃ p, Reaches s kind e.ea.toNat sz p) : ∃ z, s.checkVglobal kind c sz e = .ok z := by
  obtain ⟨even, p, reaches⟩ := h
  exact ⟨_, laneCheck_ok (by rw [State.scalarGlobal_ok even reaches, check_ok_bind])⟩

end

/-- The elements of VGLD and VGST with the first condition that one of them meets. -/
theorem State.vglobal_stop {s : State} {kind : AccessKind} {c sz cause : Nat} {k : MReg} {d : VReg} {f : Fin 16 → Word} {i : Fin 16}
    (hl : LaneOn s.tile k i) (h : GlobalTrap s kind (f i).toNat sz cause)
    (before : ∀ j, j < i → LaneOn s.tile k j → (f j).toNat % sz = 0 ∧ ∃ e, Reaches s kind (f j).toNat sz e) :
    (s.tile.velems k d f).isEmpty = false ∧ (s.tile.velems k d f).mapM (s.checkVglobal kind c sz) =
      .error (.trap { cause := cause, tval := f i, aclass := c, lane := some (Fin.ofNat 64 i.val) }) := by
  obtain ⟨l1, l2, split, below⟩ := Tile.velems_split d f hl
  rw [split]
  refine ⟨by rw [List.isEmpty_eq_false_iff]; simp, mapM_stop (fun y hy => ?_) (State.checkVglobal_trap (e := ⟨_, d, f i⟩) h)⟩
  obtain ⟨j, hj, on, rfl⟩ := below y hy
  exact State.checkVglobal_ok (before j hj on)

theorem lane_of (i : Fin 16) : (Fin.ofNat 64 i.val).val = i.val := Nat.mod_eq_of_lt (by omega)

section
variable {s : State} {v : VReg} {a : GReg} {k : MReg} {ty : ElemTy} {i : Fin 16} {cause : Nat} {f : Fin 16 → Word}
  (hf : unitEa s.tile a ty = f)
include hf

theorem vgld_traps (hi : s.tile.canIssue { regs := [.v v, .m k, .g a], reads := [.m k, .g a], cls := some .ld
                                           hs := s.tile.handlesOf ((s.tile.velems k v f).map fun e => (e.ea.toNat, elemSize ty)) })
    (hw : s.tile.ex.cw = none) (hl : LaneOn s.tile k i) (h : GlobalTrap s .load (f i).toNat (elemSize ty) cause)
    (before : ∀ j, j < i → LaneOn s.tile k j → (f j).toNat % elemSize ty = 0 ∧ ∃ e, Reaches s .load (f j).toNat (elemSize ty) e) :
    ∃ t, exec (.vgld v a k ty) s = .next t ∧ TrapTaken s t cause (f i) s.tile.ex.pc
      (BitVec.ofNat 64 (s.tile.ni.step.val * 2 ^ 14 + 4 * 2 ^ 8 + 128 + i.val)) s.tile.iss.cycle := by
  subst hf
  obtain ⟨some, stop⟩ := State.vglobal_stop (c := 4) (d := v) hl h before
  rw [show exec (.vgld v a k ty) s = execVgld v a k ty s from rfl, execVgld, ← lane_of i]
  simp only [some, Bool.false_eq_true, if_false]
  exact issue_causeOfLane hi hw (cause_of_globalTrap h) (by decide) (bind_trap stop)

theorem vgst_traps (hi : s.tile.canIssue { regs := [.v v, .m k, .g a], reads := [.v v, .m k, .g a], cls := some .st
                                           hs := s.tile.handlesOf ((s.tile.velems k v f).map fun e => (e.ea.toNat, elemSize ty)) })
    (hw : s.tile.ex.cw = none) (hl : LaneOn s.tile k i) (h : GlobalTrap s .store (f i).toNat (elemSize ty) cause)
    (before : ∀ j, j < i → LaneOn s.tile k j → (f j).toNat % elemSize ty = 0 ∧ ∃ e, Reaches s .store (f j).toNat (elemSize ty) e) :
    ∃ t, exec (.vgst v a k ty) s = .next t ∧ TrapTaken s t cause (f i) s.tile.ex.pc
      (BitVec.ofNat 64 (s.tile.ni.step.val * 2 ^ 14 + 5 * 2 ^ 8 + 128 + i.val)) s.tile.iss.cycle := by
  subst hf
  obtain ⟨some, stop⟩ := State.vglobal_stop (c := 5) (d := v) hl h before
  rw [show exec (.vgst v a k ty) s = execVgst v a k ty s from rfl, execVgst, ← lane_of i]
  simp only [some, Bool.false_eq_true, if_false]
  exact issue_causeOfLane hi hw (cause_of_globalTrap h) (by decide) (bind_trap stop)

end

theorem global_traps : GlobalTraps := fun s d a v z off k ty i cause hw => by
  intro ea hs sz at_ first traps free
  have address : memEa s.tile a z off = ea := memEa_eq ..
  refine ⟨fun _ hi h => ⟨?_, ?_⟩, fun _ hi h => ?_, fun hf ⟨hl, h, before⟩ => ?_, fun hf ⟨hl, h, before⟩ => ?_⟩
  · rw [← address] at h ⊢
    exact globalLoad_traps (ext := .signed) rfl (address ▸ hi) hw h
  · rw [← address] at h ⊢
    exact globalLoad_traps (ext := .zero) rfl (address ▸ hi) hw h
  · rw [← address] at h ⊢
    exact gst_traps (address ▸ hi) hw h
  · exact vgld_traps rfl (hf _ Tile.handlesOf_velems) hw hl h before
  · exact vgst_traps rfl (hf _ Tile.handlesOf_velems) hw hl h before

end Sys2Proof.Machine
end

section
/-! SUPPORT. THROTTLE (R210, R211, R219): its event counts in the throttle counter of the partition, and releases waiters of that counter,
which the tile is not; denial of a counter and of a line. -/

namespace Sys2Proof.Machine

/-! ## What the release of waiters leaves alone -/

/-- A tile that holds at no CWAIT, global memory and the throttle counts of the partitions stay as they are. -/
def State.Quiet (s t : State) : Prop :=
  (s.tile.ex.cw = none → t.tile = s.tile) ∧ t.mem = s.mem ∧ ∀ p, (t.part p).throttle = (s.part p).throttle

theorem State.Quiet.refl (s : State) : s.Quiet s := ⟨fun _ => rfl, rfl, fun _ => rfl⟩

theorem State.Quiet.trans {s t u : State} (h : s.Quiet t) (h' : t.Quiet u) : s.Quiet u := by
  obtain ⟨tile, mem, count⟩ := h
  obtain ⟨tile', mem', count'⟩ := h'
  refine ⟨fun hw => ?_, mem'.trans mem, fun p => (count' p).trans (count p)⟩
  have same := tile hw
  exact (tile' (by rw [same, hw])).trans same

theorem State.part_updPart (s : State) (p q : Nat) (f : Part → Part) :
    (s.updPart q f).part p = if Fin.ofNat 64 p = Fin.ofNat 64 q then f (s.part q) else s.part p :=
  vget_set s.parts (Fin.ofNat 64 q) (Fin.ofNat 64 p) (f (s.part q))

/-- A change of a partition that keeps its throttle count. -/
theorem State.quiet_updPart (s : State) (q : Nat) {f : Part → Part} (h : ∀ x, (f x).throttle = x.throttle) : s.Quiet (s.updPart q f) := by
  refine ⟨fun _ => rfl, rfl, fun p => ?_⟩
  rw [State.part_updPart]
  split
  · next e => rw [h, State.part, State.part, e]
  · rfl

theorem State.quiet_inject (s : State) (ref : PacketRef) (m : Bool) (src dst : Nat) : s.Quiet (s.inject ref m src dst) := State.Quiet.refl s

theorem State.quiet_sendDeny (s : State) (p table engine : Nat) : s.Quiet (s.sendDeny p table engine) :=
  foldl_rel (r := State.Quiet) State.Quiet.refl State.Quiet.trans (fun s _ => s.quiet_inject ..) _ s

theorem State.quiet_denyStep (s : State) (p table engine : Nat) : s.Quiet (s.denyStep p table engine) := by
  rw [State.denyStep]
  split_ifs
  · refine State.Quiet.trans (s.quiet_updPart p ?_) (State.quiet_sendDeny ..)
    exact fun _ => rfl
  · refine State.Quiet.trans (s.quiet_updPart p ?_) (State.quiet_sendDeny ..)
    exact fun _ => rfl
  · exact State.Quiet.refl s

theorem State.quiet_denySteps (s : State) (p engine : Nat) : s.Quiet (s.denySteps p engine) :=
  foldl_rel (r := State.Quiet) State.Quiet.refl State.Quiet.trans (fun s _ => s.quiet_denyStep ..) _ s

/-- The release of a waiter answers the CWAIT of its tile. -/
theorem State.quiet_updTile_cw (s : State) (id : TileId) (f : CwState → CwState) :
    s.Quiet (s.updTile id fun t => { t with ex := { t.ex with cw := t.ex.cw.map f } }) := by
  unfold State.updTile
  split
  · refine ⟨fun hw => ?_, rfl, fun _ => rfl⟩
    rw [State.upd_tile, hw]
    show { s.tile with ex := { s.tile.ex with cw := none } } = s.tile
    rw [← hw]
  · exact State.Quiet.refl s

theorem State.quiet_sendRelease (site : Nat) (s : State) (w : Waiter) : s.Quiet (State.sendRelease site s w) := by
  unfold State.sendRelease
  split
  · exact State.Quiet.refl s
  · refine State.Quiet.trans ?_ (State.quiet_updTile_cw ..)
    split
    · exact s.quiet_inject ..
    · exact State.Quiet.refl s

theorem State.quiet_sendReleases (site : Nat) (l : List Waiter) (s : State) : s.Quiet (l.foldl (State.sendRelease site) s) :=
  foldl_rel (r := State.Quiet) State.Quiet.refl State.Quiet.trans (State.quiet_sendRelease site) l s

theorem State.quiet_releaseWaiters (s : State) (asid : Nat) (id : W32) (value : Word) (pend : BitVec 32) (psat : Bool) :
    s.Quiet (s.releaseWaiters asid id value pend psat) := by
  refine State.Quiet.trans (State.Quiet.trans ?_ (State.quiet_sendReleases ..)) (State.quiet_denySteps ..)
  exact ⟨fun _ => rfl, rfl, fun _ => rfl⟩

/-! ## The throttle event -/

/-- The throttle counter of the partition gains 1, or its SAT is set (R210, R219). -/
theorem State.throttleEvent_counts {s : State} (p : Nat) (hw : s.tile.ex.cw = none) :
    (s.throttleEvent p).tile = s.tile ∧ (s.throttleEvent p).mem = s.mem ∧
      ((s.throttleEvent p).part p).throttle.toNat = min ((s.part p).throttle.toNat + 1) (2 ^ 64 - 1) := by
  let add (q : Part) : Part := if q.throttle.toNat + 1 < 2 ^ 64 then { q with throttle := q.throttle + 1 } else { q with throttleSat := true }
  let u := s.updPart p add
  obtain ⟨tile, mem, count⟩ : u.Quiet (s.throttleEvent p) :=
    foldl_rel (r := State.Quiet) State.Quiet.refl State.Quiet.trans (fun s a => State.quiet_releaseWaiters s a _ _ _ _) _ u
  refine ⟨tile hw, mem, ?_⟩
  rw [count, State.part_updPart, if_pos rfl]
  show (if _ then _ else _ : Part).throttle.toNat = _
  have small := (s.part p).throttle.isLt
  split
  · next h =>
    show ((s.part p).throttle + 1).toNat = _
    rw [BitVec.toNat_add, show (1 : Word).toNat = 1 from rfl]
    omega
  · next h =>
    show (s.part p).throttle.toNat = _
    omega

theorem State.trapHere_throttles {s : State} {i : TrapInfo} (hw : s.tile.ex.cw = none) (hc : i.cause = 0x0A) (ha : i.aclass ≠ 1) :
    s.tile.Traps (s.trapHere i).tile i.cause i.tval s.tile.ex.pc (i.tinfo s.tile.ni.step) s.tile.iss.cycle ∧
      (s.trapHere i).mem = s.mem ∧ ((s.trapHere i).part s.tile.id.part).throttle.toNat =
        min ((s.part s.tile.id.part).throttle.toNat + 1) (2 ^ 64 - 1) := by
  obtain ⟨tile, mem, count⟩ := State.throttleEvent_counts s.tile.id.part hw
  rw [State.trapHere, State.withdrawCw_of_none hw, if_neg (not_or_intro ha (by rw [hc]; decide)), if_pos hc]
  refine ⟨?_, mem, count⟩
  rw [State.upd_tile, tile]
  exact s.tile.takeTrap_traps i s.tile.ex.pc s.tile.iss.cycle

/-- A trap THROTTLE (R38, R219). -/
theorem throttles_of {s : State} {i : Instr} {n : Need} {body : State → Except Stop State} {aclass table ctr : Nat}
    (he : exec i s = issue n body s) (hi : s.tile.canIssue n) (hw : s.tile.ex.cw = none) (ha : aclass ≠ 1 ∧ aclass < 16)
    (hb : body s = .error (.cause 0x0A (BitVec.ofNat 64 (table * 2 ^ 32 + ctr)) aclass)) : Throttles s i aclass table ctr := by
  obtain ⟨traps, mem, count⟩ := State.trapHere_throttles
    (i := { cause := 0x0A, tval := BitVec.ofNat 64 (table * 2 ^ 32 + ctr), aclass := aclass }) hw rfl ha.1
  rw [TrapInfo.tinfo_eq] at traps
  refine ⟨_, he.trans (issue_of_trap hi hb), ?_⟩
  rw [State.tileUncIf, if_neg (by simp)]
  refine ⟨?_, count, mem⟩
  simp only [branchInfo, Bool.false_eq_true, if_false, Nat.zero_add, Nat.add_zero, Nat.mod_eq_of_lt ha.2] at traps
  exact traps

end Sys2Proof.Machine
end

section
/-! SUPPORT. The traps of atomics, reductions and counter instructions (R197, R210, R216, R219, R220, R226). -/

namespace Sys2Proof.Machine

/-! ## The line of an atomic or a reduction -/

section
variable {s : State} {k : AccessKind} {c table : Nat} {ea : Word} {n cause : Nat} {e : TlbEntry}

/-- The home of the line of a held translation denies a table (R219). -/
theorem State.throttleLine_denied {va : Nat} (c : Nat) (held : s.tile.held va = some e)
    (h : s.tile.denied table ((s.part s.tile.id.part).lineHome (e.pa + (va - e.va))) = true) :
    s.throttleLine table va c = .error (.cause 0x0A (BitVec.ofNat 64 (table * 2 ^ 32 + 0)) c) := by
  have line : s.linePa va = some (e.pa + (va - e.va)) := by
    rw [State.linePa, held]
    rfl
  rw [State.throttleLine, line]
  simp only [h, failIf_true, Nat.add_zero, w64]

/-- No home that the line may have denies a table. -/
theorem State.throttleLine_free {va : Nat} (c : Nat)
    (h : ∀ pa, s.linePa va = some pa → s.tile.denied table ((s.part s.tile.id.part).lineHome pa) = false) :
    s.throttleLine table va c = .ok () := by
  rw [State.throttleLine]
  cases line : s.linePa va with
  | none => rfl
  | some pa => simp only [h pa line, failIf_false]

theorem State.checkLine_denied (k : AccessKind) (c n : Nat) (held : s.tile.held ea.toNat = some e)
    (h : s.tile.denied 2 ((s.part s.tile.id.part).lineHome (e.pa + (ea.toNat - e.va))) = true) :
    s.checkLine k c ea n = .error (.cause 0x0A (BitVec.ofNat 64 (2 * 2 ^ 32 + 0)) c) := by
  rw [State.checkLine, State.throttleLine_denied c held h, check_error_bind]

/-- A reduction of a DET gang asks for table 3 as well (R219, R224). -/
theorem State.checkLine_heldBack (c n : Nat) (held : s.tile.held ea.toNat = some e)
    (h : s.tile.denied 2 ((s.part s.tile.id.part).lineHome (e.pa + (ea.toNat - e.va))) = false) (det : s.tile.gang.det = true)
    (h' : s.tile.denied 3 ((s.part s.tile.id.part).lineHome (e.pa + (ea.toNat - e.va))) = true) :
    s.checkLine .red c ea n = .error (.cause 0x0A (BitVec.ofNat 64 (3 * 2 ^ 32 + 0)) c) := by
  have line : s.linePa ea.toNat = some (e.pa + (ea.toNat - e.va)) := by
    rw [State.linePa, held]
    rfl
  have free : s.throttleLine 2 ea.toNat c = .ok () := State.throttleLine_free c fun pa hp => by
    obtain rfl := Option.some.inj (line.symm.trans hp)
    exact h
  have denied := State.throttleLine_denied c held h'
  rw [State.checkLine, free, check_ok_bind, denied, det]
  rfl

/-- No deny bit stands in the way: the checks of a global access follow. -/
theorem State.checkLine_free (c n : Nat) (h : LineFree s k ea.toNat) : s.checkLine k c ea n = s.scalarGlobal k c ea n := by
  have home : s.throttleLine 2 ea.toNat c = .ok () := State.throttleLine_free c fun pa hp => (h pa hp).1
  have det : (decide (k = .red) && s.tile.gang.det && (s.throttleLine 3 ea.toNat c).toOption.isNone) = false := by
    by_cases red : k = .red
    · cases on : s.tile.gang.det with
      | false => rw [Bool.and_false, Bool.false_and]
      | true =>
        rw [State.throttleLine_free c fun pa hp => (h pa hp).2 red on]
        exact Bool.and_false _
    · rw [decide_eq_false red, Bool.false_and, Bool.false_and]
  rw [State.checkLine, home, check_ok_bind, det, failIf_false, check_ok_bind, State.scalarGlobal]

end

section
variable {s : State} {i : Instr} {a b : GReg} {cause : Nat} {e : TlbEntry} (hw : s.tile.ex.cw = none)
include hw

theorem atomic_traps {op : AtomicOp} {c : Option GReg} {dw nat : Bool}
    (hi : s.tile.canIssue
      { regs := [.g a, .g b] ++ (match c with | some c => [.g c] | none => [])
        reads := [.g a, .g b] ++ (match c with | some c => [.g c] | none => [])
        cls := some .ld, hs := s.tile.handlesOf [((s.tile.g a).toNat, if dw then 8 else 4)] })
    (he : exec i s = atomicOp op a b c dw nat s) :
    (s.tile.held (s.tile.g a).toNat = some e →
      s.tile.denied 2 ((s.part s.tile.id.part).lineHome (e.pa + ((s.tile.g a).toNat - e.va))) = true → Throttles s i 6 2 0) ∧
    (LineFree s .atomic (s.tile.g a).toNat → GlobalTrap s .atomic (s.tile.g a).toNat (if dw then 8 else 4) cause →
      TrapsWith s i 6 cause (s.tile.g a)) := by
  unfold atomicOp at he
  exact ⟨fun held denied => throttles_of he hi hw (by decide) (bind_trap (State.checkLine_denied .atomic 6 _ held denied)),
    fun free trap => trapsWith_of he hi hw (cause_of_globalTrap trap) (by decide)
      (bind_trap ((State.checkLine_free 6 _ free).trans (State.scalarGlobal_trap trap)))⟩

theorem reduction_traps {op : RedOp} {ty : RedTy} (he : exec i s = reductionOp op a b ty s)
    (hi : s.tile.canIssue { regs := [.g a, .g b], reads := [.g a, .g b], cls := some .ms
                            hs := s.tile.handlesOf [((s.tile.g a).toNat, redSize ty)] }) :
    ((s.tile.held (s.tile.g a).toNat = some e →
      s.tile.denied 2 ((s.part s.tile.id.part).lineHome (e.pa + ((s.tile.g a).toNat - e.va))) = true → Throttles s i 7 2 0) ∧
    (LineFree s .red (s.tile.g a).toNat → GlobalTrap s .red (s.tile.g a).toNat (redSize ty) cause → TrapsWith s i 7 cause (s.tile.g a))) ∧
    (s.tile.held (s.tile.g a).toNat = some e →
      s.tile.denied 2 ((s.part s.tile.id.part).lineHome (e.pa + ((s.tile.g a).toNat - e.va))) = false → s.tile.gang.det = true →
      s.tile.denied 3 ((s.part s.tile.id.part).lineHome (e.pa + ((s.tile.g a).toNat - e.va))) = true → Throttles s i 7 3 0) := by
  rw [reductionOp] at he
  exact ⟨⟨fun held denied => throttles_of he hi hw (by decide) (bind_trap (State.checkLine_denied .red 7 _ held denied)),
    fun free trap => trapsWith_of he hi hw (cause_of_globalTrap trap) (by decide)
      (bind_trap ((State.checkLine_free 7 _ free).trans (State.scalarGlobal_trap trap)))⟩,
    fun held open_ det denied => throttles_of he hi hw (by decide) (bind_trap (State.checkLine_heldBack 7 _ held open_ det denied))⟩

end

theorem line_traps : LineTraps := fun s a b c dw nat ty cause e hw => by
  refine ⟨?_, fun hi => atomic_traps (op := .acas) (c := some c) hw hi rfl, ?_⟩
  · rintro i (rfl | rfl | rfl | rfl) hi
    · exact atomic_traps (op := .axchg) (c := none) (nat := false) hw hi rfl
    · exact atomic_traps (op := .aadd) (c := none) (nat := false) hw hi rfl
    · exact atomic_traps (op := .amin) (c := none) hw hi rfl
    · exact atomic_traps (op := .amax) (c := none) hw hi rfl
  · rintro i (rfl | rfl | rfl) hi
    · exact reduction_traps (op := .radd) hw rfl hi
    · exact reduction_traps (op := .rmin) hw rfl hi
    · exact reduction_traps (op := .rmax) hw rfl hi

/-! ## Counters -/

theorem word_zeroExtend (id : W32) : id.zeroExtend 64 = BitVec.ofNat 64 id.toNat := (BitVec.ofNat_toNat 64 id).symm

theorem ctrId_toNat (x : Word) : (ctrId x).toNat = x.toNat % 2 ^ 32 := BitVec.toNat_setWidth ..

theorem ctrId_low (x : Word) : BitVec.ofNat 32 (x.toNat % 2 ^ 32) = ctrId x := by
  rw [← ctrId_toNat, BitVec.ofNat_toNat, BitVec.setWidth_eq]

theorem ctrId_eq_zero {x : Word} : ctrId x = 0 ↔ x.toNat % 2 ^ 32 = 0 := by
  rw [← BitVec.toNat_inj, ctrId_toNat]
  rfl

section
variable {s : State} {id : W32} {c : Nat}

theorem State.throttle_denied {table : Nat} (h : s.tile.denied table ((s.part s.tile.id.part).ctrHome id) = true) :
    s.throttle table id c = .error (.cause 0x0A (BitVec.ofNat 64 (table * 2 ^ 32 + id.toNat)) c) := by
  rw [State.throttle, h, failIf_true]

theorem State.checkCtr_denied (some : id ≠ 0) (h : s.tile.denied 0 ((s.part s.tile.id.part).ctrHome id) = true) :
    s.checkCtr id c = .error (.cause 0x0A (BitVec.ofNat 64 (0 * 2 ^ 32 + id.toNat)) c) := by
  rw [State.checkCtr, if_neg some, State.throttle_denied h, check_error_bind]

theorem State.checkCtr_system (some : id ≠ 0) (h : s.tile.denied 0 ((s.part s.tile.id.part).ctrHome id) = false) (sys : 0xFFFFF000 ≤ id.toNat) :
    s.checkCtr id c = .error (.cause 0x07 (BitVec.ofNat 64 id.toNat) c) := by
  rw [State.checkCtr, if_neg some, State.throttle, h, failIf_false, check_ok_bind, sysCtr, decide_eq_true sys, failIf_true, word_zeroExtend]

end

/-- The operations on a counter: counter 0 is ILLEGAL, or what else makes the form so; then the checks of the counter follow (R197, R210,
R219). -/
def CounterOpTraps (s : State) (i : Instr) (id : W32) (bad : Prop) : Prop :=
  let home := (s.part s.tile.id.part).ctrHome id
  (bad → TrapsWith s i 0 0x01 (instrWord i)) ∧
  (¬bad → (s.tile.denied 0 home = true → Throttles s i 10 0 id.toNat) ∧
    (s.tile.denied 0 home = false → 0xFFFFF000 ≤ id.toNat → TrapsWith s i 10 0x07 (BitVec.ofNat 64 id.toNat)))

section
variable {s : State} {a b : GReg} (hw : s.tile.ex.cw = none)
include hw

theorem counterOp_traps {i : Instr} {bad : Prop} {n : Need} {body : State → Except Stop State} (he : exec i s = issue n body s)
    (hi : s.tile.canIssue n) (some : ¬bad → ctrId (s.tile.g a) ≠ 0) (illegal : bad → body s = .error (.cause 0x01 (instrWord i)))
    (checked : ¬bad → ∀ st, s.checkCtr (ctrId (s.tile.g a)) 10 = .error st → body s = .error st) :
    CounterOpTraps s i (ctrId (s.tile.g a)) bad :=
  ⟨fun h => trapsWith_of he hi hw (by decide) (by decide) (illegal h), fun h =>
    ⟨fun denied => throttles_of he hi hw (by decide) (checked h _ (State.checkCtr_denied (some h) denied)),
      fun open_ sys => trapsWith_of he hi hw (by decide) (by decide) (checked h _ (State.checkCtr_system (some h) open_ sys))⟩⟩

theorem checkCounter_traps {i : Instr} {n : Need} {f : State → Unit → Except Stop State}
    (he : exec i s = issue n (fun s => s.checkCounter i (ctrId (s.tile.g a)) >>= f s) s) (hi : s.tile.canIssue n) :
    CounterOpTraps s i (ctrId (s.tile.g a)) (ctrId (s.tile.g a) = 0) :=
  counterOp_traps hw he hi id
    (fun h => bind_trap (by rw [State.checkCounter, decide_eq_true h, failIf_true, check_error_bind]))
    fun h _ stop => bind_trap (by rw [State.checkCounter, decide_eq_false h, failIf_false, check_ok_bind, stop])

theorem rseal_traps (hi : s.tile.canIssue { regs := [.g a, .g b], reads := [.g a, .g b], cls := some .ms }) :
    CounterOpTraps s (.rseal a b) (ctrId (s.tile.g a)) (ctrId (s.tile.g a) = 0 ∨ bitsOf (s.tile.g b).toNat 31 0 = 0) :=
  counterOp_traps hw (show exec (.rseal a b) s = execRseal a b s from rfl) hi (fun h => (not_or.mp h).1)
    (fun h => by simp only [decide_eq_true h, failIf_true, check_error_bind])
    fun h _ stop => by simp only [decide_eq_false h, failIf_false, check_ok_bind, stop, check_error_bind]

theorem crd_illegal {d : GReg} {pend : Bool} (hi : s.tile.canIssue { regs := [.g d, .g a], reads := [.g a], cls := some .ld })
    (h : ctrId (s.tile.g a) = 0) : TrapsWith s (.crd d a pend) 0 0x01 (instrWord (.crd d a pend)) :=
  trapsWith_of (show exec (.crd d a pend) s = execCrd d a pend s from rfl) hi hw (by decide) (by decide)
    (by simp only [decide_eq_true h, failIf_true, check_error_bind])

theorem cwait_traps {sc : Scope} {acq nopend : Bool} {texp : Fin 32} (hi : s.tile.canIssue { regs := [.g a, .g b], reads := [.g a, .g b] }) :
    (ctrId (s.tile.g a) = 0 →
      TrapsWith s (.cwait a b sc acq nopend texp) 0 0x01 (instrWord (.cwait a b sc acq nopend texp))) ∧
    (ctrId (s.tile.g a) ≠ 0 → s.tile.denied 1 ((s.part s.tile.id.part).ctrHome (ctrId (s.tile.g a))) = true →
      s.atShedBarrier (ctrId (s.tile.g a)) = false → Throttles s (.cwait a b sc acq nopend texp) 10 1 (ctrId (s.tile.g a)).toNat) := by
  have he : exec (.cwait a b sc acq nopend texp) s = _ := show execCwait a b sc acq nopend texp s = _ by rw [execCwait, hw]
  refine ⟨fun h => trapsWith_of he hi hw (by decide) (by decide) ?_, fun some denied barrier => throttles_of he hi hw (by decide) ?_⟩
  · simp only [decide_eq_true h, failIf_true, check_error_bind]
  · simp only [decide_eq_false some, failIf_false, check_ok_bind, barrier, State.throttle_denied denied]
    rfl

end

theorem ctrId_toNat_eq_zero {x : Word} : (ctrId x).toNat = 0 ↔ ctrId x = 0 := BitVec.toNat_inj (y := 0#32)

theorem counter_traps : CounterTraps := fun s d a b sc rel acq nopend pend texp hw => by
  intro id home p two free
  have num : id = (ctrId (s.tile.g a)).toNat := (ctrId_toNat _).symm
  have at_ : home = (s.part s.tile.id.part).ctrHome (ctrId (s.tile.g a)) := congrArg (s.part s.tile.id.part).ctrHome (ctrId_low _)
  have part : p = bitsOf (s.tile.g b).toNat 31 0 := (bitsOf_low ..).symm
  have same : BitVec.ofNat 32 id = ctrId (s.tile.g a) := ctrId_low _
  clear_value id home p
  subst num at_ part
  simp only [same, ne_eq, ctrId_toNat_eq_zero]
  refine ⟨fun hi => ?_, crd_illegal hw, cwait_traps hw⟩
  rintro i (rfl | rfl | rfl | rfl)
  · obtain ⟨zero, checked⟩ := checkCounter_traps hw (show exec (.cadd a b sc rel) s = execCadd a b sc rel s from rfl) hi
    exact ⟨fun h => zero (h.resolve_right (nomatch ·.1)), fun h _ => checked h⟩
  · obtain ⟨zero, checked⟩ := checkCounter_traps hw (show exec (.cexp a b) s = execCexp a b s from rfl) hi
    exact ⟨fun h => zero (h.resolve_right (nomatch ·.1)), fun h _ => checked h⟩
  · obtain ⟨zero, checked⟩ := checkCounter_traps hw (show exec (.cset a b) s = execCset a b s from rfl) hi
    exact ⟨fun h => zero (h.resolve_right (nomatch ·.1)), fun h _ => checked h⟩
  · obtain ⟨bad, checked⟩ := rseal_traps hw hi
    exact ⟨fun h => bad (h.imp_right (·.2)), fun h h' => checked (not_or_intro h (h' rfl))⟩

end Sys2Proof.Machine
end

section
/-! SUPPORT. The traps of copies (R166, R187, R189 to R193, R210, R219). -/

namespace Sys2Proof.Machine

/-! ## Counters that a form names -/

section
variable {s : State} {id : W32}

/-- The THROTTLE check of a counter that a form may leave out (R163, R219). -/
theorem State.throttle_undenied (c : Nat) (h : CtrUndenied s id) : (decide (id ≠ 0) && (s.throttle 0 id c).toOption.isNone) = false := by
  obtain rfl | free := h
  · rfl
  · rw [State.throttle, free, failIf_false]
    exact Bool.and_false _

theorem State.throttle_hit (c : Nat) (h : ¬CtrUndenied s id) : (decide (id ≠ 0) && (s.throttle 0 id c).toOption.isNone) = true := by
  obtain ⟨some, denied⟩ := not_or.mp h
  rw [State.throttle_denied (Bool.not_eq_false _ ▸ denied), decide_eq_true some]
  rfl

theorem undenied_of_free (h : CtrFree s id) : CtrUndenied s id := h.imp_right (·.2)

/-- The first counter that is denied gives the trap. -/
theorem State.throttleCopy_denied (l : List W32) {l' : List W32} (before : ∀ c ∈ l, CtrUndenied s c) (h : ¬CtrUndenied s id) :
    s.throttleCopy (l ++ id :: l') = .error (.cause 0x0A (BitVec.ofNat 64 (0 * 2 ^ 32 + id.toNat)) 8) := by
  have first : (l ++ id :: l').find? (fun id => decide (id ≠ 0) && (s.throttle 0 id 8).toOption.isNone) = some id :=
    List.find?_eq_some_iff_append.mpr ⟨State.throttle_hit 8 h, l, l', rfl, fun c hc => by rw [State.throttle_undenied 8 (before c hc)]; rfl⟩
  rw [State.throttleCopy, first, Nat.zero_mul, Nat.zero_add, ← word_zeroExtend]

theorem State.throttleCopy_free {l : List W32} (h : ∀ c ∈ l, CtrUndenied s c) : s.throttleCopy l = .ok () := by
  have none : l.find? (fun id => decide (id ≠ 0) && (s.throttle 0 id 8).toOption.isNone) = none :=
    List.find?_eq_none.mpr fun c hc => by rw [State.throttle_undenied 8 (h c hc)]; decide
  rw [State.throttleCopy, none]

theorem forall_mem_one {α : Type} {p : α → Prop} {x : α} (h : p x) : ∀ y ∈ [x], p y := by simpa using h

theorem forall_mem_two {α : Type} {p : α → Prop} {x y : α} (h : p x) (h' : p y) : ∀ z ∈ [x, y], p z := by simpa using ⟨h, h'⟩

end

/-! ## The range of a copy -/

section
variable {s : State} {k : AccessKind} {ids : List W32} {va n : Nat}

/-- The walk has said that no leaf maps an address of a range (R340). -/
theorem State.checkGap_unmapped {x : Nat} (trap : Nat → Stop) (h : Unmapped s x) : s.checkGap (some x) trap = .error (trap x) := by
  refine congrArg Except.error (if_pos (h.imp_right fun ⟨told, unmapped⟩ => ⟨List.contains_iff_mem.mpr told, ?_⟩))
  rw [unmapped]
  rfl

/-- The first page of a range that does not pass a check, and a range that passes it. -/
theorem find_failing (p : TlbEntry → Bool) {l1 l2 : List TlbEntry} {e : TlbEntry} (before : ∀ q ∈ l1, p q = true) (h : p e = false) :
    (l1 ++ e :: l2).find? (fun q => !p q) = some e :=
  List.find?_eq_some_iff_append.mpr ⟨by rw [h]; rfl, l1, l2, rfl, fun q hq => by rw [before q hq]; rfl⟩

theorem find_failing_none {p : TlbEntry → Bool} {l : List TlbEntry} (h : ∀ q ∈ l, p q = true) : l.find? (fun q => !p q) = none :=
  List.find?_eq_none.mpr fun q hq => by rw [h q hq]; decide

theorem State.checkRange_trap {cause tval : Nat} (h : RangeTrap s k ids va n cause tval) :
    s.checkRange k ids va n = .error (.cause cause (BitVec.ofNat 64 tval) 8) := by
  obtain ⟨mode, l, gap, pages, ⟨x, rfl, unmapped, rfl, rfl⟩ | ⟨rfl, id, sys, rfl, rfl⟩ | ⟨rfl, plain, l1, e, l2, rfl, rfl, bad⟩⟩ := h
  · simp only [State.checkRange, modeWait_false mode, failIf_false, check_ok_bind, pages, State.checkGap_unmapped _ unmapped,
      check_error_bind, w64]
  · have first : ids.find? sysCtr = some id := sys
    simp only [State.checkRange, modeWait_false mode, failIf_false, check_ok_bind, pages, State.checkGap, first, word_zeroExtend]
  · have open_ : ids.find? sysCtr = none := List.find?_eq_none.mpr fun i hi => by simpa [sysCtr] using plain i hi
    obtain ⟨before, perm, rfl⟩ | ⟨perms, before, mode', rfl⟩ := bad
    · have first := find_failing (fun e => permits e.perms s.tile.ex.prv k) (l2 := l2) before perm
      simp only [State.checkRange, modeWait_false mode, failIf_false, check_ok_bind, pages, State.checkGap, open_, first, w64]
    · have all := find_failing_none (p := fun e => permits e.perms s.tile.ex.prv k) perms
      have first := find_failing _ (l2 := l2) before mode'
      simp only [State.checkRange, modeWait_false mode, failIf_false, check_ok_bind, pages, State.checkGap, open_, all, first, w64]

theorem State.checkRange_reaches (h : ∃ l, RangeReaches s k va n l) (free : ∀ c ∈ ids, CtrFree s c) : ∃ l, s.checkRange k ids va n = .ok l := by
  obtain ⟨l, pages, mode, perms⟩ := h
  have open_ : ids.find? sysCtr = none := List.find?_eq_none.mpr fun c hc => by rw [sysCtr_of_free (free c hc)]; decide
  have permitted := find_failing_none (p := fun e => permits e.perms s.tile.ex.prv k) fun e he => (perms e he).1
  have admitted := find_failing_none (l := l)
    (p := fun e => admits (s.tile.modeFor e (e.lowest va)).1 ((s.tile.modeFor e (e.lowest va)).2 == s.tile.id.vt) k) fun e he => (perms e he).2
  refine ⟨pageBases l va n, ?_⟩
  simp only [State.checkRange, modeWait_false mode, failIf_false, check_ok_bind, pages, State.checkGap, open_, permitted, admitted]

end

/-- The conditions of a range are none of the traps of fetch, THROTTLE and ECC. -/
theorem cause_of_rangeTrap {s : State} {k : AccessKind} {ids : List W32} {va n cause tval : Nat} (h : RangeTrap s k ids va n cause tval) :
    cause ∉ [0x02, 0x0A, 0x0B] := by
  obtain ⟨-, l, gap, -, ⟨x, -, -, rfl, -⟩ | ⟨-, id, -, rfl, -⟩ | ⟨-, -, l1, e, l2, -, -, ⟨-, -, rfl⟩ | ⟨-, -, -, rfl⟩⟩⟩ := h
  · decide
  · decide
  · decide
  · decide

/-! ## CPIN and CPOUT -/

/-- The checks of a copy between a range and a shingle, in order (R187, R253); what follows them is left open. -/
def rangeCopy {α : Type} (k : AccessKind) (ids : List W32) (va len : Nat) (n : Fin 64) (role : ShRole) (waits : State → Except Stop Unit)
    (rest : State → List (Nat × Nat) → Shingle → Except Stop α) (s : State) : Except Stop α := do
  s.throttleCopy ids
  let pages ← waitsFirst (s.checkRange k ids va len) (waits s)
  let x ← s.tile.namedTraps n role 8
  rest s pages x

section
variable {s : State} {cause tval : Nat} (hw : s.tile.ex.cw = none)
include hw

/-- The traps of a copy between a range and a shingle. -/
theorem rangeCopy_traps {i : Instr} {need : Need} {k : AccessKind} {ids : List W32} {va len : Nat} {n : Fin 64} {role : ShRole}
    {waits : State → Except Stop Unit} {rest : State → List (Nat × Nat) → Shingle → Except Stop State}
    (he : exec i s = issue need (rangeCopy k ids va len n role waits rest) s) (hi : s.tile.canIssue need) :
    (∀ l id l', ids = l ++ id :: l' → (∀ c ∈ l, CtrUndenied s c) → ¬CtrUndenied s id → Throttles s i 8 0 id.toNat) ∧
    ((∀ c ∈ ids, CtrUndenied s c) → RangeTrap s k ids va len cause tval → TrapsWith s i 8 cause (BitVec.ofNat 64 tval)) ∧
    ((∀ c ∈ ids, CtrFree s c) → (∃ l, RangeReaches s k va len l) → s.tile.sh n = none →
      TrapsWith s i 8 0x09 (BitVec.ofNat 64 (1024 + n.val))) := by
  refine ⟨fun l id l' e before denied => throttles_of he hi hw (by decide) ?_,
    fun free trap => trapsWith_of he hi hw (cause_of_rangeTrap trap) (by decide) ?_,
    fun free reaches absent => trapsWith_of he hi hw (by decide) (by decide) ?_⟩
  · rw [rangeCopy, e, State.throttleCopy_denied l before denied, check_error_bind]
  · rw [rangeCopy, State.throttleCopy_free free, check_ok_bind, State.checkRange_trap trap]
    rfl
  · obtain ⟨pages, range⟩ := State.checkRange_reaches reaches free
    rw [rangeCopy, State.throttleCopy_free fun c hc => undenied_of_free (free c hc), check_ok_bind, range]
    show (s.tile.namedTraps n role 8 >>= _) = _
    rw [Tile.namedTraps_undefined role 8 absent, check_error_bind]

variable {a b : GReg}

theorem cpin_traps {sc : Scope} {acq xp : Bool} {id : W32} (hid : ctrId (s.tile.g b) = id) {n : Fin 64} (hn : copySh (s.tile.g a) = n)
    {va : Nat} (hva : copyVa (s.tile.g a) = va) {len : Nat}
    (hlen : (if bitsOf (s.tile.g b).toNat 51 32 ≠ 0 then bitsOf (s.tile.g b).toNat 51 32 else (s.tile.sh n).elim 0 fun x => x.len * 64) = len)
    (hi : s.tile.canIssue { regs := [.g a, .g b], reads := [.g a, .g b], cls := some .cp, hs := s.tile.handlesOf [(va, len)] }) :
    (¬CtrUndenied s id → Throttles s (.cpin a b sc acq xp) 8 0 id.toNat) ∧
    (CtrUndenied s id → RangeTrap s .copyIn [id] va len cause tval → TrapsWith s (.cpin a b sc acq xp) 8 cause (BitVec.ofNat 64 tval)) ∧
    (CtrFree s id → (∃ l, RangeReaches s .copyIn va len l) → s.tile.sh n = none →
      TrapsWith s (.cpin a b sc acq xp) 8 0x09 (BitVec.ofNat 64 (1024 + n.val))) := by
  have he : ∃ waits rest, exec (.cpin a b sc acq xp) s =
      issue { regs := [.g a, .g b], reads := [.g a, .g b], cls := some .cp, hs := s.tile.handlesOf [(va, len)] }
        (rangeCopy .copyIn [id] va len n .fill waits rest) s := by
    rw [show exec (.cpin a b sc acq xp) s = execCpin a b sc acq xp s from rfl]
    unfold execCpin
    extract_lets sh start ctr l bytes hs
    subst hn
    have same : bytes = len := by
      rw [← hlen]
      unfold bytes sh
      cases s.tile.sh (copySh (s.tile.g a)) with
      | none => rfl
      | some x => rfl
    clear_value bytes
    subst same hid hva
    exact ⟨_, _, rfl⟩

  obtain ⟨waits, rest, he⟩ := he
  obtain ⟨denied, range, absent⟩ := rangeCopy_traps (cause := cause) (tval := tval) hw he hi
  exact ⟨denied [] id [] rfl (by simp), fun free => range (forall_mem_one free), fun free => absent (forall_mem_one free)⟩

theorem cpout_traps {sc : Scope} {rel : Bool} {id id2 : W32} (hid : ctrId (s.tile.g b) = id) (hid2 : ctrId (s.tile.g b >>> 32) = id2)
    {n : Fin 64} (hn : copySh (s.tile.g a) = n) {va : Nat} (hva : copyVa (s.tile.g a) = va) {len : Nat}
    (hlen : (s.tile.sh n).elim 0 Shingle.wmark = len)
    (hi : s.tile.canIssue { regs := [.g a, .g b], reads := [.g a, .g b], cls := some .cp, hs := s.tile.handlesOf [(va, len)] }) :
    (¬CtrUndenied s id → Throttles s (.cpout a b sc rel) 8 0 id.toNat) ∧
    (CtrUndenied s id → ¬CtrUndenied s id2 → Throttles s (.cpout a b sc rel) 8 0 id2.toNat) ∧
    (CtrUndenied s id → CtrUndenied s id2 → RangeTrap s .copyOut [id, id2] va len cause tval →
      TrapsWith s (.cpout a b sc rel) 8 cause (BitVec.ofNat 64 tval)) ∧
    (CtrFree s id → CtrFree s id2 → (∃ l, RangeReaches s .copyOut va len l) → s.tile.sh n = none →
      TrapsWith s (.cpout a b sc rel) 8 0x09 (BitVec.ofNat 64 (1024 + n.val))) := by
  have he : ∃ waits rest, exec (.cpout a b sc rel) s =
      issue { regs := [.g a, .g b], reads := [.g a, .g b], cls := some .cp, hs := s.tile.handlesOf [(va, len)] }
        (rangeCopy .copyOut [id, id2] va len n .drain waits rest) s := by
    rw [show exec (.cpout a b sc rel) s = execCpout a b sc rel s from rfl]
    unfold execCpout
    extract_lets sh start released visible bytes hs
    subst hn
    have same : bytes = len := by
      rw [← hlen]
      unfold bytes sh
      cases s.tile.sh (copySh (s.tile.g a)) with
      | none => rfl
      | some x => rfl
    clear_value bytes
    subst same hid hid2 hva
    exact ⟨_, _, rfl⟩

  obtain ⟨waits, rest, he⟩ := he
  obtain ⟨denied, range, absent⟩ := rangeCopy_traps (cause := cause) (tval := tval) hw he hi
  exact ⟨denied [] id [id2] rfl (by simp), fun free => denied [id] id2 [] rfl (forall_mem_one free),
    fun free free2 => range (forall_mem_two free free2), fun free free2 => absent (forall_mem_two free free2)⟩

/-! ## CPDEAL and CPT -/

theorem cpdeal_illegal {sc : Scope} {acq xp : Bool} (h : s.tile.gang.prog.deals[bitsOf (s.tile.g b).toNat 39 32]? = none)
    (hi : s.tile.canIssue { regs := [.g a, .g b], reads := [.g a, .g b] }) :
    TrapsWith s (.cpdeal a b sc acq xp) 0 0x01 (instrWord (.cpdeal a b sc acq xp)) := by
  have he : exec (.cpdeal a b sc acq xp) s = execCpdeal a b sc acq xp s := rfl
  rw [execCpdeal] at he
  simp only [h] at he
  exact trapsWith_of he hi hw (by decide) (by decide) rfl

theorem cpdeal_traps {sc : Scope} {acq xp : Bool} {d : Deal} (h : s.tile.gang.prog.deals[bitsOf (s.tile.g b).toNat 39 32]? = some d)
    {id : W32} (hid : ctrId (s.tile.g b) = id) {va : Nat} (hva : copyVa (s.tile.g a) = va) {len : Nat}
    (hlen : bitsOf (s.tile.g b).toNat 63 40 = len) (nonzero : len ≠ 0)
    (hi : s.tile.canIssue { regs := [.g a, .g b], reads := [.g a, .g b], cls := some .cp, hs := s.tile.handlesOf [(va, len)] }) :
    (¬CtrUndenied s id → Throttles s (.cpdeal a b sc acq xp) 8 0 id.toNat) ∧
    (CtrUndenied s id → RangeTrap s .copyIn [id] va len cause tval →
      TrapsWith s (.cpdeal a b sc acq xp) 8 cause (BitVec.ofNat 64 tval)) := by
  subst hid hva hlen
  have he : exec (.cpdeal a b sc acq xp) s = execCpdeal a b sc acq xp s := rfl
  rw [execCpdeal] at he
  simp only [h, nonzero, if_false] at he
  refine ⟨fun denied => throttles_of he hi hw (by decide) ?_,
    fun free trap => trapsWith_of he hi hw (cause_of_rangeTrap trap) (by decide) ?_⟩
  · exact bind_trap (State.throttleCopy_denied [] (by simp) denied)
  · simp only [State.throttleCopy_free (forall_mem_one free), check_ok_bind, State.checkRange_trap trap, check_error_bind]

theorem cpt_traps {xp : Bool} {id : W32} (hid : ctrId (s.tile.g b) = id) {src : Fin 64} {dst : Nat}
    (hdst : bitsOf (s.tile.g a).toNat 23 0 = dst) (hsrc : Fin.ofNat 64 (bitsOf (s.tile.g a).toNat 37 32) = src)
    (hi : s.tile.canIssue { regs := [.g a, .g b], reads := [.g a, .g b], cls := some .cp }) :
    (¬CtrUndenied s id → Throttles s (.cpt a b xp) 8 0 id.toNat) ∧
    (CtrUndenied s id → ¬inGrid s.tile.gang.rows s.tile.gang.cols dst = true → TrapsWith s (.cpt a b xp) 8 0x06 (s.tile.g a)) ∧
    (CtrUndenied s id → inGrid s.tile.gang.rows s.tile.gang.cols dst = true → 0xFFFFF000 ≤ id.toNat →
      TrapsWith s (.cpt a b xp) 8 0x07 (BitVec.ofNat 64 id.toNat)) ∧
    (CtrFree s id → inGrid s.tile.gang.rows s.tile.gang.cols dst = true → s.tile.sh src = none →
      TrapsWith s (.cpt a b xp) 8 0x09 (BitVec.ofNat 64 (1024 + src.val))) := by
  subst hid hdst hsrc
  have he : exec (.cpt a b xp) s = execCpt a b xp s := rfl
  rw [execCpt] at he
  refine ⟨fun denied => throttles_of he hi hw (by decide) ?_, fun free outside => trapsWith_of he hi hw (by decide) (by decide) ?_,
    fun free inside sys => trapsWith_of he hi hw (by decide) (by decide) ?_,
    fun free inside absent => trapsWith_of he hi hw (by decide) (by decide) ?_⟩
  · exact bind_trap (State.throttleCopy_denied [] (by simp) denied)
  · simp only [State.throttleCopy_free (forall_mem_one free), check_ok_bind, outside, Bool.not_false, failIf_true, check_error_bind]
  · simp only [State.throttleCopy_free (forall_mem_one free), check_ok_bind, inside, Bool.not_true, failIf_false, sysCtr,
      decide_eq_true sys, failIf_true, check_error_bind, word_zeroExtend]
  · simp only [State.throttleCopy_free (forall_mem_one (undenied_of_free free)), check_ok_bind, inside, Bool.not_true, failIf_false,
      sysCtr_of_free free, Tile.namedTraps_undefined .read 8 absent, check_error_bind]

end

/-- A shingle number is six bits of its word (R163, R187). -/
theorem sh_of_bits (x lo : Nat) : (Fin.ofNat 64 (bitsOf x (lo + 5) lo) : Fin 64) = Fin.ofNat 64 (x / 2 ^ lo) := by
  refine Fin.ext ?_
  rw [bitsOf_eq, show lo + 5 + 1 - lo = 6 by omega]
  exact Nat.mod_mod _ 64

theorem ctrId_high (x : Word) : ctrId (x >>> 32) = BitVec.ofNat 32 (x.toNat / 2 ^ 32) := by
  rw [ctrId_eq, BitVec.toNat_ushiftRight, Nat.shiftRight_eq_div_pow]

theorem copy_traps : CopyTraps := fun s a b sc acq rel xp cause tval hw => by
  have total : bitsOf (s.tile.g b).toNat 63 40 = (s.tile.g b).toNat / 2 ^ 40 := Nat.mod_eq_of_lt (by omega)
  refine ⟨fun hi => ?_, fun hi => ?_, ⟨fun h hi => ?_, fun d h nonzero hi => ?_⟩, fun hi => ?_⟩
  · exact cpin_traps hw (ctrId_eq _) (sh_of_bits _ 56) (bitsOf_low _ 55) rfl hi
  · exact cpout_traps hw (ctrId_eq _) (ctrId_high _) (sh_of_bits _ 56) (bitsOf_low _ 55) rfl hi
  · exact cpdeal_illegal hw h hi
  · exact cpdeal_traps hw h (ctrId_eq _) (bitsOf_low _ 55) total nonzero hi
  · exact cpt_traps hw (ctrId_eq _) (bitsOf_low _ 23) (sh_of_bits _ 32) hi

end Sys2Proof.Machine
end

section
/-! SUPPORT. The traps of messages and of HANDOVER (R199, R201, R210, R219, R229), and the statement about precise traps. -/

namespace Sys2Proof.Machine

/-! ## SEND, SENDV and CALLAT -/

section
variable {s : State} {a b : GReg} {sc : Scope} {rel : Bool} (hw : s.tile.ex.cw = none)

theorem Tile.checkVtile_outside {t : Tile} {x : Word} (h : inGrid t.gang.rows t.gang.cols (x.toNat % 2 ^ 24) = false) :
    t.checkVtile x = .error (.cause 0x06 x 10) := by
  rw [Tile.checkVtile, bitsOf_low, h, Bool.not_false, failIf_true]

theorem localWindow_none {ea : Word} (c : Nat) (h : windowOf ea.toNat = none) : localWindow ea c = .error (.cause 0x06 ea c) := by
  rw [localWindow, h]

theorem localWindow_some {ea : Word} (c : Nat) (h : windowOf ea.toNat ≠ none) : ∃ w, localWindow ea c = .ok w := by
  obtain ⟨w, hw⟩ := Option.ne_none_iff_exists'.mp h
  exact ⟨w, by rw [localWindow, hw]⟩

include hw

theorem send_traps (hi : s.tile.canIssue { regs := [.g a, .g b], reads := [.g a, .g b], cls := some .ms }) :
    ((s.tile.g b).toNat % 64 ≠ 0 → TrapsWith s (.send a b sc rel) 10 0x04 (s.tile.g b)) ∧
    ((s.tile.g b).toNat % 64 = 0 → windowOf (s.tile.g b).toNat = none → TrapsWith s (.send a b sc rel) 10 0x06 (s.tile.g b)) ∧
    ((s.tile.g b).toNat % 64 = 0 → windowOf (s.tile.g b).toNat ≠ none →
      inGrid s.tile.gang.rows s.tile.gang.cols ((s.tile.g a).toNat % 2 ^ 24) = false →
      TrapsWith s (.send a b sc rel) 10 0x06 (s.tile.g a)) := by
  have he : exec (.send a b sc rel) s = execSend a b sc rel s := rfl
  rw [execSend] at he
  have aligned (h : (s.tile.g b).toNat % 64 = 0) : decide ((s.tile.g b).toNat % 64 ≠ 0) = false := decide_eq_false (not_not_intro h)
  refine ⟨fun odd => trapsWith_of he hi hw (by decide) (by decide) (bind_trap ?_),
    fun even none => trapsWith_of he hi hw (by decide) (by decide) (bind_trap ?_),
    fun even some outside => trapsWith_of he hi hw (by decide) (by decide) (bind_trap ?_)⟩
  · rw [Tile.checkPayload, decide_eq_true odd, failIf_true, check_error_bind]
  · rw [Tile.checkPayload, aligned even, failIf_false, check_ok_bind, localWindow_none 10 none, check_error_bind]
  · obtain ⟨w, window⟩ := localWindow_some 10 some
    rw [Tile.checkPayload, aligned even, failIf_false, check_ok_bind, window, check_ok_bind]
    exact bind_trap (Tile.checkVtile_outside outside)

theorem sendv_outside {v : VReg} (hi : s.tile.canIssue { regs := [.g a, .v v], reads := [.g a, .v v], cls := some .ms })
    (h : inGrid s.tile.gang.rows s.tile.gang.cols ((s.tile.g a).toNat % 2 ^ 24) = false) :
    TrapsWith s (.sendv a v sc rel) 10 0x06 (s.tile.g a) :=
  trapsWith_of (show exec (.sendv a v sc rel) s = execSendv a v sc rel s from rfl) hi hw (by decide) (by decide)
    (bind_trap (Tile.checkVtile_outside h))

theorem callat_traps (hi : s.tile.canIssue
      { regs := [.g a, .g b, .g (b + 1), .g (b + 2), .g (b + 3)], reads := [.g a, .g b, .g (b + 1), .g (b + 2), .g (b + 3)]
        cls := some .ms }) :
    (28 < b.val → TrapsWith s (.callat a b sc rel) 0 0x01 (instrWord (.callat a b sc rel))) ∧
    (b.val ≤ 28 → inGrid s.tile.gang.rows s.tile.gang.cols ((s.tile.g a).toNat % 2 ^ 24) = false →
      TrapsWith s (.callat a b sc rel) 10 0x06 (s.tile.g a)) := by
  have he : exec (.callat a b sc rel) s = execCallat a b sc rel s := rfl
  unfold execCallat at he
  refine ⟨fun past => trapsWith_of he hi hw (by decide) (by decide) ?_,
    fun fits outside => trapsWith_of he hi hw (by decide) (by decide) ?_⟩
  · simp only [decide_eq_true (show b.val > 28 from past), failIf_true, check_error_bind]
  · simp only [decide_eq_false (show ¬b.val > 28 by omega), failIf_false, check_ok_bind, Tile.checkVtile_outside outside, check_error_bind]

end

theorem message_traps : MessageTraps := fun _ _ _ _ _ _ hw => ⟨send_traps hw, sendv_outside hw, callat_traps hw⟩

/-! ## HANDOVER -/

/-- The first page of a range that meets a condition, and a range of which none does. -/
theorem find_meeting {p : TlbEntry → Prop} [DecidablePred p] {l1 l2 : List TlbEntry} {e : TlbEntry} (before : ∀ q ∈ l1, ¬p q) (h : p e) :
    (l1 ++ e :: l2).find? (fun q => decide (p q)) = some e :=
  List.find?_eq_some_iff_append.mpr ⟨decide_eq_true h, l1, l2, rfl, fun q hq => by rw [decide_eq_false (before q hq)]; rfl⟩

theorem find_meeting_none {p : TlbEntry → Prop} [DecidablePred p] {l : List TlbEntry} (h : ∀ q ∈ l, ¬p q) :
    l.find? (fun q => decide (p q)) = none :=
  List.find?_eq_none.mpr fun q hq => by rw [decide_eq_false (h q hq)]; decide

/-- The checks of the pages of a HANDOVER (R229): those inside its range, their permission, and their owner. -/
def Tile.handoverPages (t : Tile) (r : Handle) (l : List TlbEntry) : Except Stop Unit :=
  match l.find? fun e => decide (e.va < r.base.toNat ∨ r.base.toNat + r.span < e.va + e.size) with
  | some e => .error (.cause 0x07 (BitVec.ofNat 64 e.va) 10)
  | none =>
    match l.find? fun e => !permits e.perms t.ex.prv .handover with
    | some e => .error (.cause 0x07 (BitVec.ofNat 64 e.va) 10)
    | none =>
      match l.find? fun e => decide (t.modeFor e e.va ≠ (0, t.id.vt)) with
      | some e => .error (.cause 0x08 (BitVec.ofNat 64 e.va) 10)
      | none => .ok ()

/-- The whole of a page lies in the range of a handle (R229). -/
def Handle.Holds (r : Handle) (e : TlbEntry) : Prop := r.base.toNat ≤ e.va ∧ e.va + e.size ≤ r.base.toNat + r.span

section
variable {t : Tile} {r : Handle} {l1 l2 : List TlbEntry} {e : TlbEntry}

theorem Handle.not_holds_iff {r : Handle} {e : TlbEntry} : ¬r.Holds e ↔ e.va < r.base.toNat ∨ r.base.toNat + r.span < e.va + e.size := by
  rw [Handle.Holds]
  omega

theorem Handle.find_none {r : Handle} {l : List TlbEntry} (h : ∀ q ∈ l, r.Holds q) :
    l.find? (fun e => decide (e.va < r.base.toNat ∨ r.base.toNat + r.span < e.va + e.size)) = none :=
  find_meeting_none fun q hq => mt Handle.not_holds_iff.mpr (not_not_intro (h q hq))

theorem Tile.handoverPages_outlying (before : ∀ q ∈ l1, r.Holds q) (h : ¬r.Holds e) :
    t.handoverPages r (l1 ++ e :: l2) = .error (.cause 0x07 (BitVec.ofNat 64 e.va) 10) := by
  have first := find_meeting (l2 := l2) (fun q hq => mt Handle.not_holds_iff.mpr (not_not_intro (before q hq))) (Handle.not_holds_iff.mp h)
  rw [Tile.handoverPages, first]

theorem Tile.handoverPages_perm (inside : ∀ q ∈ l1 ++ e :: l2, r.Holds q) (before : ∀ q ∈ l1, permits q.perms t.ex.prv .handover = true)
    (h : ¬permits e.perms t.ex.prv .handover = true) :
    t.handoverPages r (l1 ++ e :: l2) = .error (.cause 0x07 (BitVec.ofNat 64 e.va) 10) := by
  have first := find_failing (fun e => permits e.perms t.ex.prv .handover) (l2 := l2) before (Bool.not_eq_true _ ▸ h)
  simp only [Tile.handoverPages, Handle.find_none inside, first]

theorem Tile.handoverPages_mode (inside : ∀ q ∈ l1 ++ e :: l2, r.Holds q)
    (perms : ∀ q ∈ l1 ++ e :: l2, permits q.perms t.ex.prv .handover = true) (before : ∀ q ∈ l1, t.modeFor q q.va = (0, t.id.vt))
    (h : t.modeFor e e.va ≠ (0, t.id.vt)) : t.handoverPages r (l1 ++ e :: l2) = .error (.cause 0x08 (BitVec.ofNat 64 e.va) 10) := by
  have all := find_failing_none (p := fun e => permits e.perms t.ex.prv .handover) perms
  have first := find_meeting (p := fun e => t.modeFor e e.va ≠ (0, t.id.vt)) (l2 := l2) (fun q hq => not_not_intro (before q hq)) h
  simp only [Tile.handoverPages, Handle.find_none inside, all, first]

end

section
variable {s : State} {ga : Word} {r : Handle} {id : W32} {read : Bool} {l : List TlbEntry} {gap : Option Nat}
  (hp : s.tile.handPages r.base.toNat r.span = (l, gap))
  (hm : r.span ≠ 0 → s.modePending s.tile.gang.asid r.base.toNat r.span = false)
include hp hm

theorem State.checkHandover_denied (h : ¬CtrUndenied s id) :
    s.checkHandover ga r id read = .error (.cause 0x0A (BitVec.ofNat 64 (0 * 2 ^ 32 + id.toNat)) 10) := by
  simp only [State.checkHandover, hp, modeWait_false hm, failIf_false, check_ok_bind, State.throttle_hit 10 h, failIf_true, check_error_bind,
    Nat.zero_mul, Nat.zero_add, word_zeroExtend]

variable (hc : CtrUndenied s id)
include hc

theorem State.checkHandover_unaligned (h : r.base.toNat % 65536 ≠ 0 ∨ r.len.toNat % 65536 ≠ 0) :
    s.checkHandover ga r id read = .error (.cause 0x04 (BitVec.ofNat 64 r.base.toNat) 10) := by
  simp only [State.checkHandover, hp, modeWait_false hm, failIf_false, check_ok_bind, State.throttle_undenied 10 hc, decide_eq_true h, failIf_true,
    check_error_bind, w64]

variable (hb : r.base.toNat % 65536 = 0) (hl : r.len.toNat % 65536 = 0)
include hb hl

/-- A handle of whole pages (R229): the check of the translations is next. -/
theorem State.checkHandover_aligned : s.checkHandover ga r id read =
    (do s.checkGap gap fun va => .cause 0x06 (BitVec.ofNat 64 va) 10
        failIf (!read && !inGrid s.tile.gang.rows s.tile.gang.cols (ga.toNat % 2 ^ 24)) (.cause 0x06 ga 10)
        failIf (sysCtr id) (.cause 0x07 (BitVec.ofNat 64 id.toNat) 10)
        s.tile.handoverPages r l) := by
  have aligned : decide (r.base.toNat % 65536 ≠ 0 ∨ r.len.toNat % 65536 ≠ 0) = false := decide_eq_false (by omega)
  simp only [State.checkHandover, hp, modeWait_false hm, failIf_false, check_ok_bind, State.throttle_undenied 10 hc, aligned, bitsOf_low,
    word_zeroExtend]
  rfl

theorem State.checkHandover_unmapped {x : Nat} (hg : gap = some x) (h : Unmapped s x) :
    s.checkHandover ga r id read = .error (.cause 0x06 (BitVec.ofNat 64 x) 10) := by
  rw [State.checkHandover_aligned hp hm hc hb hl, hg, State.checkGap_unmapped _ h, check_error_bind]

variable (hg : gap = none)
include hg

theorem State.checkHandover_outside (h : ¬(read = true ∨ inGrid s.tile.gang.rows s.tile.gang.cols (ga.toNat % 2 ^ 24) = true)) :
    s.checkHandover ga r id read = .error (.cause 0x06 ga 10) := by
  obtain ⟨own, outside⟩ := not_or.mp h
  rw [State.checkHandover_aligned hp hm hc hb hl, hg, State.checkGap, check_ok_bind, (Bool.not_eq_true _).mp own,
    (Bool.not_eq_true _).mp outside]
  rfl

variable (inside : read = true ∨ inGrid s.tile.gang.rows s.tile.gang.cols (ga.toNat % 2 ^ 24) = true)
include inside

theorem State.checkHandover_inside : s.checkHandover ga r id read =
    (do failIf (sysCtr id) (.cause 0x07 (BitVec.ofNat 64 id.toNat) 10)
        s.tile.handoverPages r l) := by
  have owner : (!read && !inGrid s.tile.gang.rows s.tile.gang.cols (ga.toNat % 2 ^ 24)) = false := by
    obtain e | e := inside
    · rw [e, Bool.not_true, Bool.false_and]
    · rw [e, Bool.not_true, Bool.and_false]
  rw [State.checkHandover_aligned hp hm hc hb hl, hg, State.checkGap, check_ok_bind, owner, failIf_false, check_ok_bind]

theorem State.checkHandover_system (h : 0xFFFFF000 ≤ id.toNat) :
    s.checkHandover ga r id read = .error (.cause 0x07 (BitVec.ofNat 64 id.toNat) 10) := by
  rw [State.checkHandover_inside hp hm hc hb hl hg inside, sysCtr, decide_eq_true h, failIf_true, check_error_bind]

theorem State.checkHandover_pages (h : id.toNat < 0xFFFFF000) : s.checkHandover ga r id read = s.tile.handoverPages r l := by
  rw [State.checkHandover_inside hp hm hc hb hl hg inside, sysCtr, decide_eq_false (Nat.not_le.mpr h), failIf_false, check_ok_bind]

end

theorem handover_trapsWith {s : State} {h : HReg} {a b : GReg} {read : Bool} {cause : Nat} {tval : Word} {hs : BitVec 8}
    (hh : s.tile.handlesOf [((s.tile.regs.h.get h).base.toNat, (s.tile.regs.h.get h).len.toNat)] = hs)
    (hi : s.tile.canIssue { regs := [.g a, .g b], reads := [.g a, .g b], cls := some .ms, hs := hs }) (hw : s.tile.ex.cw = none)
    (hc : cause ∉ [0x02, 0x0A, 0x0B])
    (hb : s.checkHandover (s.tile.g a) (s.tile.regs.h.get h) (ctrId (s.tile.g b)) read = .error (.cause cause tval 10)) :
    TrapsWith s (.handover h a b read) 10 cause tval := by
  have he : exec (.handover h a b read) s = execHandover h a b read s := rfl
  unfold execHandover at he
  subst hh
  exact trapsWith_of he hi hw hc (by decide) (bind_trap hb)

theorem handover_traps : HandoverTraps := fun s h a b read l gap hw => by
  intro t r base len id i traps inside whole writes hi hm hp
  have hid : ctrId (t.g b) = id := ctrId_eq _
  have traps_of {cause : Nat} {tval : Word} (hc : cause ∉ [0x02, 0x0A, 0x0B])
      (e : s.checkHandover (t.g a) r id read = .error (.cause cause tval 10)) : traps cause tval :=
    handover_trapsWith rfl hi hw hc (hid ▸ e)
  refine ⟨fun denied => ?_, fun hc => ⟨fun odd => ?_, fun hb hl => ⟨fun x hg unmapped => ?_, fun hg outside => ?_, fun hg inside =>
    ⟨fun sys => ?_, fun plain l1 e l2 split => ⟨fun before out => ?_, fun all before perm => ?_, fun all perms before mode => ?_⟩⟩⟩⟩⟩
  · have he : exec i s = execHandover h a b read s := rfl
    unfold execHandover at he
    exact throttles_of he hi hw (by decide) (bind_trap (hid ▸ State.checkHandover_denied hp hm denied))
  · exact traps_of (by decide) (State.checkHandover_unaligned hp hm hc odd)
  · exact traps_of (by decide) (State.checkHandover_unmapped hp hm hc hb hl hg unmapped)
  · exact traps_of (by decide) (State.checkHandover_outside hp hm hc hb hl hg outside)
  · exact traps_of (by decide) (State.checkHandover_system hp hm hc hb hl hg inside sys)
  · subst split
    exact traps_of (by decide) ((State.checkHandover_pages hp hm hc hb hl hg inside plain).trans (Tile.handoverPages_outlying before out))
  · subst split
    exact traps_of (by decide) ((State.checkHandover_pages hp hm hc hb hl hg inside plain).trans (Tile.handoverPages_perm all before perm))
  · subst split
    exact traps_of (by decide) ((State.checkHandover_pages hp hm hc hb hl hg inside plain).trans
      (Tile.handoverPages_mode all perms before mode))

end Sys2Proof.Machine

open Sys2Proof Sys2Proof.Machine

/-- Settles O27: the checks of each form fail at the first condition that it meets, and the trap is taken in place of the issue. -/
theorem memoryTraps : Obligations.MemoryTraps :=
  ⟨scalar_traps, lane_traps, global_traps, line_traps, counter_traps, copy_traps, message_traps, handover_traps⟩
end

section
/-! SUPPORT. What a register receives of loaded bytes (R107, R126, R221), and the arrival of a load (R34, R155, R215, R221, R241). -/

namespace Sys2Proof.Machine

/-! ## Extension -/

section
variable {w x : Nat} (h : x < 2 ^ w)
include h

/-- A number of w bits, taken as a signed one (R107). -/
theorem toInt_signExtend_ofNat (pos : 0 < w) (le : w ≤ 64) :
    ((BitVec.ofNat w x).signExtend 64).toInt = if 2 ^ (w - 1) ≤ x then (x : Int) - 2 ^ w else x := by
  have half : 2 ^ w = 2 * 2 ^ (w - 1) := by rw [← Nat.pow_succ', Nat.succ_eq_add_one, Nat.sub_add_cancel pos]
  rw [BitVec.toInt_signExtend_of_le le, BitVec.toInt_eq_toNat_cond, BitVec.toNat_ofNat, Nat.mod_eq_of_lt h]
  by_cases low : 2 ^ (w - 1) ≤ x
  · rw [if_neg (by omega), if_pos low]
    push_cast
    rfl
  · rw [if_pos (by omega), if_neg low]

theorem toNat_zeroExtend_ofNat (le : w ≤ 64) : ((BitVec.ofNat w x).zeroExtend 64).toNat = x := by
  rw [BitVec.zeroExtend, BitVec.toNat_setWidth, BitVec.toNat_ofNat, Nat.mod_eq_of_lt h,
    Nat.mod_eq_of_lt (Nat.lt_of_lt_of_le h (Nat.pow_le_pow_right (by decide) le))]

end

/-- A lane that takes an element with zeros, or with copies of its sign, above it (R126). -/
theorem getLsbD_zeroFill (w x k : Nat) :
    ((BitVec.ofNat w x).zeroExtend 32).getLsbD k = (decide (k < 32) && if k < w then x.testBit k else false) := by
  rw [BitVec.zeroExtend, BitVec.getLsbD_setWidth, BitVec.getLsbD_ofNat]
  by_cases low : k < w <;> simp [low]

theorem getLsbD_signFill {w : Nat} (x k : Nat) (pos : 0 < w) :
    ((BitVec.ofNat w x).signExtend 32).getLsbD k = (decide (k < 32) && if k < w then x.testBit k else x.testBit (w - 1)) := by
  rw [BitVec.getLsbD_signExtend, BitVec.getLsbD_ofNat, BitVec.msb_eq_getLsbD_last, BitVec.getLsbD_ofNat]
  by_cases low : k < w <;> simp [low, pos]

theorem fillElem_getLsbD (ty : ElemTy) (x k : Nat) : (fillElem ty x).getLsbD k = (decide (k < 32) && fillBit ty x k) := by
  have whole : (BitVec.ofNat 32 x).getLsbD k = (decide (k < 32) && if k < 32 then x.testBit k else false) := by
    have fill := getLsbD_zeroFill 32 x k
    rwa [BitVec.zeroExtend, BitVec.setWidth_eq] at fill
  cases ty with
  | f32 => exact whole
  | s32 => exact whole
  | n32 => exact whole
  | bf16 => exact getLsbD_zeroFill 16 x k
  | fp16 => exact getLsbD_zeroFill 16 x k
  | s16 => exact getLsbD_signFill x k (w := 16) (by decide)
  | s8 => exact getLsbD_signFill x k (w := 8) (by decide)
  | n8 => exact getLsbD_zeroFill 8 x k

theorem loaded_words : LoadedWords := by
  refine ⟨fun n x hn hx => ?_, fun ty x k _ => ?_⟩
  · obtain ⟨z, hz, rfl⟩ : ∃ z ≤ 3, n = 2 ^ z := by
      obtain rfl | rfl | rfl | rfl := hn
      exacts [⟨0, by decide, rfl⟩, ⟨1, by decide, rfl⟩, ⟨2, by decide, rfl⟩, ⟨3, by decide, rfl⟩]
    have le : 8 * 2 ^ z ≤ 64 := Nat.mul_le_mul_left 8 (Nat.pow_le_pow_right (by decide) hz)
    have pos : 0 < 8 * 2 ^ z := Nat.mul_pos (by decide) (Nat.two_pow_pos z)
    rw [LoadExt.value, LoadExt.value, extendBytes_eq true hz, extendBytes_eq false hz]
    exact ⟨toInt_signExtend_ofNat hx pos le, toNat_zeroExtend_ofNat hx le⟩
  · rw [LoadExt.value, BitVec.zeroExtend, BitVec.getLsbD_setWidth, fillElem_getLsbD]
    by_cases low : k < 32
    · simp [low, show k < 64 by omega]
    · simp [low]

/-! ## The elements of a load -/

/-- Only the scalar and the vector registers and the counters PERF0 to PERF7 may differ. -/
def Tile.OnlyLoaded (a b : Tile) : Prop := b = { a with regs := { a.regs with g := b.regs.g, v := b.regs.v, perf := b.regs.perf } }

theorem Tile.OnlyLoaded.trans {a b c : Tile} (h : a.OnlyLoaded b) (k : b.OnlyLoaded c) : a.OnlyLoaded c := by
  unfold Tile.OnlyLoaded at *
  rw [k, h]

theorem Tile.OnlyPerf.onlyLoaded {a b : Tile} (h : a.OnlyPerf b) : a.OnlyLoaded b := by
  unfold Tile.OnlyPerf at h
  unfold Tile.OnlyLoaded
  rw [h]

theorem Tile.onlyLoaded_writeElem (t : Tile) (e : LoadElem) : t.OnlyLoaded (t.writeElem e) := by
  unfold Tile.writeElem
  split
  · rfl
  · split
    · unfold Tile.setG
      split <;> rfl
    · rfl
    · rfl

theorem Tile.onlyLoaded_writeElems (l : List LoadElem) (t : Tile) : t.OnlyLoaded (l.foldl Tile.writeElem t) :=
  foldl_rel (r := Tile.OnlyLoaded) (fun _ => rfl) Tile.OnlyLoaded.trans Tile.onlyLoaded_writeElem l t

/-- A vector register after one element is written (R34, R130). -/
theorem Tile.v_writeElem_lane {t : Tile} {e : LoadElem} {r : VReg} {v : Word} (i : Fin 16) (hr : e.reg = .v r) (hv : e.val = some v)
    (hi : e.lane.val = i.val) : ((t.writeElem e).v r).get i = BitVec.ofNat 32 v.toNat := by
  have hit : (BitVec.ofNat 16 (2 ^ e.lane.val)).getLsbD i.val = true := by
    rw [BitVec.getLsbD_ofNat, Nat.testBit_two_pow, hi]
    simp
  rw [Tile.writeElem, hv]
  simp only [hr]
  rw [Tile.v_setV, if_pos ⟨rfl, hit⟩, lanesOf_get]
  exact (BitVec.ofNat_toNat 32 v).symm

theorem Tile.v_writeElem_other {t : Tile} {e : LoadElem} {r : VReg} {i : Fin 16} (h : e.reg ≠ .v r ∨ e.lane.val ≠ i.val) :
    ((t.writeElem e).v r).get i = (t.v r).get i := by
  unfold Tile.writeElem
  split
  · rfl
  · split
    · next d _ => rw [Tile.v, Tile.setG_regs]; rfl
    · next d hd =>
      rw [Tile.v_setV, if_neg]
      rintro ⟨rfl, hit⟩
      rw [BitVec.getLsbD_ofNat, Nat.testBit_two_pow] at hit
      simp only [Bool.and_eq_true, decide_eq_true_eq] at hit
      exact h.elim (· hd) (· hit.2)
    · rfl

theorem Tile.v_writeElems_other {l : List LoadElem} {t : Tile} {r : VReg} {i : Fin 16} (h : ∀ e ∈ l, e.reg ≠ .v r ∨ e.lane.val ≠ i.val) :
    ((l.foldl Tile.writeElem t).v r).get i = (t.v r).get i := by
  induction l generalizing t with
  | nil => rfl
  | cons x xs ih => rw [List.foldl_cons, ih fun e he => h e (.tail x he), Tile.v_writeElem_other (h x (.head xs))]

/-- A lane that one element alone writes. -/
theorem Tile.v_writeElems_lane {l : List LoadElem} {t : Tile} {r : VReg} {i : Fin 16} {e : LoadElem} {v : Word} (he : e ∈ l)
    (hr : e.reg = .v r) (hi : e.lane.val = i.val) (hv : e.val = some v) (alone : ∀ f ∈ l, f.reg = e.reg → f.lane = e.lane → f = e) :
    ((l.foldl Tile.writeElem t).v r).get i = BitVec.ofNat 32 v.toNat := by
  induction l generalizing t with
  | nil => cases he
  | cons x xs ih =>
    rw [List.foldl_cons]
    by_cases later : e ∈ xs
    · exact ih later fun f hf => alone f (.tail x hf)
    · obtain rfl : e = x := (List.mem_cons.mp he).resolve_right later
      rw [Tile.v_writeElems_other, Tile.v_writeElem_lane i hr hv hi]
      intro f hf
      by_contra both
      rw [not_or, not_not, not_not] at both
      exact later (alone f (.tail e hf) (both.1.trans hr.symm) (Fin.ext (both.2.trans hi.symm)) ▸ hf)

/-- Elements of vector registers leave the scalar ones alone. -/
theorem Tile.g_writeElems {l : List LoadElem} {t : Tile} (h : ∀ e ∈ l, ∃ r v, e.reg = .v r ∧ e.val = some v) (d : GReg) :
    (l.foldl Tile.writeElem t).g d = t.g d := by
  induction l generalizing t with
  | nil => rfl
  | cons x xs ih =>
    obtain ⟨r, v, hr, hv⟩ := h x (.head xs)
    rw [List.foldl_cons, ih fun e he => h e (.tail x he), Tile.writeElem, hv]
    simp only [hr]
    rfl

/-! ## Arrival -/

section
variable {s : State} {n : Nat} {o : OutLoad} (ho : s.tile.ops.loads[n]? = some o)
include ho

theorem loadArrival_next (data : ∀ e ∈ o.elems, ∃ v, e.val = some v)
    (due : (∃ a b, o.kind = .timed a b ∧ a ≤ s.tile.iss.cycle) ∧ s.tile.iss.ending = true ∧ s.tile.firstDue = some n ∨
      ((∃ ext, o.kind = .global ext) ∨ (∃ op x y nat ext, o.kind = .atomic op x y nat ext)) ∧ s.tile.counts = true ∧
        s.tile.iss.ending = false ∧ o.issued + 24 ≤ s.tile.iss.cycle ∧ s.answering o.stamp = false ∨
      (∃ c p, o.kind = .crd c p) ∧ s.tile.counts = true ∧ s.tile.iss.ending = false ∧ o.issued + 16 ≤ s.tile.iss.cycle ∧
        s.answering o.stamp = false) : exec (.loadArrival n) s = .next (s.upd fun t => t.arrive n) := by
  have came : (o.elems.all fun e => e.val.isSome) = true := List.all_eq_true.mpr fun e he => by
    obtain ⟨v, hv⟩ := data e he
    rw [hv]
    rfl
  rw [show exec (.loadArrival n) s = execLoadArrival n s from rfl, execLoadArrival, ho]
  obtain ⟨⟨a, b, kind, le⟩, ending, first⟩ | ⟨⟨ext, kind⟩ | ⟨op, x, y, nat, ext, kind⟩, counts, ending, late, answered⟩ |
    ⟨⟨c, p, kind⟩, counts, ending, late, answered⟩ := due
  · simp [kind, le, ending, first]
  · simp [kind, LoadKind.least, counts, ending, late, answered, came]
  · simp [kind, LoadKind.least, counts, ending, late, answered, came]
  · simp [kind, LoadKind.least, counts, ending, late, answered, came]

variable (hc : o.ecc = none)
include hc

/-- A load without an uncorrectable word writes its elements as it leaves its counts; an event may count. -/
theorem Tile.arrive_writes : (o.elems.foldl Tile.writeElem
    { s.tile with ops := { s.tile.ops with loads := dropNth s.tile.ops.loads n } }).OnlyPerf (s.tile.arrive n) := by
  rw [Tile.arrive, ho]
  simp only [hc]
  split
  · exact Tile.onlyPerf_event ..
  · exact Tile.onlyPerf_event ..
  · rfl
  · rfl

/-- What an arrival leaves alone. -/
theorem arrive_keeps : SameModule s (s.upd fun t => t.arrive n) ∧ s.tile.SameUnits (s.tile.arrive n) ∧ (s.tile.arrive n).ex = s.tile.ex ∧
    (s.tile.arrive n).iss = s.tile.iss ∧ (s.tile.arrive n).pad = s.tile.pad ∧
    (s.tile.arrive n).ops = { s.tile.ops with loads := dropNth s.tile.ops.loads n } ∧ s.tile.SameM (s.tile.arrive n) ∧
    s.tile.SameSpecial (s.tile.arrive n) := by
  have only : Tile.OnlyLoaded _ (s.tile.arrive n) := (Tile.onlyLoaded_writeElems ..).trans (Tile.arrive_writes ho hc).onlyLoaded
  unfold Tile.OnlyLoaded at only
  refine ⟨rfl, ?_, ?_, ?_, ?_, ?_, fun k => ?_, ?_⟩
  · rw [only]; exact ⟨rfl, rfl, rfl, rfl, rfl, rfl⟩
  · rw [only]
  · rw [only]
  · rw [only]
  · rw [only]
  · rw [only]; rfl
  · unfold Tile.SameSpecial; rw [only]

end

theorem arrivals : Arrivals := fun s n o => by
  intro t due left ho hc hdue
  have keeps : left (s.upd fun t => t.arrive n) := arrive_keeps ho hc
  have writes := Tile.arrive_writes ho hc
  refine ⟨fun e d x one reg val => ?_, fun vectors alone _ => ?_⟩
  · have next := loadArrival_next ho (fun f hf => ⟨x, by rw [one, List.mem_singleton] at hf; rw [hf, val]⟩) hdue
    have written (u : Tile) : o.elems.foldl Tile.writeElem u = u.setG d x := by
      rw [one, List.foldl_cons, List.foldl_nil, Tile.writeElem, val]
      simp only [reg]
    rw [written] at writes
    obtain ⟨g, v, -, -⟩ := writes.sameRegs
    obtain ⟨others, vectors, -, -⟩ := Tile.sameRegs_setG { t with ops := { t.ops with loads := dropNth t.ops.loads n } } d x
    exact ⟨_, next, keeps, (g d (by simp)).trans (Tile.g_setG_same ..), fun r hr => (g r (by simp)).trans (others r hr),
      fun r => (v r).trans (vectors r)⟩
  · have next := loadArrival_next ho (fun f hf => let ⟨_, x, _, val⟩ := vectors f hf; ⟨x, val⟩) hdue
    obtain ⟨g, v, -, -⟩ := writes.sameRegs
    refine ⟨_, next, keeps, fun d _ => (g d (by simp)).trans (Tile.g_writeElems vectors d),
      fun r i => ⟨fun e x he hr hi hv => ?_, fun other => ?_⟩⟩
    · rw [← Tile.v_writeElems_lane he hr hi hv fun f hf => alone f hf e he]
      exact congrArg (Vector.get · i) (v r)
    · exact (congrArg (Vector.get · i) (v r)).trans (Tile.v_writeElems_other other)

end Sys2Proof.Machine
end

section
/-! SUPPORT. Accesses performed at their homes (R34, R112, R215, R278, R290, R296, R387). -/

namespace Sys2Proof.Machine

/-! ## Packets and answers -/

/-- A packet becomes one flit more (R296). -/
theorem State.inject_eq (s : State) (ref : PacketRef) (m : Bool) (src dst : Nat) : ∃ f : Flit, f.ref = ref ∧
    s.inject ref m src dst = { s with fab := { s.fab with moves := s.fab.moves + 2, flits := s.fab.flits ++ [f] } } := ⟨_, rfl, rfl⟩

/-- An answer to an operation of the tile leaves its home, or the operation waits for more of its bytes there. -/
def State.respondIf (s : State) (b : Bool) (stamp site : Nat) : State := if b then s.respond s.tile.id stamp site else s

theorem State.respondIf_next (s : State) (b : Bool) (stamp site : Nat) : (s.respondIf b stamp site).tile = s.tile ∧
    (s.respondIf b stamp site).mem = s.mem ∧ SameButFlits s (s.respondIf b stamp site) ∧
    (b = true → (s.respondIf b stamp site).answering stamp = true) := by
  cases b with
  | false => exact ⟨rfl, rfl, rfl, nofun⟩
  | true =>
    obtain ⟨f, ref, flits⟩ := s.inject_eq (.resp s.tile.id stamp) false site (s.physOf s.tile.id)
    have next : s.respondIf true stamp site = { s with fab := { s.fab with moves := s.fab.moves + 2, flits := s.fab.flits ++ [f] } } := flits
    rw [next]
    refine ⟨rfl, rfl, rfl, fun _ => List.any_eq_true.mpr ⟨f, List.mem_append_right _ (.head _), decide_eq_true ref⟩⟩

/-! ## Loads -/

/-- A change of one element of a list is given by what it does to that element. -/
theorem mapNth_congr {α : Type} {f g : α → α} {l : List α} {x : α} {k : Nat} (hk : l[k]? = some x) (h : f x = g x) :
    mapNth f l k = mapNth g l k := by
  induction l generalizing k with
  | nil => rfl
  | cons y ys ih =>
    cases k with
    | zero =>
      obtain rfl : y = x := Option.some.inj hk
      exact congrArg (· :: ys) h
    | succ k => exact congrArg (y :: ·) (ih hk)

theorem dropNth_one {α : Type} {l : List α} {x : α} {k : Nat} (hl : l = [x]) (hk : l[k]? = some x) : dropNth l k = [] := by
  subst hl
  cases k with
  | zero => rfl
  | succ k => cases hk

section
variable {s : State} {n k : Nat} {o : OutLoad} {e : LoadElem} (ho : s.tile.ops.loads[n]? = some o) (he : o.elems[k]? = some e)
include ho he

theorem performLoad_home {ext : LoadExt} (kind : o.kind = .global ext) (fresh : e.val = none)
    (come : s.reqComingTo o.stamp (stackOf e.pa) = false) (held : s.lineHeld o.stamp e.pa true = false)
    (first : s.tile.readsFirst o.stamp e.pa e.bytes = false) (good : s.badHbm e.pa e.bytes = false) :
    ∃ u, exec (.accessPerformedAtHome false n k) s = .next u ∧ SameButFlits s u ∧
      u.tile = { s.tile with ops := { s.tile.ops with
        loads := mapNth (fun o => { o with elems := mapNth (fun e => { e with
          val := some (ext.value e.bytes (Memory.nat s.mem.hbm e.pa e.bytes)) }) o.elems k }) s.tile.ops.loads n } } ∧
      (o.elems = [e] → u.answering o.stamp = true) := by
  let read : State := s.upd fun t => t.updLoad n fun o => { o with elems := mapNth (fun e' => { e' with
          val := some (ext.value e.bytes (Memory.nat s.mem.hbm e.pa e.bytes)) }) o.elems k }
  let last := !(dropNth o.elems k).any fun x => x.val.isNone && decide (x.pa / 64 = e.pa / 64)
  have next : exec (.accessPerformedAtHome false n k) s = .next (read.respondIf last o.stamp (stackOf e.pa)) := by
    rw [show exec (.accessPerformedAtHome false n k) s = execAccessPerformedAtHome false n k s from rfl, execAccessPerformedAtHome]
    simp only [ho, kind, he, State.performLoad, fresh, come, held, first, good, Bool.false_eq_true, if_false, Option.isSome_none, Bool.or_false]
    cases rest : (dropNth o.elems k).any fun x => x.val.isNone && decide (x.pa / 64 = e.pa / 64) with
    | true => simp only [last, rest, State.respondIf, Bool.not_true, Bool.false_eq_true, if_true, if_false]; rfl
    | false => simp only [last, rest, State.respondIf, Bool.not_false, Bool.false_eq_true, if_true, if_false]; rfl
  obtain ⟨tile, -, flits, answer⟩ := read.respondIf_next last o.stamp (stackOf e.pa)
  refine ⟨_, next, ?_, tile.trans ?_, fun one => answer ?_⟩
  · unfold SameButFlits at flits ⊢
    rw [flits]
    rfl
  · refine congrArg (fun l : List OutLoad => ({ s.tile with ops := { s.tile.ops with loads := l } } : Tile)) (mapNth_congr ho ?_)
    refine congrArg (fun l : List LoadElem => ({ o with elems := l } : OutLoad)) (mapNth_congr he ?_)
    rfl
  · show (!List.any _ _) = true
    rw [dropNth_one one he]
    rfl

end

/-! ## CRD -/

/-- The word of PEND, PSAT, SAT and the waiters (R215). -/
theorem Counter.crdWord_eq (c : Counter) (pend : Bool) : c.crdWord pend = if pend then
    BitVec.ofNat 64 (c.pend.toNat + (if c.psat then 2 ^ 32 else 0) + (if c.sat then 2 ^ 33 else 0) + if c.waiters = [] then 0 else 2 ^ 34)
    else c.value := by
  have bit (b : Bool) (n : Nat) : b.toNat * n = if b then n else 0 := by
    cases b with
    | false => exact Nat.zero_mul n
    | true => exact Nat.one_mul n
  have waiters : (!c.waiters.isEmpty).toNat * 2 ^ 34 = if c.waiters = [] then 0 else 2 ^ 34 := by
    rw [bit]
    cases c.waiters with
    | nil => rfl
    | cons w ws => rfl
  rw [Counter.crdWord, bit, bit, waiters, w64]

theorem performCrd_home {s : State} {n : Nat} {o : OutLoad} {e : LoadElem} {c : W32} {pend : Bool} {x : Counter}
    (ho : s.tile.ops.loads[n]? = some o) (kind : o.kind = .crd c pend) (one : o.elems = [e]) (fresh : e.val = none)
    (come : s.reqComing o.stamp = false) (turn : s.numberedBefore o.stamp (s.ctrEngine s.tile.gang.asid c) (some c) = false)
    (good : s.sync.bad.contains (ctrKey s.tile.gang.asid c) = false) (plain : c ≠ 0xFFFFFFFF) (hx : s.counter s.tile.gang.asid c = some x) :
    ∃ u, exec (.accessPerformedAtHome false n 0) s = .next u ∧ SameButFlits s u ∧ u.answering o.stamp = true ∧
      u.tile = { s.tile with ops := { s.tile.ops with loads := mapNth (fun o => { o with
        elems := o.elems.map fun e => { e with val := some (x.crdWord pend) } }) s.tile.ops.loads n } } := by
  have view : s.counterView s.tile.gang.asid c = x := by rw [State.counterView, hx, Option.getD_some, if_neg plain]
  obtain ⟨tile, -, flits, answer⟩ := s.respondIf_next true o.stamp (Config.engineSite (s.ctrEngine s.tile.gang.asid c))
  have next : exec (.accessPerformedAtHome false n 0) s = .next
      ((s.respondIf true o.stamp (Config.engineSite (s.ctrEngine s.tile.gang.asid c))).upd fun t => t.updLoad n fun o =>
        { o with elems := o.elems.map fun e => { e with val := some (x.crdWord pend) } }) := by
    rw [show exec (.accessPerformedAtHome false n 0) s = execAccessPerformedAtHome false n 0 s from rfl, execAccessPerformedAtHome]
    simp only [ho, kind, State.performCrd, one, List.any_cons, List.any_nil, fresh, Option.isSome_none, Bool.or_false, come, turn,
      Bool.false_eq_true, if_false, State.ctrMeet, good, hx, Option.isSome_some, true_or, if_true, view]
    rfl
  refine ⟨_, next, ?_, answer rfl, ?_⟩
  · unfold SameButFlits at flits ⊢
    rw [State.upd, flits]
  · rw [State.upd_tile, tile]
    rfl

/-! ## Stores -/

/-- The bytes of a store that meets no uncorrectable word that it would write in part (R387). -/
theorem enabledBytes_write (m : Memory) (pa : Nat) (l : List Byte) : (enabledBytes pa (l.map some)).foldl (fun m w =>
    if ([] : List Nat).contains (w.1 / 8) then m else Memory.setByte m w.1 w.2) m = Memory.write m pa l := by
  induction l generalizing m pa with
  | nil => rfl
  | cons b bs ih =>
    rw [Memory.write, ← ih]
    rfl

theorem performStore_home {s : State} {n k : Nat} {o : OutStore} {e : StoreElem} (ho : s.tile.ops.stores[n]? = some o)
    (he : o.elems[k]? = some e) (fresh : e.done = false)
    (first : ∀ j x, j < k → o.elems[j]? = some x → x.done = true ∨ x.pa / 64 ≠ e.pa / 64)
    (come : s.reqComingTo o.stamp (stackOf e.pa) = false) (held : s.lineHeld o.stamp e.pa false = false)
    (good : s.badPartial e.pa (e.data.map some) = []) :
    ∃ u, exec (.accessPerformedAtHome true n k) s = .next u ∧ SameButFlits { s with mem := u.mem } u ∧
      u.mem = { s.mem with hbm := u.mem.hbm, bad := u.mem.bad } ∧ (o.elems = [e] → u.answering o.stamp = true) ∧
      (∀ x, Memory.byte u.mem.hbm x =
        if e.pa ≤ x ∧ x < e.pa + e.data.length then e.data.getD (x - e.pa) 0 else Memory.byte s.mem.hbm x) ∧
      u.tile = { s.tile with ops := { s.tile.ops with stores := mapNth (fun o => { o with
        elems := mapNth (fun e => { e with done := true }) o.elems k }) s.tile.ops.stores n } } := by
  let written : State := (s.writeHbm e.pa (e.data.map some) []).upd fun t => t.updStore n fun o =>
    { o with elems := mapNth (fun e => { e with done := true }) o.elems k }
  let last := !(dropNth o.elems k).any fun x => !x.done && decide (x.pa / 64 = e.pa / 64)
  have turn : ((o.elems.take k).all fun x => x.done || decide (x.pa / 64 ≠ e.pa / 64)) = true := List.all_eq_true.mpr fun x hx => by
    obtain ⟨j, hj, rfl⟩ := List.getElem_of_mem hx
    rw [List.length_take] at hj
    rw [List.getElem_take]
    rcases first j _ (by omega) (List.getElem?_eq_getElem (by omega)) with done | line
    · rw [done, Bool.true_or]
    · rw [decide_eq_true line, Bool.or_true]
  have next : exec (.accessPerformedAtHome true n k) s = .next (written.respondIf last o.stamp (stackOf e.pa)) := by
    rw [show exec (.accessPerformedAtHome true n k) s = execAccessPerformedAtHome true n k s from rfl, execAccessPerformedAtHome]
    simp only [ho, he, State.performStore, fresh, turn, come, held, good, Bool.not_true, Bool.or_false, Bool.false_eq_true, if_false,
      List.isEmpty_nil, if_true]
    cases rest : (dropNth o.elems k).any fun x => !x.done && decide (x.pa / 64 = e.pa / 64) with
    | true => simp only [last, rest, State.respondIf, Bool.not_true, Bool.false_eq_true, if_true, if_false]; rfl
    | false => simp only [last, rest, State.respondIf, Bool.not_false, Bool.false_eq_true, if_true, if_false]; rfl
  obtain ⟨tile, mem, flits, answer⟩ := written.respondIf_next last o.stamp (stackOf e.pa)
  refine ⟨_, next, ?_, ?_, fun one => answer ?_, fun x => ?_, tile⟩
  · rw [mem]
    unfold SameButFlits at flits ⊢
    rw [flits]
    rfl
  · rw [mem]
    rfl
  · show (!List.any _ _) = true
    rw [dropNth_one one he]
    rfl
  · rw [mem]
    exact (congrArg (Memory.byte · x) (enabledBytes_write ..)).trans Memory.byte_write

theorem storeVisible_next {s : State} {n : Nat} {o : OutStore} (ho : s.tile.ops.stores[n]? = some o) (good : o.ecc = none)
    (done : ∀ e ∈ o.elems, e.done = true) (answered : s.answering o.stamp = false) :
    exec (.globalStoreVisible n) s =
      .next { s with tile := { s.tile with ops := { s.tile.ops with stores := dropNth s.tile.ops.stores n } } } := by
  have all : (o.elems.all fun e => e.done) = true := List.all_eq_true.mpr done
  rw [show exec (.globalStoreVisible n) s = execGlobalStoreVisible n s from rfl, execGlobalStoreVisible]
  simp only [ho, all, answered, Bool.not_false, Bool.and_self, if_true, good]
  rfl

end Sys2Proof.Machine
end

section
/-! SUPPORT. Translations that come to an NI (R340), the deny bits that an NI holds (R218), acknowledgements (R32, R200) and the end of a
CWAIT (R216, R217); and the statement about the events of memory. -/

namespace Sys2Proof.Machine

/-! ## Walks -/

/-- What a walk meets in the tables is counted at the routers (R385, R389), and nothing is without uncorrectable words. -/
theorem State.walkMeets_svc (s : State) (a : Nat) (vas : List Nat) :
    s.walkMeets a vas = { s with svc := (s.walkMeets a vas).svc } ∧ (s.mem.bad = [] → s.walkMeets a vas = s) := by
  have counts (l : List Nat) : ∀ s : State, l.foldl (fun s w => s.attUnc (stackOf (8 * w))) s =
      { s with svc := (l.foldl (fun s w => s.attUnc (stackOf (8 * w))) s).svc } :=
    foldl_rel (r := fun s t : State => t = { s with svc := t.svc }) (fun _ => rfl) (fun h k => by rw [k, h]) (fun _ _ => rfl) l
  rw [State.walkMeets]
  cases s.asid a with
  | none => exact ⟨rfl, fun _ => rfl⟩
  | some e =>
    refine ⟨counts _ s, fun good => ?_⟩
    show s.meetHbm _ = s
    rw [State.meetHbm, good, List.filter_eq_nil_iff.mpr fun w _ => by simp]
    rfl

/-- The least recently used entry goes where there is no room (R340). -/
theorem cacheIn_eq {α : Type} {size : Nat} {l : List α} (x : α) (pos : 0 < size) (h : l.length ≤ size) :
    cacheIn size l x = (if l.length < size then l else l.drop 1) ++ [x] := by
  rw [cacheIn]
  by_cases room : l.length < size
  · rw [if_pos room, show l.length + 1 - size = 0 by omega, List.drop_zero]
  · rw [if_neg room, show l.length + 1 - size = 1 by omega, List.drop_append_of_le_length (by omega)]

/-- The accesses that wait for an address no longer ask for it (R340). -/
def Tile.unasked (t : Tile) (va : Nat) : Tile := { t with ni := { t.ni with misses := t.ni.misses.filter (· ≠ va) } }

/-- A tile to which the field's unit brings a translation (R340). -/
def Tile.brought (t : Tile) (e : TlbEntry) (hit : Bool) : Tile :=
  { (t.event 42 1).eventIf (!hit) 43 with ni := { t.ni with
      tlb := cacheIn 32 (t.ni.tlb.filter fun x => decide (x ≠ e)) e
      got := t.ni.got.filter (· ≠ e) ++ [e]
      misses := t.ni.misses.filter fun a => !decide (e.va ≤ a ∧ a < e.va + e.size) } }

/-- A tile to which the unit says that no leaf maps an address (R340). -/
def Tile.told (t : Tile) (va : Nat) : Tile :=
  { (t.event 42 1).event 43 1 with ni := { t.ni with noLeaf := t.ni.noLeaf.filter (· ≠ va) ++ [va] } }

/-- The translation has come, through the field's unit, which keeps it (R340). -/
def State.brought (s : State) (va : Nat) (e : TlbEntry) : State :=
  let f := fieldOf s.tile.pl.phys
  let rest := s.mem.unitTlb.filter fun x => decide (x.1 ≠ f)
  let mine := s.mem.unitTlb.filter fun x => decide (x.1 = f ∧ x ≠ (f, e))
  { s with tile := (s.tile.unasked va).brought e (s.mem.unitTlb.any fun x => decide (x = (f, e)))
           mem := { s.mem with unitTlb := rest ++ cacheIn 4096 mine (f, e) } }

section
variable {s : State} {va : Nat}

theorem walk_idle (h : s.tile.ni.misses.contains va = false ∨ s.tile.ni.paused = true) : exec (.translationWalk va) s = .next s := by
  rw [show exec (.translationWalk va) s = execTranslationWalk va s from rfl, execTranslationWalk]
  refine if_pos ?_
  obtain e | e := h
  · rw [e]; rfl
  · rw [e, Bool.or_true]

variable (asked : s.tile.ni.misses.contains va = true) (runs : s.tile.ni.paused = false)
include asked runs

theorem walk_unmapped_next (h : s.walk s.tile.gang.asid va = none) :
    exec (.translationWalk va) s = .next (((s.upd (Tile.unasked · va)).walkMeet va).upd (Tile.told · va)) := by
  rw [show exec (.translationWalk va) s = execTranslationWalk va s from rfl, execTranslationWalk]
  simp only [asked, runs, Bool.not_true, Bool.or_false, Bool.false_eq_true, if_false]
  split
  · next e he => exact nomatch h.symm.trans he
  · rfl

theorem walk_maps_next {e : TlbEntry} (h : s.walk s.tile.gang.asid va = some e) : exec (.translationWalk va) s = .next
    (if s.mem.unitTlb.any fun x => decide (x = (fieldOf s.tile.pl.phys, e)) then s.brought va e else (s.brought va e).walkMeet va) := by
  rw [show exec (.translationWalk va) s = execTranslationWalk va s from rfl, execTranslationWalk]
  simp only [asked, runs, Bool.not_true, Bool.or_false, Bool.false_eq_true, if_false]
  split
  · next e' he =>
    obtain rfl : e = e' := Option.some.inj (h.symm.trans he)
    rfl
  · next he => exact nomatch h.symm.trans he

theorem walk_unmapped (h : s.walk s.tile.gang.asid va = none) :
    ∃ u, exec (.translationWalk va) s = .next u ∧ u = { s with tile := u.tile, svc := u.svc } ∧ (s.mem.bad = [] → u.svc = s.svc) ∧
      u.tile.ni = { s.tile.ni with noLeaf := u.tile.ni.noLeaf, misses := u.tile.ni.misses } ∧ va ∈ u.tile.ni.noLeaf ∧
      va ∉ u.tile.ni.misses ∧ u.tile.ops = s.tile.ops ∧ u.tile.ex = s.tile.ex ∧ s.tile.SameRegs u.tile [] := by
  obtain ⟨frame, good⟩ := (s.upd (Tile.unasked · va)).walkMeets_svc s.tile.gang.asid [va]
  have meet : (s.upd (Tile.unasked · va)).walkMeet va =
      { s.upd (Tile.unasked · va) with svc := ((s.upd (Tile.unasked · va)).walkMeet va).svc } := frame
  have tile : (((s.upd (Tile.unasked · va)).walkMeet va).upd (Tile.told · va)).tile =
      (s.tile.unasked va).told va := by rw [State.upd_tile, meet]; rfl
  refine ⟨_, walk_unmapped_next asked runs h, ?_, fun none => (congrArg State.svc (good none) :), ?_⟩
  · rw [State.upd, meet]; rfl
  · rw [tile]
    refine ⟨rfl, List.mem_append_right _ (.head _), fun hit => ?_, rfl, rfl,
      ((Tile.onlyPerf_event (s.tile.unasked va) 42 1).trans (Tile.onlyPerf_event ..)).sameRegs⟩
    exact absurd (List.mem_filter.mp hit).2 (by simp)

theorem walk_maps {e : TlbEntry} (h : s.walk s.tile.gang.asid va = some e) :
    let f := fieldOf s.tile.pl.phys
    let mine := s.mem.unitTlb.filter fun x => decide (x.1 = f ∧ x ≠ (f, e))
    let kept := s.tile.ni.tlb.filter fun x => decide (x ≠ e)
    kept.length ≤ 32 → mine.length ≤ 4096 →
    ∃ u, exec (.translationWalk va) s = .next u ∧
      u = { s with tile := u.tile, mem := { s.mem with unitTlb := u.mem.unitTlb }, svc := u.svc } ∧ (s.mem.bad = [] → u.svc = s.svc) ∧
      u.tile.ni = { s.tile.ni with
        tlb := (if kept.length < 32 then kept else kept.drop 1) ++ [e], got := u.tile.ni.got, misses := u.tile.ni.misses } ∧
      e ∈ u.tile.ni.got ∧ (∀ x, x ∈ u.tile.ni.misses ↔ x ∈ s.tile.ni.misses ∧ x ≠ va ∧ ¬(e.va ≤ x ∧ x < e.va + e.size)) ∧
      u.tile.ops = s.tile.ops ∧ u.tile.ex = s.tile.ex ∧ s.tile.SameRegs u.tile [] ∧
      u.mem.unitTlb = (s.mem.unitTlb.filter fun x => decide (x.1 ≠ f)) ++ (if mine.length < 4096 then mine else mine.drop 1) ++
        [(f, e)] := by
  intro f mine kept room unitRoom
  obtain ⟨frame, good⟩ := (s.brought va e).walkMeets_svc (s.brought va e).tile.gang.asid [va]
  have meet (hit : Bool) : (if hit then s.brought va e else (s.brought va e).walkMeet va) =
      { s.brought va e with svc := (if hit then s.brought va e else (s.brought va e).walkMeet va).svc } := by
    cases hit with
    | true => rfl
    | false => exact frame
  have hgood (hit : Bool) (none : s.mem.bad = []) : (if hit then s.brought va e else (s.brought va e).walkMeet va).svc = s.svc := by
    cases hit with
    | true => rfl
    | false => exact (congrArg State.svc (good none) :)
  have perf : (s.tile.unasked va).OnlyPerf _ :=
    (Tile.onlyPerf_event _ 42 1).trans (Tile.onlyPerf_eventIf _ (!s.mem.unitTlb.any fun x => decide (x = (f, e))) 43)
  refine ⟨_, walk_maps_next asked runs h, ?_, hgood _, ?_⟩
  · rw [meet]; rfl
  · rw [meet]
    refine ⟨?_, List.mem_append_right _ (.head _), fun x => ?_, perf.ops, perf.ex, perf.sameRegs, ?_⟩
    · rw [← cacheIn_eq e (by decide) room]
      rfl
    · show x ∈ (s.tile.ni.misses.filter (· ≠ va)).filter (fun a => !decide (e.va ≤ a ∧ a < e.va + e.size)) ↔ _
      rw [List.mem_filter, List.mem_filter, and_assoc]
      simp only [decide_eq_true_eq, Bool.not_eq_true', decide_eq_false_iff_not]
    · rw [List.append_assoc, ← cacheIn_eq (f, e) (by decide) unitRoom]
      rfl

end

/-! ## Deny bits and acknowledgements -/

section
variable {s : State}

theorem msAcknowledgement_next {n : Nat} {o : MsOp} (ho : s.tile.ops.ms[n]? = some o) (done : o.done = true)
    (answered : s.answering o.stamp = false) : exec (.msAcknowledgement n) s =
      .next { s with tile := { s.tile with ops := { s.tile.ops with ms := dropNth s.tile.ops.ms n } } } := by
  rw [show exec (.msAcknowledgement n) s = execMsAcknowledgement n s from rfl, execMsAcknowledgement, ho]
  simp only [done, answered, Bool.not_false, Bool.and_self, if_true]
  rfl

variable {table engine : Nat}

/-- An element of a list is set or cleared, and every other one stays. -/
theorem contains_set (l : List (Nat × Nat)) (x : Nat × Nat) (on : Bool) :
    let l' := l.filter fun y => decide (y ≠ x)
    (if on then l' ++ [x] else l').contains x = on ∧
      ∀ y, y ≠ x → (if on then l' ++ [x] else l').contains y = l.contains y := by
  intro l'
  have mem (y : Nat × Nat) : y ∈ l' ↔ y ∈ l ∧ y ≠ x := by rw [List.mem_filter, decide_eq_true_iff]
  have same {a : List (Nat × Nat)} {y : Nat × Nat} (h : y ∈ a ↔ y ∈ l) : a.contains y = l.contains y :=
    Bool.eq_iff_iff.mpr (by rw [List.contains_iff_mem, List.contains_iff_mem, h])
  cases on with
  | true => exact ⟨List.contains_iff_mem.mpr (List.mem_append_right _ (.head _)), fun y hy => same (by simp [mem, hy])⟩
  | false => exact ⟨by simp [mem], fun y hy => same (by simp [mem, hy])⟩

theorem denyBit_coming (h : s.travelling (.deny s.tile.id.part table engine s.tile.pl.phys) = true) :
    exec (.denyBitUpdate table engine) s = .next s := if_pos h

theorem denyBit_comes (h : s.travelling (.deny s.tile.id.part table engine s.tile.pl.phys) = false) :
    ∃ u, exec (.denyBitUpdate table engine) s = .next u ∧
      u = { s with tile := { s.tile with ni := { s.tile.ni with deny := u.tile.ni.deny } } } ∧
      (u.tile.denied table engine = (s.part s.tile.id.part).denyBits.contains (table, engine)) ∧
      ∀ a b, (a, b) ≠ (table, engine) → u.tile.denied a b = s.tile.denied a b := by
  obtain ⟨here, others⟩ := contains_set s.tile.ni.deny (table, engine) ((s.part s.tile.id.part).denyBits.contains (table, engine))
  exact ⟨_, if_neg (by rw [h]; decide), rfl, here, fun a b other => others (a, b) other⟩

/-! ## CWAIT -/

theorem cwaitRelease_late {c : CwState} {d : Nat} (hc : s.tile.ex.cw = some c) (hd : c.deadline = some d) (late : d < s.tileTime) :
    exec .cwaitRelease s = .next s := by
  rw [show exec .cwaitRelease s = execCwaitRelease s from rfl, execCwaitRelease, hc]
  simp only [CwState.late, hd, decide_eq_true late, Bool.not_true, Bool.false_eq_true, and_false, if_false]

theorem cwaitRelease_next {c : CwState} (hc : s.tile.ex.cw = some c) (released : c.released = true) (acquired : c.acquired = none)
    (answered : s.answering c.stamp = false) (inTime : ∀ d, c.deadline = some d → s.tileTime ≤ d) :
    exec .cwaitRelease s = .next { s with tile := { s.tile with ex := { s.tile.ex with
      cw := some { c with acquired := some (s.hostQueue s.tile.gang.asid) } } } } := by
  have due : c.late s.tileTime = false := by
    rw [CwState.late]
    cases hd : c.deadline with
    | none => rfl
    | some d => exact decide_eq_false (Nat.not_lt.mpr (inTime d hd))
  rw [show exec .cwaitRelease s = execCwaitRelease s from rfl, execCwaitRelease, hc]
  simp only [released, acquired, answered, due, Bool.not_false, and_self, if_true]
  rfl

end

/-! ## The end of a CWAIT's time -/

/-- Only deny bits may change, and packets that tell of them leave (R218). -/
def State.OnlyDenies (s t : State) : Prop := t = { s with fab := t.fab, parts := t.parts }

theorem State.OnlyDenies.trans {s t u : State} (h : s.OnlyDenies t) (k : t.OnlyDenies u) : s.OnlyDenies u := by
  unfold State.OnlyDenies at *
  rw [k, h]

theorem State.onlyDenies_inject (s : State) (ref : PacketRef) (m : Bool) (src dst : Nat) : s.OnlyDenies (s.inject ref m src dst) := rfl

theorem State.onlyDenies_updPart (s : State) (p : Nat) (f : Part → Part) : s.OnlyDenies (s.updPart p f) := rfl

theorem State.onlyDenies_sendDeny (s : State) (p table engine : Nat) : s.OnlyDenies (s.sendDeny p table engine) :=
  foldl_rel (r := State.OnlyDenies) (fun _ => rfl) State.OnlyDenies.trans (fun s _ => s.onlyDenies_inject ..) _ s

theorem State.onlyDenies_denyStep (s : State) (p table engine : Nat) : s.OnlyDenies (s.denyStep p table engine) := by
  rw [State.denyStep]
  split_ifs
  · exact (s.onlyDenies_updPart p _).trans (State.onlyDenies_sendDeny ..)
  · exact (s.onlyDenies_updPart p _).trans (State.onlyDenies_sendDeny ..)
  · rfl

theorem State.onlyDenies_denySteps (s : State) (p engine : Nat) : s.OnlyDenies (s.denySteps p engine) :=
  foldl_rel (r := State.OnlyDenies) (fun _ => rfl) State.OnlyDenies.trans (fun s t => s.onlyDenies_denyStep p t engine) _ s

/-- The waiter of a CWAIT is withdrawn, and the tile holds at it no more (R216). -/
theorem State.withdrawCw_some {s : State} {c : CwState} (hc : s.tile.ex.cw = some c) :
    s.withdrawCw.tile = { s.tile with ex := { s.tile.ex with cw := none } } ∧
    s.withdrawCw.sync.ctrs = s.sync.ctrs.map fun k => if k.asid = s.tile.gang.asid ∧ k.id = c.ctr then
      { k with waiters := k.waiters.filter fun w => decide (w.tile ≠ s.tile.id ∨ w.proxy) } else k := by
  rw [State.withdrawCw, hc]
  have frame := State.onlyDenies_denySteps ({ s with sync := { s.sync with ctrs := s.sync.ctrs.map fun k =>
    if k.asid = s.tile.gang.asid ∧ k.id = c.ctr then
      { k with waiters := k.waiters.filter fun w => decide (w.tile ≠ s.tile.id ∨ w.proxy) } else k } })
    (s.asidPart s.tile.gang.asid) (s.ctrEngine s.tile.gang.asid c.ctr)
  unfold State.OnlyDenies at frame
  simp only [State.withdraw, State.upd]
  rw [frame]
  exact ⟨rfl, rfl⟩

theorem cwtimeout_traps {s : State} {c : CwState} {d : Nat} (hc : s.tile.ex.cw = some c) (hd : c.deadline = some d) (late : d < s.tileTime)
    (acquired : c.acquired = none) (runs : s.tile.ni.paused = false) (ending : s.tile.iss.ending = false)
    (free : s.tile.ex.prv = true ∨ s.tile.ex.pends = []) :
    ∃ u, exec .cwtimeout s = .next u ∧ u.tile.ex.cw = none ∧ u.tile.ex.prv = true ∧ u.tile.ex.pc = s.tile.regs.tvec.zeroExtend 64 ∧
      u.tile.regs.trap = { tpc := s.tile.ex.pc, tcause := 0x11, tval := c.ctr.zeroExtend 64
                           tinfo := BitVec.ofNat 64 (s.tile.ni.step.val * 2 ^ 14 + 10 * 2 ^ 8)
                           tstat := if s.tile.ex.prv then 5 else 0 } ∧
      ∀ k ∈ u.sync.ctrs, k.asid = s.tile.gang.asid → k.id = c.ctr → ∀ w ∈ k.waiters, w.tile = s.tile.id → w.proxy = true := by
  let info : TrapInfo := { cause := 0x11, tval := c.ctr.zeroExtend 64, aclass := 10 }
  have next : exec .cwtimeout s = .next ((s.trapHere info).upd Tile.fetchPassed) := by
    rw [show exec .cwtimeout s = execCwtimeout s from rfl, execCwtimeout, hc]
    simp only [hd]
    exact if_pos ⟨late, acquired, by rw [runs]; rfl, by rw [ending]; rfl, free⟩
  obtain ⟨tile, ctrs⟩ := State.withdrawCw_some hc
  have here : s.trapHere info = s.withdrawCw.upd fun t => t.takeTrap info t.ex.pc t.iss.cycle := rfl
  have traps := Tile.takeTrap_traps { s.tile with ex := { s.tile.ex with cw := none } } info s.tile.ex.pc s.tile.iss.cycle
  obtain ⟨-, -, -, -, -, -, -, -, -, -, -, regs, ex, -⟩ := traps
  rw [TrapInfo.tinfo_eq] at regs
  refine ⟨_, next, ?_, ?_, ?_, ?_, ?_⟩
  · rw [here, State.upd_tile, State.upd_tile, tile, Tile.fetchPassed_ex, ex]
  · rw [here, State.upd_tile, State.upd_tile, tile, Tile.fetchPassed_ex, ex]
  · rw [here, State.upd_tile, State.upd_tile, tile, Tile.fetchPassed_ex, ex]
  · rw [here, State.upd_tile, State.upd_tile, tile, Tile.fetchPassed_regs, regs]
    simp [info, branchInfo]
  · show ∀ k ∈ s.withdrawCw.sync.ctrs, _
    rw [ctrs]
    intro k hk same id w hw mine
    obtain ⟨k0, -, rfl⟩ := List.mem_map.mp hk
    by_cases hit : k0.asid = s.tile.gang.asid ∧ k0.id = c.ctr
    · rw [if_pos hit] at hw
      exact (of_decide_eq_true (List.mem_filter.mp hw).2).resolve_left (not_not_intro mine)
    · rw [if_neg hit] at same id
      exact absurd ⟨same, id⟩ hit

/-! ## The statement -/

theorem home_events : HomeEvents := fun s =>
  ⟨fun _ _ => storeVisible_next, fun _ _ _ _ _ ho kind he => performLoad_home ho he kind,
    fun _ _ _ _ pend x ho kind one fresh come turn good plain hx => by
      rw [← x.crdWord_eq pend]
      exact performCrd_home ho kind one fresh come turn good plain hx,
    fun _ _ _ _ => performStore_home, fun _ _ asked runs h => walk_maps asked runs h, fun _ => walk_unmapped, fun _ => walk_idle,
    fun _ _ => msAcknowledgement_next,
    fun _ _ => denyBit_coming, fun _ _ => denyBit_comes,
    fun _ hc released acquired answered =>
      ⟨fun ⟨_, hd, late⟩ => cwaitRelease_late hc hd late, cwaitRelease_next hc released acquired answered⟩,
    fun _ _ => cwtimeout_traps⟩

end Sys2Proof.Machine

open Sys2Proof Sys2Proof.Machine

/-- Settles O43: what a register receives, what an arrival writes, and each event at the homes and in the NI by its own lemma. -/
theorem memoryEvents : Obligations.MemoryEvents := ⟨loaded_words, arrivals, home_events⟩
end

section
/-! SUPPORT. The statement about the progress of copies: it does not say that a counter is listed once, and fails where one is listed twice.

R346 gives each table of an engine a quota. The signal of a release point (R190) gives every entry of its counter what the first one holds,
waiters among it. Where the counter is listed twice, its waiters are then counted twice, and the table passes a quota within which it was
before. The overflow allocation does not suffice, and the gang of the copy is removed (R347), its shingle with it. -/

namespace Sys2Proof.Machine

/-- A CPOUT of shingle 3 that has written all its bytes and is not at its release point, whose counter is 7. -/
def writtenOut : OutCopy :=
  { stamp := 0, kind := .cpout, sh := 3, va := 0x10000, len := 128, pages := [(1, 0x20000)], ctr := 7, vis := 0, flag := false
    hostWait := [], buf := [], bad := [], units := [0, 64], left := 128, released := false, visible := false, ecc := none, hs := 0 }

/-- The shingle that it drains. -/
def drained : Shingle := ⟨.draining, 1024, 16, 0x2000, 0, 7⟩

/-- A module whose engines list counter 7 of ASID 0 twice, once with two waiters that wait for 1000. The quota of every table is three, and
there is no overflow allocation. The tile belongs to a gang that is live. -/
def twiceListed : State :=
  let image : Image := ⟨1, 0, false, [], 2, 2, 0, 0x1000, 0x200, [], [], ⟨[], [], [], []⟩⟩
  let w : Waiter := ⟨⟨0, 1, 1⟩, 1000, true, false⟩
  { State.reset.updPart 0 fun p => { p with gov := { p.gov with quota := Vector.replicate 4 3 } } with
    tile := { Tile.fresh with
      id := ⟨0, 1, 0⟩
      ops := { Outstanding.fresh with copies := [writtenOut] }
      eng := { Engine.fresh with shingles := (Vector.replicate 64 none).set 3 (some drained) } }
    sync := { State.reset.sync with ctrs := [⟨0, 7, 0, 0, false, false, [w, w]⟩, ⟨0, 7, 0, 0, false, false, []⟩] }
    gangs := [State.reset.newGang 0 1 ⟨0, [], 0⟩ image] }

/-- Two counters and two waiters are within a quota of three. -/
theorem twiceListed_roomy : Roomy twiceListed 0 := by
  have quota : ∀ k : Fin 4, (twiceListed.part 0).gov.quota.get k = 3 := by decide
  intro table engine
  rw [quota]
  match table with
  | 0 => exact Nat.lt_of_le_of_lt List.countP_le_length (show 2 < 3 by decide)
  | 1 =>
    have waiters (p : Counter → Bool) : (twiceListed.sync.ctrs.filter p).foldl (fun n c => n + c.waiters.length) 0 < 3 := by
      show ((List.filter p [_, _]).foldl _ 0) < 3
      rw [List.filter_cons, List.filter_cons, List.filter_nil]
      split_ifs
      · decide
      · decide
      · decide
      · decide
    exact waiters _
  | 2 => exact Nat.lt_of_le_of_lt List.countP_le_length (show 0 < 3 by decide)
  | _ + 3 => exact Nat.lt_of_le_of_lt List.countP_le_length (show 0 < 3 by decide)

/-- The release point removes the gang: no shingle is left. -/
theorem twiceListed_removed {u : State} (h : exec (.releasePoint 0) twiceListed = .next u) : u.tile.sh 3 = none := by
  have next : ∃ v, exec (.releasePoint 0) twiceListed = .next v ∧ v.tile.sh 3 = none := ⟨_, rfl, by decide +kernel⟩
  obtain ⟨v, hv, none⟩ := next
  obtain rfl : u = v := Host.Outcome.next.inj (h.symm.trans hv)
  exact none

end Sys2Proof.Machine

open Sys2Proof Sys2Proof.Machine

/-- Refutes O45: with a counter that is listed twice, the release point of a CPOUT takes the engine's table past its quota, and the gang of
the copy is removed, where the statement says that its shingle is READY. -/
theorem not_copyEvents : ¬ Obligations.CopyEvents := by
  intro h
  obtain ⟨-, release, -⟩ := h twiceListed
  obtain ⟨u, next, ready, -⟩ := release 0 writtenOut drained rfl rfl rfl (by decide +kernel) rfl twiceListed_roomy (by decide +kernel)
  exact nomatch (twiceListed_removed next).symm.trans ready
end

section
/-! SUPPORT. Vector instructions at issue (R127 to R131, R240): what is awaited of the lanes that are on, with their flags (R48). -/

namespace Sys2Proof.Machine

/-! ## The lanes that are on -/

theorem Tile.enabled_bit (t : Tile) (k : MReg) (i : Fin 16) : (t.enabled k).getLsbD i.val = true ↔ LaneOn t k i := by
  rw [Tile.enabled, BitVec.getLsbD_and, Bool.and_eq_true, t.active_bit, decide_eq_true_iff]
  exact Iff.rfl

theorem Tile.enabled_eq_zero (t : Tile) (k : MReg) : t.enabled k = 0 ↔ ∀ i, ¬LaneOn t k i := by
  constructor
  · intro zero i on
    have bit := (t.enabled_bit k i).mpr on
    rw [zero] at bit
    simp at bit
  · refine fun off => BitVec.eq_of_getLsbD_eq fun i hi => ?_
    rw [Bool.eq_false_iff.mpr fun bit => off ⟨i, hi⟩ ((t.enabled_bit k ⟨i, hi⟩).mp bit)]
    simp

/-- A flag of the lanes together is set when one of the enabled lanes sets it (R48). -/
theorem lanesFlags_bit (en : Mask) (f : Fin 16 → FFlags) (j : Nat) :
    (lanesFlags en f).getLsbD j = true ↔ ∃ i : Fin 16, en.getLsbD i.val = true ∧ (f i).getLsbD j = true := by
  have fold (l : List (Fin 16)) (x : FFlags) :
      (l.foldl (fun x i => if en.getLsbD i.val then x ||| f i else x) x).getLsbD j = true ↔
        x.getLsbD j = true ∨ ∃ i ∈ l, en.getLsbD i.val = true ∧ (f i).getLsbD j = true := by
    induction l generalizing x with
    | nil => simp
    | cons i l ih =>
      rw [List.foldl_cons, ih, List.exists_mem_cons_iff]
      by_cases on : en.getLsbD i.val = true
      · rw [if_pos on, BitVec.getLsbD_or, Bool.or_eq_true, or_assoc, and_iff_right on]
      · have off : ¬(en.getLsbD i.val = true ∧ (f i).getLsbD j = true) := fun h => on h.1
        rw [if_neg on, or_iff_right off]
  rw [lanesFlags, fold]
  simp only [List.mem_finRange, true_and]
  exact or_iff_right (by simp)

/-! ## Issue -/

/-- A vector instruction counts its events, holds its unit and keeps everything else. -/
theorem Tile.vecIssue_keeps (t : Tile) (c : VClass) (en : Mask) (reads : List RegName) :
    t.KeepsBut (t.vecIssue c en reads) [] 1 ∧ (t.vecIssue c en reads).iss.writes = t.iss.writes ∧
    (t.vecIssue c en reads).iss.cycle = t.iss.cycle := by
  have counted : t.OnlyPerf ((t.event 35 1).event 34 (c.fp * laneCount en)) := (t.onlyPerf_event 35 1).trans (Tile.onlyPerf_event ..)
  refine ⟨Tile.keeps_issued reads counted.sameUnits counted.ops counted.samePad counted.sameRegs counted.ex, ?_, ?_⟩
  · exact (congrArg Issue.writes (Tile.issuedWords_iss _ 1 reads) :)
  · exact (congrArg Issue.cycle (Tile.issuedWords_iss _ 1 reads) :)

/-- A result that waits is one write more. -/
theorem Tile.KeepsBut.result_late {a b : Tile} {but : List GReg} {n l : Nat} (h : a.KeepsBut b but n) (hl : 1 < l) (w : RegWrite)
    (fl : Option FFlags) : a.KeepsBut (b.result l w fl) but n := by
  rw [Tile.result_late _ hl]
  exact h

/-- What a vector instruction leaves that writes lanes of vd: the result waits where a lane is on (R129, R238). -/
theorem vecOp_putV {s : State} {c : VClass} {d : VReg} {k : MReg} {reads : List RegName} {x : Tile → VVal}
    {w : Tile → Option FFlags} (late : 1 < c.lat)
    (h : s.tile.canIssue { regs := .v d :: .m k :: reads, reads := .m k :: reads, unit := c.unit }) :
    ∃ t, vecOp c [.v d] (.m k :: reads) (fun t => (t.vecIssue c (t.enabled k) (.m k :: reads)).putV c.lat d (t.enabled k) (x t) (w t)) s =
        .next t ∧ Frame s t [] 1 ∧
      ((∃ i, LaneOn s.tile k i) → s.tile.Awaiting t.tile c.lat (.v d (s.tile.enabled k) (x s.tile)) (w s.tile)) ∧
      ((∀ i, ¬LaneOn s.tile k i) → t.tile.iss.writes = s.tile.iss.writes) := by
  obtain ⟨keeps, writes, cycle⟩ := s.tile.vecIssue_keeps c (s.tile.enabled k) (.m k :: reads)
  refine ⟨_, issue_of_ok h rfl, frame_upd (f := fun t => Tile.putV ..) ?_, fun ⟨i, on⟩ => ?_, fun off => ?_⟩
  · unfold Tile.putV
    split_ifs
    · exact keeps
    · exact keeps.result_late late _ _
  · have nonzero : s.tile.enabled k ≠ 0 := fun e => (s.tile.enabled_eq_zero k).mp e i on
    unfold Tile.Awaiting Tile.putV
    rw [State.upd_tile, if_neg nonzero, Tile.result_late _ late, ← writes, ← cycle]
  · rw [State.upd_tile, Tile.putV, if_pos ((s.tile.enabled_eq_zero k).mpr off), writes]

/-- A lane-by-lane instruction with flags: each lane that is on awaits its result (R48, R128). -/
theorem laneOpF_next {s : State} {c : VClass} {d : VReg} {k : MReg} {reads : List RegName} {f : Tile → Fin 16 → Rounded}
    (late : 1 < c.lat) (h : s.tile.canIssue { regs := .v d :: .m k :: reads, reads := .m k :: reads, unit := c.unit }) :
    ∃ t, laneOpF c d k reads f s = .next t ∧ Frame s t [] 1 ∧
      LanesAwaited s.tile t.tile c.lat d (LaneOn s.tile k) (fun j => BitVec.ofNat 32 (f s.tile j).bits)
        (some fun j => (f s.tile j).flags) := by
  obtain ⟨t, next, frame, awaits, writes⟩ := vecOp_putV (c := c) late h
  refine ⟨t, next, frame, fun on => ⟨_, _, _, s.tile.enabled_bit k, fun i hi => ?_, ⟨_, rfl, fun j => ?_⟩, awaits on⟩, writes⟩
  · rw [lanesOf_get, Vector.get_ofFn, if_pos ((s.tile.enabled_bit k i).mpr hi)]
  · rw [lanesFlags_bit]
    refine exists_congr fun i => ?_
    rw [s.tile.enabled_bit k i, and_congr_right_iff]
    intro hi
    rw [Vector.get_ofFn, if_pos ((s.tile.enabled_bit k i).mpr hi)]

/-- A lane-by-lane instruction gives the results of its lanes. -/
theorem floatResult_of_laneOpF {s : State} {i : Instr} {c : VClass} {d : VReg} {k : MReg} {reads : List RegName}
    {r : Fin 16 → Rounded} (f : Tile → Fin 16 → Rounded) (late : 1 < c.lat) (op : exec i s = laneOpF c d k reads f s)
    (lanes : ∀ j, f s.tile j = r j) : FloatResult s i c d k reads r := by
  obtain rfl : f s.tile = r := funext lanes
  intro h
  rw [op]
  exact laneOpF_next late h

/-! ## Lane arithmetic -/

/-- VMIN.F and VMAX.F order words by a key (R134). -/
theorem orderKey_eq (x : W32) : orderKey x = if x.msb then 2 ^ 31 - 1 - (x.toNat : Int) else (x.toNat : Int) := by
  unfold orderKey
  split_ifs
  · omega
  · rfl

theorem minMax_false (x y : W32) : minMax false x y =
    if (f32 x).isNan || (f32 y).isNan then fp32.nan ((f32 x).isSnan || (f32 y).isSnan)
    else if orderKey x ≤ orderKey y then ⟨x.toNat, 0⟩ else ⟨y.toNat, 0⟩ := by
  simp [minMax]

theorem minMax_true (x y : W32) : minMax true x y =
    if (f32 x).isNan || (f32 y).isNan then fp32.nan ((f32 x).isSnan || (f32 y).isSnan)
    else if orderKey x > orderKey y then ⟨x.toNat, 0⟩ else ⟨y.toNat, 0⟩ := by
  simp [minMax]

/-- VABS.F clears the sign bit (R133). -/
theorem toNat_and_magnitude (x : W32) : (x &&& 0x7FFFFFFF).toNat = x.toNat % 2 ^ 31 := by
  rw [BitVec.toNat_and]
  exact Nat.and_two_pow_sub_one_eq_mod x.toNat 31

/-- VNEG.F changes the sign bit (R133). -/
theorem toNat_xor_sign (x : W32) : (x ^^^ 0x80000000).toNat = (x.toNat + 2 ^ 31) % 2 ^ 32 := by
  have sign : (0x80000000 : W32).toNat = 2 ^ 31 := rfl
  rw [BitVec.toNat_xor, sign, Nat.add_comm]
  refine Nat.eq_of_testBit_eq fun i => ?_
  rw [Nat.testBit_xor, Nat.testBit_mod_two_pow, Nat.testBit_two_pow]
  rcases Nat.lt_trichotomy i 31 with low | rfl | high
  · rw [Nat.testBit_two_pow_add_gt low, decide_eq_true (show i < 32 by omega), decide_eq_false (show ¬31 = i by omega),
      Bool.xor_false, Bool.true_and]
  · rw [Nat.testBit_two_pow_add_eq]
    simp
  · have beyond : x.toNat.testBit i = false := Nat.testBit_lt_two_pow (x.isLt.trans_le (Nat.pow_le_pow_right (by decide) high))
    rw [beyond, decide_eq_false (show ¬31 = i by omega), decide_eq_false (show ¬i < 32 by omega), Bool.xor_false,
      Bool.false_and]

/-! ## The statement about lanes -/

theorem floatLanes : FloatLanes := fun s _ _ _ _ =>
  ⟨floatResult_of_laneOpF _ (by decide) rfl fun _ => rfl,
    floatResult_of_laneOpF _ (by decide) rfl fun _ => rfl,
    floatResult_of_laneOpF _ (by decide) rfl fun _ => rfl,
    floatResult_of_laneOpF _ (by decide) rfl fun _ => rfl,
    floatResult_of_laneOpF (c := vfused) _ (by decide) rfl fun _ => rfl,
    floatResult_of_laneOpF (c := vfused) _ (by decide) rfl fun _ => rfl,
    floatResult_of_laneOpF (c := vfused) _ (by decide) rfl fun _ => rfl,
    floatResult_of_laneOpF _ (by decide) rfl fun _ => rfl,
    floatResult_of_laneOpF _ (by decide) rfl fun _ => by rw [minMax_false, orderKey_eq, orderKey_eq],
    floatResult_of_laneOpF _ (by decide) rfl fun _ => by rw [minMax_true, orderKey_eq, orderKey_eq],
    floatResult_of_laneOpF _ (by decide) rfl fun _ => by rw [signOp, toNat_and_magnitude],
    floatResult_of_laneOpF _ (by decide) rfl fun _ => by rw [signOp, toNat_xor_sign]⟩

/-! ## Corners -/

theorem fp32_nan (nv : Bool) : fp32.nan nv = if nv then ⟨0x7FC00000, 0x10⟩ else ⟨0x7FC00000, 0⟩ := by
  cases nv <;> rfl

/-- A NaN operand gives the canonical NaN, with NV where one is signalling (R46, R48). -/
theorem arith_of_nan (m : RMode) {x y : FVal} (h : x.isNan = true ∨ y.isNan = true) :
    let r := fp32.nan (x.isSnan || y.isSnan)
    fp32.add m x y = r ∧ fp32.mul m x y = r ∧ fp32.div m x y = r := by
  match x, y with
  | .nan a, y => exact ⟨rfl, rfl, rfl⟩
  | .inf a, .nan b => exact ⟨rfl, rfl, rfl⟩
  | .fin a n d, .nan b => exact ⟨rfl, rfl, rfl⟩
  | .inf a, .inf b => simp [FVal.isNan] at h
  | .inf a, .fin b n d => simp [FVal.isNan] at h
  | .fin a n d, .inf b => simp [FVal.isNan] at h
  | .fin a n d, .fin b n' d' => simp [FVal.isNan] at h

/-- The sum of a value and its negative is a zero whose sign the mode gives (R47). -/
theorem add_opposite (m : RMode) (p : Bool) {a : Nat} (b : Nat) (h : a ≠ 0) :
    fp32.add m (.fin p a b) (.fin (!p) a b) = ⟨if m = .rdn then 0x80000000 else 0, 0⟩ := by
  have zero : finAdd m p a b (!p) a b = (decide (m = .rdn), p, 0, b * b) := by
    simp [finAdd, h]
  rw [FFmt.add, zero]
  by_cases down : m = .rdn
  · subst down; rfl
  · simp [FFmt.roundZ, down]

/-- A fused product without a value is invalid; else a NaN addend gives the result (R46, R48). -/
theorem fma_corners (m : RMode) (p : Bool) (a b : Nat) (z : FVal) :
    fp32.fma m (.inf p) (.fin false 0 b) z = fp32.nan true ∧ fp32.fma m (.fin p 0 b) (.inf p) z = fp32.nan true ∧
    (z.isNan = true → fp32.fma m (.fin p a b) (.fin p a b) z = fp32.nan z.isSnan) := by
  match z with
  | .nan s => exact ⟨by simp [FFmt.fma], by simp [FFmt.fma], fun _ => by simp [FFmt.fma, FVal.isNan, FVal.isSnan]⟩
  | .inf s => exact ⟨rfl, rfl, fun h => nomatch h⟩
  | .fin s n d => exact ⟨rfl, rfl, fun h => nomatch h⟩

theorem roundingCorners : RoundingCorners := fun m =>
  ⟨fun x y h => fp32_nan (x.isSnan || y.isSnan) ▸ arith_of_nan m h,
    fun p q => by cases p <;> cases q <;> rfl,
    fun p q => ⟨by cases p <;> cases q <;> rfl, rfl⟩,
    fun p q a b => ⟨by cases p <;> rfl, by cases p <;> cases q <;> rfl, by cases p <;> cases q <;> rfl, by cases p <;> cases q <;> rfl⟩,
    fun p q a b c => by cases p <;> cases q <;> rfl,
    fun p a b z => fp32_nan z.isSnan ▸ fma_corners m p a b z,
    fun p _ b h => add_opposite m p b h,
    fun p b => by cases p <;> rfl,
    fun a b h => by rw [sqrt32, if_neg h]; rfl,
    rfl, rfl⟩

end Sys2Proof.Machine

open Sys2Proof Sys2Proof.Machine

/-- Settles O17: every lane-by-lane instruction by the one lemma about their issue, and the corners case by case. -/
theorem vectorFloat : Obligations.VectorFloat := ⟨floatLanes, roundingCorners⟩
end

section
/-! SUPPORT. The statement about the work of the CIM engine: its clause on scrubs does not exclude the error that fails a site, and fails
there.

The sixteenth uncorrectable error of a site within 3,600 s of TIME fails the site (R389, R390), and repair stops every gang that has a
context there (R391). A tile that holds at a CWAIT stops at once (R334): its CWAIT has been fetched, and leaves one fetch fewer to the
stores into the code segment before it (R108). The clause says that a scrub marks the word it finds and leaves all else of the scratchpad, that count of
fetches among it. -/

namespace Sys2Proof.Machine

/-- A tile of gang 1 at physical tile 0. It holds at a CWAIT of counter 7, after a store into the next word of its code segment, which the
two next fetches need not see. -/
def heldAfterStore : Tile :=
  { Tile.fresh with
    id := ⟨0, 1, 0⟩
    regs := { Regs.fresh with shbase := 0x1000 }
    ex := { Exec.fresh with inh := true, pc := 0x100, cw := some ⟨7, 1, false, 0, none, true, true, false, none⟩ }
    pad := { bytes := [], old := [(0x104, 0, 2)], bad := [] }
    pl := { Place.fresh with res := .resident, touched := true } }

/-- Physical tile 0 has met fifteen uncorrectable errors since power-on. -/
def fifteenErrors : State :=
  let image : Image := ⟨1, 0, false, [], 1, 1, 0, 0x1000, 0x200, [], [], ⟨[], [], [], []⟩⟩
  { State.reset with
    tile := heldAfterStore
    gangs := [State.reset.newGang 0 1 ⟨0, [], 0⟩ image]
    svc := { State.reset.svc with errs := [(0, { SiteErr.fresh with unc := 15, times := List.replicate 15 0 })] } }

/-- The sixteenth, which a scrub finds in word 0 of the scratchpad, fails the site: the tile stops, and its CWAIT counts as fetched. -/
theorem fifteenErrors_sixteenth {u : State} (h : exec (.scrub ⟨0, .scratchpad⟩ 0 .uncorrectable) fifteenErrors = .next u) :
    u.tile.pad.old = [(0x104, 0, 1)] := by
  have next : ∃ v, exec (.scrub ⟨0, .scratchpad⟩ 0 .uncorrectable) fifteenErrors = .next v ∧ v.tile.pad.old = [(0x104, 0, 1)] :=
    ⟨_, rfl, by decide +kernel⟩
  obtain ⟨v, hv, passed⟩ := next
  obtain rfl : u = v := Host.Outcome.next.inj (h.symm.trans hv)
  exact passed

end Sys2Proof.Machine

open Sys2Proof Sys2Proof.Machine

/-- Refutes O46: where a scrub finds the sixteenth uncorrectable error of a site, the site fails, and the gang of its tile stops, which
changes more of the scratchpad's state than the mark of the word. -/
theorem not_engineEvents : ¬ Obligations.EngineEvents := by
  intro h
  obtain ⟨-, -, -, scrubs⟩ := h
  obtain ⟨tileArrays, -⟩ := scrubs fifteenErrors 0
  obtain ⟨good, -⟩ := tileArrays .scratchpad 524288 [] (List.mem_cons_self ..) (by decide +kernel) (by decide)
  obtain ⟨-, -, u, next, -, pad, -⟩ := good List.not_mem_nil
  have kept : u.tile.pad.old = [(0x104, 0, 2)] := congrArg Scratch.old pad
  exact absurd ((fifteenErrors_sixteenth next).symm.trans kept) (by decide)
end

section
/-! SUPPORT. Values of the arithmetic (R47 to R57, R59 to R62, R136 to R140, R148, R152, R153), computed by the model. -/

namespace Sys2Proof.Machine

theorem roundedValues : RoundedValues := by
  unfold RoundedValues
  decide +kernel

theorem convertedValues : ConvertedValues := by
  unfold ConvertedValues
  decide +kernel

theorem blockValues : BlockValues := by
  unfold BlockValues
  decide +kernel

theorem approximatedValues : ApproximatedValues := by
  unfold ApproximatedValues
  decide +kernel

theorem generatorValues : GeneratorValues := by
  unfold GeneratorValues
  decide +kernel

theorem engineValues : EngineValues := by
  unfold EngineValues
  decide +kernel

end Sys2Proof.Machine

open Sys2Proof Sys2Proof.Machine

/-- Settles O60: each group of values by computing it. -/
theorem numericValues : Obligations.NumericValues :=
  ⟨roundedValues, convertedValues, blockValues, approximatedValues, generatorValues, engineValues⟩
end

section
/-! SUPPORT. What the decoder reads of an encoded word (R64 to R78): each format gives back its fields, and each row of the encoding
tables its instruction. -/

namespace Sys2Proof

/-! ## Fields -/

@[simp] theorem fld_zero (lo n : Nat) : fld 0 lo n = 0 := by simp [fld]

theorem f3_eq {w v lo lo' : Nat} : f3 w lo = f3 v lo' ↔ fld w lo 3 = fld v lo' 3 := Fin.ext_iff

theorem f4_eq {w v lo lo' : Nat} : f4 w lo = f4 v lo' ↔ fld w lo 4 = fld v lo' 4 := Fin.ext_iff

theorem f5_eq {w v lo lo' : Nat} : f5 w lo = f5 v lo' ↔ fld w lo 5 = fld v lo' 5 := Fin.ext_iff

theorem f6_eq {w v lo lo' : Nat} : f6 w lo = f6 v lo' ↔ fld w lo 6 = fld v lo' 6 := Fin.ext_iff

theorem bit_iff {w lo : Nat} {b : Bool} : bit w lo = b ↔ fld w lo 1 = b.toNat := by
  unfold bit fld
  rcases Nat.mod_two_eq_zero_or_one (w / 2 ^ lo) with e | e <;> cases b <;> simp [e]

theorem bit_eq {w v lo lo' : Nat} : bit w lo = bit v lo' ↔ fld w lo 1 = fld v lo' 1 := by
  rw [bit_iff, ← bit_iff.mp rfl]

theorem ofNat_eq {n w v : Nat} : BitVec.ofNat n w = BitVec.ofNat n v ↔ fld w 0 n = fld v 0 n := by
  simp [← BitVec.toNat_inj, fld]

@[simp] theorem bit_zero (lo : Nat) : bit 0 lo = false := by simp [bit]

@[simp] theorem f3_val (x : Fin 8) : f3 x 0 = x := Fin.ext (by simp [f3])

@[simp] theorem f4_val (x : Fin 16) : f4 x 0 = x := Fin.ext (by simp [f4])

@[simp] theorem f5_val (x : Fin 32) : f5 x 0 = x := Fin.ext (by simp [f5])

@[simp] theorem f6_val (x : Fin 64) : f6 x 0 = x := Fin.ext (by simp [f6])

/-- A value below 2 ^ lo has no bit at lo or above. -/
theorem fld_of_lt {x lo : Nat} (n : Nat) (h : x < 2 ^ lo) : fld x lo n = 0 := by rw [fld, Nat.div_eq_of_lt h, Nat.zero_mod]

@[simp] theorem fld_above_three (x : Fin 8) (n : Nat) : fld x 3 n = 0 := fld_of_lt n x.isLt

@[simp] theorem fld_above_six (x : Fin 64) (n : Nat) : fld x 6 n = 0 := fld_of_lt n x.isLt

/-! ## Codes -/

theorem Scope.code_lt (sc : Scope) : sc.code < 6 := by cases sc <;> decide

@[simp] theorem Scope.ofCode_code (sc : Scope) : Scope.ofCode sc.code = some sc := by cases sc <;> rfl

theorem ElemTy.code_lt (t : ElemTy) : t.code < 8 := by cases t <;> decide

@[simp] theorem ElemTy.fld_code_above (t : ElemTy) (n : Nat) : fld t.code 3 n = 0 := fld_of_lt n t.code_lt

@[simp] theorem ElemTy.ofCode_code (t : ElemTy) : ElemTy.ofCode (f3 t.code 0) = t := by cases t <;> rfl

theorem BlkFmt.code_lt (f : BlkFmt) : f.code < 4 := by cases f <;> decide

@[simp] theorem BlkFmt.fld_code_above (f : BlkFmt) (n : Nat) : fld f.code 2 n = 0 := fld_of_lt n f.code_lt

@[simp] theorem BlkFmt.ofCode_code (f : BlkFmt) : BlkFmt.ofCode (fld f.code 0 2) = f := by cases f <;> rfl

theorem AccFmt.code_lt (f : AccFmt) : f.code < 8 := by cases f <;> decide

@[simp] theorem AccFmt.fld_code_above (f : AccFmt) (n : Nat) : fld f.code 3 n = 0 := fld_of_lt n f.code_lt

@[simp] theorem AccFmt.ofCode_code (f : AccFmt) : AccFmt.ofCode (fld f.code 0 3) = some f := by cases f <;> rfl

theorem RedTy.code_lt (t : RedTy) : t.code < 8 := by cases t <;> decide

@[simp] theorem RedTy.fld_code_above (t : RedTy) (n : Nat) : fld t.code 3 n = 0 := fld_of_lt n t.code_lt

@[simp] theorem RedTy.ofCode_code (t : RedTy) : RedTy.ofCode (fld t.code 0 3) = some t := by cases t <;> rfl

@[simp] theorem withCode_some {α : Type} (w : Nat) (x : α) (k : α → Except DecodeError Instr) : withCode w (some x) k = k x := rfl

/-- Bit 0 of TLBINV stands for all translations (R71). -/
theorem allOperand : bit 1 0 = true ∧ fld 1 1 11 = 0 := by decide

/-- The two numbers of BEXT and BINS (R68). -/
theorem extentOperand (x y : Fin 64) : f6 (x.val * 64 + y.val) 6 = x ∧ f6 (x.val * 64 + y.val) 0 = y := by
  simp only [f6, Fin.ext_iff]
  omega

/-! ## Options of format E (R74, R75) -/

/-- The copies that fill: scope, acquire, xp. -/
theorem fillOptions (sc : Scope) (x y : Bool) :
    let o := sc.code * 128 + x.toNat * 64 + y.toNat * 16
    o < 1024 ∧ fld o 7 3 = sc.code ∧ bit o 6 = x ∧ fld o 5 1 = 0 ∧ bit o 4 = y ∧ fld o 0 4 = 0 := by
  have := sc.code_lt; have := x.toNat_lt; have := y.toNat_lt
  simp only [bit_iff, fld]
  omega

theorem drainOptions (sc : Scope) (x : Bool) :
    let o := sc.code * 128 + x.toNat * 32
    o < 1024 ∧ fld o 7 3 = sc.code ∧ fld o 6 1 = 0 ∧ bit o 5 = x ∧ fld o 0 5 = 0 := by
  have := sc.code_lt; have := x.toNat_lt
  simp only [bit_iff, fld]
  omega

theorem transferOption (x : Bool) :
    let o := x.toNat * 16
    o < 1024 ∧ fld o 5 5 = 0 ∧ bit o 4 = x ∧ fld o 0 4 = 0 := by
  have := x.toNat_lt
  simp only [bit_iff, fld]
  omega

theorem scopeOptions (sc : Scope) (x : Bool) :
    let o := sc.code * 128 + x.toNat * 64
    o < 1024 ∧ fld o 7 3 = sc.code ∧ bit o 6 = x ∧ fld o 0 6 = 0 := by
  have := sc.code_lt; have := x.toNat_lt
  simp only [bit_iff, fld]
  omega

theorem waitOptions (sc : Scope) (x y : Bool) (n : Fin 32) :
    let o := sc.code * 128 + x.toNat * 64 + y.toNat * 32 + n.val
    o < 1024 ∧ fld o 7 3 = sc.code ∧ bit o 6 = x ∧ bit o 5 = y ∧ f5 o 0 = f5 n 0 := by
  have := sc.code_lt; have := x.toNat_lt; have := y.toNat_lt
  simp only [bit_iff, f5_eq, fld]
  omega

theorem flagOption (x : Bool) : x.toNat < 1024 ∧ fld x.toNat 1 9 = 0 ∧ bit x.toNat 0 = x := by
  have := x.toNat_lt
  simp only [bit_iff, fld]
  omega

theorem flagOptions (x y : Bool) :
    let o := x.toNat * 2 + y.toNat
    o < 1024 ∧ fld o 2 8 = 0 ∧ bit o 1 = x ∧ bit o 0 = y := by
  have := x.toNat_lt; have := y.toNat_lt
  simp only [bit_iff, fld]
  omega

/-- A flag above a number of three bits. -/
theorem numberOptions (x : Bool) {n : Nat} (h : n < 8) :
    let o := x.toNat * 8 + n
    o < 1024 ∧ fld o 4 6 = 0 ∧ bit o 3 = x ∧ fld o 0 3 = fld n 0 3 ∧ f3 o 0 = f3 n 0 := by
  have := x.toNat_lt
  simp only [bit_iff, f3_eq, fld]
  omega

/-- The atomics hold bit 9. -/
theorem atomicOptions (x : Bool) :
    let o := 1 * 512 + x.toNat * 256
    o < 1024 ∧ bit o 9 = true ∧ bit o 8 = x ∧ fld o 0 8 = 0 := by
  have := x.toNat_lt
  simp only [bit_iff, fld, Bool.toNat_true]
  omega

theorem compareOptions (x : Bool) (c : Fin 32) :
    let o := 1 * 512 + x.toNat * 256 + c.val
    o < 1024 ∧ bit o 9 = true ∧ bit o 8 = x ∧ fld o 5 3 = 0 ∧ f5 o 0 = f5 c 0 := by
  have := x.toNat_lt
  simp only [bit_iff, f5_eq, fld, Bool.toNat_true]
  omega

theorem orderOptions (x y : Bool) :
    let o := 1 * 512 + x.toNat * 256 + y.toNat * 128
    o < 1024 ∧ bit o 9 = true ∧ bit o 8 = x ∧ bit o 7 = y ∧ fld o 0 7 = 0 := by
  have := x.toNat_lt; have := y.toNat_lt
  simp only [bit_iff, fld, Bool.toNat_true]
  omega

/-- The fences hold their flags and their scope in the place of an operand (R234). -/
theorem fenceOperand (acq rel : Bool) (sc : Scope) :
    let a := 8 * ((if rel then 2 else 0) + (if acq then 1 else 0)) + sc.code
    a < 32 ∧ bit a 3 = acq ∧ bit a 4 = rel ∧ fld a 0 3 = sc.code := by
  have := sc.code_lt
  simp only [bit_iff, fld]
  cases acq <;> cases rel <;> simp <;> omega

/-! ## Words -/

/-- The decoders of the major opcodes that hold groups (R66). -/
theorem decodeWord_group (w : Nat) :
    (fld w 26 6 = 0x00 → decodeWord w = decodeScalar w) ∧ (fld w 26 6 = 0x0e → decodeWord w = decodeBits w) ∧
    (fld w 26 6 = 0x20 → decodeWord w = decodeV20 w) ∧ (fld w 26 6 = 0x21 → decodeWord w = decodeV21 w) ∧
    (fld w 26 6 = 0x22 → decodeWord w = decodeV22 w) ∧ (fld w 26 6 = 0x23 → decodeWord w = decodeV23 w) ∧
    (fld w 26 6 = 0x24 → decodeWord w = decodeV24 w) ∧ (fld w 26 6 = 0x26 → decodeWord w = decodeV26 w) ∧
    (fld w 26 6 = 0x28 → decodeWord w = decodeV28 w) ∧ (fld w 26 6 = 0x30 → decodeWord w = decodeE30 w) ∧
    (fld w 26 6 = 0x31 → decodeWord w = decodeE31 w) ∧ (fld w 26 6 = 0x32 → decodeWord w = decodeE32 w) ∧
    (fld w 26 6 = 0x36 → decodeWord w = decodeE36 w) ∧ (fld w 26 6 = 0x37 → decodeWord w = decodeE37 w) ∧
    (fld w 26 6 = 0x38 → decodeWord w = decodeE38 w) ∧ (fld w 26 6 = 0x39 → decodeWord w = decodeE39 w) ∧
    (fld w 26 6 = 0x3a → decodeWord w = decodeE3a w) ∧ (fld w 26 6 = 0x3b → decodeWord w = decodeE3b w) ∧
    (fld w 26 6 = 0x3c → decodeWord w = decodeSystem w) := by
  unfold decodeWord
  refine ⟨?_, ?_, ?_, ?_, ?_, ?_, ?_, ?_, ?_, ?_, ?_, ?_, ?_, ?_, ?_, ?_, ?_, ?_, ?_⟩ <;> (intro h; rw [h]; rfl)

/-- The bytes of an instruction decode to it, whatever follows them. -/
def Instr.ReadBack (i : Instr) : Prop := ∀ rest, decode (encodeBytes i ++ rest) = .ok (i, rest)

theorem bytesOfWord_eq (w : Nat) : bytesOfWord w = Machine.toBytes w 4 := by
  simp [bytesOfWord, Machine.toBytes, Nat.div_div_eq_div_mul]

/-- A word that fits is the value of a machine word. -/
theorem toNat_word {w : Nat} (h : w < 2 ^ 32) : (BitVec.ofNat 32 w).toNat = w := Nat.mod_eq_of_lt h

/-- A HEAD decodes with the word after it (R77). -/
theorem decode_of_head {w v : W32} (h : w.toNat / 2 ^ 26 = 0x3E) (rest : List Byte) :
    decode (Machine.toBytes w.toNat 4 ++ Machine.toBytes v.toNat 4 ++ rest) = (decodePair w.toNat v.toNat).map fun i => (i, rest) := by
  simp only [Machine.toBytes, List.cons_append, List.nil_append, decode, Machine.wordOf_bytes, Machine.major_eq, if_pos h]

section
variable {i : Instr} {m f : Nat}

theorem settle_wf (w : Nat) (wf : i.wf = true) : settle w false i = .ok i := by simp [settle, wf]

/-- A word other than a HEAD reads back where its row finds every unused field zero. -/
theorem readBack_of_row {w : Nat} (enc : encode i = [w]) (small : w < 2 ^ 32) (head : fld w 26 6 < 0x3e) (wf : i.wf = true)
    (row : decodeWord w = settle w false i) : i.ReadBack := by
  intro rest
  have bytes : encodeBytes i = Machine.toBytes (BitVec.ofNat 32 w).toNat 4 := by
    rw [encodeBytes, enc, List.flatMap_singleton, bytesOfWord_eq, toNat_word small]
  have notHead : (BitVec.ofNat 32 w).toNat / 2 ^ 26 ≠ 0x3E := by
    rw [← Machine.major_eq, toNat_word small]
    omega
  rw [bytes, Machine.decode_of_not_head notHead, toNat_word small, row, settle_wf w wf]
  rfl

/-- The pairs hold their 36 bits in the HEAD and below the code of the TAIL (R77). -/
theorem readBack_pair {d a : GReg} {imm : BitVec 36} {code : Nat}
    (enc : encode i = [0x3e * 2 ^ 26 + imm.toNat / 1024, 0x3f * 2 ^ 26 + d.val * 2 ^ 21 + a.val * 2 ^ 16 + code * 1024 + imm.toNat % 1024])
    (row : ∀ h t, fld t 26 6 = 0x3f → fld t 10 6 = code → f5 t 21 = d → f5 t 16 = a →
      BitVec.ofNat 36 (fld h 0 26 * 1024 + fld t 0 10) = imm → decodePair h t = .ok i)
    (hc : code < 64 := by decide) : i.ReadBack := by
  intro rest
  have hi := imm.isLt
  generalize hh : 0x3e * 2 ^ 26 + imm.toNat / 1024 = h at enc
  generalize ht : 0x3f * 2 ^ 26 + d.val * 2 ^ 21 + a.val * 2 ^ 16 + code * 1024 + imm.toNat % 1024 = t at enc
  have smallH : h < 2 ^ 32 := by omega
  have smallT : t < 2 ^ 32 := by omega
  have bytes : encodeBytes i = Machine.toBytes (BitVec.ofNat 32 h).toNat 4 ++ Machine.toBytes (BitVec.ofNat 32 t).toNat 4 := by
    rw [encodeBytes, enc, List.flatMap_cons, List.flatMap_singleton, bytesOfWord_eq, bytesOfWord_eq, toNat_word smallH, toNat_word smallT]
  have head : (BitVec.ofNat 32 h).toNat / 2 ^ 26 = 0x3E := by
    rw [toNat_word smallH]
    omega
  have high : fld h 0 26 = imm.toNat / 1024 := by
    simp only [fld]
    omega
  have low : fld t 0 10 = imm.toNat % 1024 := by
    simp only [fld]
    omega
  have pair : decodePair h t = .ok i := by
    refine row h t ?_ ?_ ?_ ?_ (by rw [high, low, Nat.div_add_mod', BitVec.ofNat_toNat, BitVec.setWidth_eq])
    all_goals simp only [Fin.ext_iff, f5, fld]; omega
  rw [bytes, decode_of_head head, toNat_word smallH, toNat_word smallT, pair]
  rfl

theorem readBack_encA {d a b c : Fin 32} (enc : encode i = [encA 0 d a b f c]) (wf : i.wf = true)
    (row : ∀ w, fld w 5 6 = f → f5 w 21 = d → f5 w 16 = a → f5 w 11 = b ∧ fld w 11 5 = b → f5 w 0 = c ∧ fld w 0 5 = c →
      decodeScalar w = settle w false i) (hf : f < 64 := by decide) : i.ReadBack := by
  have major : fld (encA 0 d a b f c) 26 6 = 0 := by
    simp only [fld, encA]
    omega
  refine readBack_of_row enc (by unfold encA; omega) (by omega) wf ?_
  rw [(decodeWord_group _).1 major]
  apply row <;> simp only [Fin.ext_iff, f5, fld, encA] <;> omega

theorem readBack_encV {d a b t : Nat} {k : Fin 8} (enc : encode i = [encV m d a b k t f]) (wf : i.wf = true)
    (row : ∀ w, fld w 26 6 = m ∧ f5 w 21 = f5 d 0 ∧ f3 w 21 = f3 d 0 ∧ fld w 24 2 = fld d 3 2 ∧
      f5 w 16 = f5 a 0 ∧ f3 w 16 = f3 a 0 ∧ fld w 16 5 = a ∧ fld w 19 2 = fld a 3 2 ∧
      f5 w 11 = f5 b 0 ∧ f3 w 11 = f3 b 0 ∧ fld w 11 5 = b ∧ fld w 11 2 = fld b 0 2 ∧ fld w 13 3 = fld b 2 3 ∧ fld w 14 2 = fld b 3 2 ∧
      f3 w 8 = f3 k 0 ∧ fld w 8 3 = k ∧ f3 w 5 = f3 t 0 ∧ fld w 5 3 = t ∧ fld w 0 5 = f → decodeWord w = settle w false i)
    (hd : d < 32 := by omega) (ha : a < 32 := by omega) (hb : b < 32 := by omega) (ht : t < 8 := by decide)
    (hm : m < 0x3e := by decide) (hf : f < 32 := by decide) : i.ReadBack := by
  refine readBack_of_row enc ?_ ?_ wf (row _ ?_)
  · unfold encV
    omega
  · simp only [fld, encV]
    omega
  · simp only [f3_eq, f5_eq, fld, encV]
    omega

theorem readBack_encE {a b o : Nat} (enc : encode i = [encE m f a b o]) (wf : i.wf = true)
    (row : ∀ w, fld w 26 6 = m ∧ fld w 20 6 = f ∧ f5 w 15 = f5 a 0 ∧ fld w 15 5 = a ∧ fld w 15 3 = fld a 0 3 ∧ bit w 18 = bit a 3 ∧
      bit w 19 = bit a 4 ∧ f5 w 10 = f5 b 0 ∧ fld w 10 5 = b ∧ (∀ lo n, lo + n ≤ 10 → fld w lo n = fld o lo n) ∧
      (∀ lo, lo < 10 → bit w lo = bit o lo) ∧ f3 w 0 = f3 o 0 ∧ f5 w 0 = f5 o 0 ∧ f6 w 0 = f6 o 0 ∧
      BitVec.ofNat 8 w = BitVec.ofNat 8 o → decodeWord w = settle w false i)
    (ho : o < 1024 := by omega) (ha : a < 32 := by omega) (hb : b < 32 := by omega) (hm : m < 0x3e := by decide)
    (hf : f < 64 := by decide) : i.ReadBack := by
  have low (lo n : Nat) (h : lo + n ≤ 10) : fld (encE m f a b o) lo n = fld o lo n := by
    have split : encE m f a b o = o + 2 ^ lo * (2 ^ n * (2 ^ (10 - lo - n) * (m * 2 ^ 16 + f * 2 ^ 10 + a * 2 ^ 5 + b))) := by
      rw [← Nat.mul_assoc, ← Nat.mul_assoc, ← pow_add, ← pow_add, show lo + n + (10 - lo - n) = 10 by omega, encE]
      omega
    rw [fld, split, Nat.add_mul_div_left _ _ (by positivity), Nat.add_mul_mod_self_left, fld]
  refine readBack_of_row enc ?_ ?_ wf (row _ ?_)
  · unfold encE
    omega
  · simp only [fld, encE]
    omega
  · simp only [f3_eq, f5_eq, f6_eq, bit_eq, ofNat_eq]
    refine ⟨?_, ?_, ?_, ?_, ?_, ?_, ?_, ?_, ?_, low, fun lo h => low lo 1 (by omega), low 0 3 (by omega),
      low 0 5 (by omega), low 0 6 (by omega), low 0 8 (by omega)⟩
    all_goals simp only [fld, encE]; omega

theorem readBack_encI {d a : Fin 32} {imm : Nat} (enc : encode i = [encI m d a imm]) (wf : i.wf = true)
    (row : ∀ w, fld w 26 6 = m ∧ f5 w 21 = f5 d 0 ∧ f5 w 16 = f5 a 0 ∧ fld w 16 5 = a ∧ fld w 6 10 = fld imm 6 10 ∧
      f6 w 0 = f6 imm 0 ∧ BitVec.ofNat 16 w = BitVec.ofNat 16 imm → decodeWord w = settle w false i)
    (h : imm < 2 ^ 16 := by omega) (hm : m < 0x3e := by decide) : i.ReadBack := by
  refine readBack_of_row enc ?_ ?_ wf (row _ ?_)
  · unfold encI
    omega
  · simp only [fld, encI]
    omega
  · simp only [f5_eq, f6_eq, ofNat_eq, fld, encI]
    omega

/-- A word of the system group, or of BEXT and BINS (R68, R71): a code of four bits above twelve others. -/
theorem readBack_code {code x : Nat} {d a : Fin 32} (enc : encode i = [encI m d a (code * 4096 + x)]) (wf : i.wf = true)
    (row : ∀ w, fld w 26 6 = m ∧ fld w 12 4 = code ∧ f5 w 21 = f5 d 0 ∧ f5 w 16 = f5 a 0 ∧ fld w 21 5 = d ∧ fld w 16 5 = a ∧
      fld w 16 10 = d * 32 + a ∧ fld w 0 12 = x ∧ fld w 1 11 = fld x 1 11 ∧ bit w 0 = bit x 0 ∧ f6 w 6 = f6 x 6 ∧ f6 w 0 = f6 x 0 ∧
      BitVec.ofNat 12 w = BitVec.ofNat 12 x → decodeWord w = settle w false i)
    (hx : x < 4096 := by omega) (hc : code < 16 := by decide) (hm : m < 0x3e := by decide) : i.ReadBack := by
  refine readBack_of_row enc ?_ ?_ wf (row _ ?_)
  · unfold encI
    omega
  · simp only [fld, encI]
    omega
  · simp only [f5_eq, f6_eq, bit_eq, ofNat_eq, fld, encI]
    omega

theorem readBack_encM {d a : Fin 32} {z : Fin 8} {off : BitVec 13} (enc : encode i = [encM m d a z off]) (wf : i.wf = true)
    (row : ∀ w, fld w 26 6 = m ∧ f5 w 21 = f5 d 0 ∧ f5 w 16 = f5 a 0 ∧ f3 w 13 = f3 z 0 ∧ BitVec.ofNat 13 w = BitVec.ofNat 13 off.toNat →
      decodeWord w = settle w false i) (hm : m < 0x3e := by decide) : i.ReadBack := by
  refine readBack_of_row enc ?_ ?_ wf (row _ ?_)
  · unfold encM
    omega
  · simp only [fld, encM]
    omega
  · simp only [f3_eq, f5_eq, ofNat_eq, fld, encM]
    omega

theorem readBack_encB {a b : Nat} {disp : BitVec 16} (enc : encode i = [encB m a b disp]) (wf : i.wf = true)
    (row : ∀ w, fld w 26 6 = m ∧ f5 w 21 = f5 a 0 ∧ f3 w 21 = f3 a 0 ∧ fld w 24 2 = fld a 3 2 ∧ f5 w 16 = f5 b 0 ∧
      BitVec.ofNat 16 w = BitVec.ofNat 16 disp.toNat → decodeWord w = settle w false i)
    (ha : a < 32 := by omega) (hb : b < 32 := by omega) (hm : m < 0x3e := by decide) : i.ReadBack := by
  refine readBack_of_row enc ?_ ?_ wf (row _ ?_)
  · unfold encB
    omega
  · simp only [fld, encB]
    omega
  · simp only [f3_eq, f5_eq, ofNat_eq, fld, encB]
    omega

theorem readBack_encJ {disp : BitVec 26} (enc : encode i = [encJ m disp]) (wf : i.wf = true)
    (row : ∀ w, fld w 26 6 = m ∧ BitVec.ofNat 26 w = BitVec.ofNat 26 disp.toNat → decodeWord w = settle w false i)
    (hm : m < 0x3e := by decide) : i.ReadBack := by
  refine readBack_of_row enc ?_ ?_ wf (row _ ?_)
  · unfold encJ
    omega
  · simp only [fld, encJ]
    omega
  · simp only [ofNat_eq, fld, encJ]
    omega

/-- WAIT holds five counts (R69). -/
theorem readBack_wait (ld st cp mx ms : Fin 16) : (Instr.wait ld st cp mx ms).ReadBack := by
  refine readBack_of_row rfl ?_ ?_ rfl ?_
  · omega
  · simp only [fld]
    omega
  · generalize hw : 0x3d * 2 ^ 26 + ld.val * 2 ^ 22 + st.val * 2 ^ 18 + cp.val * 2 ^ 14 + mx.val * 2 ^ 10 + ms.val * 2 ^ 6 = w
    have fields : fld w 26 6 = 0x3d ∧ f4 w 22 = f4 ld 0 ∧ f4 w 18 = f4 st 0 ∧ f4 w 14 = f4 cp 0 ∧ f4 w 10 = f4 mx 0 ∧ f4 w 6 = f4 ms 0 ∧
        fld w 0 6 = 0 := by
      simp only [f4_eq, fld]
      omega
    simp [decodeWord, fields]


/-- Every instruction reads back: each row of the encoding tables by the fields of its format. -/
theorem Instr.readBack (i : Instr) (word : i.isWord = true) (wf : i.wf = true) : i.ReadBack := by
  cases i with
  | add | sub | addw | subw | mul | mulh | mulhn | div | divn | rem | remn | and | or | xor | andn | orn | shl | shr | sra
  | rotr | min | max | minn | maxn | seq | sne | slt | sltn | sle | slen =>
    exact readBack_encA rfl wf fun w funct hd ha hb last => by rw [decodeScalar, funct, hd, ha, hb.1, last.2]; rfl
  | lea | csel =>
    exact readBack_encA rfl wf fun w funct hd ha hb last => by rw [decodeScalar, funct, hd, ha, hb.1, last.1]; rfl
  | clz | ctz | popc | brev | bswap =>
    exact readBack_encA rfl wf fun w funct hd ha hb last => by rw [decodeScalar, funct, hd, ha, hb.2, last.2]; rfl
  | addi | andi | ori | xori | slti | sltni | movhi | shli | shri | srai =>
    exact readBack_encI rfl wf fun w fields => by simp [decodeWord, fields]
  | bext d a len1 pos =>
    have enc : encode (.bext d a len1 pos) = [encI 0x0e d a (0 * 4096 + (len1.val * 64 + pos.val))] := by
      rw [Nat.zero_mul, Nat.zero_add]; rfl
    exact readBack_code enc wf fun w fields => by simp [decodeWord_group, decodeBits, extentOperand, fields]
  | bins d a len1 pos =>
    have enc : encode (.bins d a len1 pos) = [encI 0x0e d a (1 * 4096 + (len1.val * 64 + pos.val))] := by
      rw [← Nat.add_assoc]; rfl
    exact readBack_code enc wf fun w fields => by simp [decodeWord_group, decodeBits, extentOperand, fields]
  | ld | ldn | st | gld | gldn | gst =>
    exact readBack_encM rfl wf fun w fields => by simp [decodeWord, fields]
  | b | bl =>
    exact readBack_encJ rfl wf fun w fields => by simp [decodeWord, fields]
  | beq a b _ | bne a b _ | blt a b _ | bge a b _ =>
    exact readBack_encB rfl wf fun w fields => by simp [decodeWord, decodeBranch, (of_decide_eq_true wf : a ≠ b), fields]
  | bltn | bgen =>
    exact readBack_encB rfl wf fun w fields => by simp [decodeWord, fields]
  | jr | jlr | bmany | bmnone =>
    exact readBack_encB rfl wf fun w fields => by simp [decodeWord, decodeBranch, fields]
  | nop =>
    exact readBack_code (code := 0) (x := 0) rfl wf fun w fields => by simp [decodeWord_group, decodeSystem, fields]
  | trap | sysc | brk | mfs | mts | query =>
    exact readBack_code rfl wf fun w fields => by simp [decodeWord_group, decodeSystem, fields]
  | eret =>
    exact readBack_code (code := 4) (x := 0) rfl wf fun w fields => by simp [decodeWord_group, decodeSystem, fields]
  | idle =>
    exact readBack_code (code := 5) (x := 0) rfl wf fun w fields => by simp [decodeWord_group, decodeSystem, fields]
  | tlbinv =>
    exact readBack_code (code := 9) (x := 0) rfl wf fun w fields => by simp [decodeWord_group, decodeSystem, fields]
  | tlbinvAll =>
    exact readBack_code (code := 9) (x := 1) rfl wf fun w fields => by simp [decodeWord_group, decodeSystem, allOperand, fields]
  | addl _ _ imm =>
    exact readBack_pair (imm := imm) (code := 0) rfl fun h t major code hd ha value => by
      simp [decodePair, major, code, hd, ha, value, settle_wf t wf]
  | catl _ _ imm =>
    exact readBack_pair (imm := imm) (code := 1) rfl fun h t major code hd ha value => by
      simp [decodePair, major, code, hd, ha, value, settle_wf t wf]
  | wait ld st cp mx ms =>
    exact readBack_wait ld st cp mx ms
  | vaddF | vsubF | vmulF | vdivF | vfma | vfms | vfnma | vminF | vmaxF | vabsF | vnegF | vsqrt | vrcp | vrsq | vexp2 | vlog2
  | vtanh =>
    exact readBack_encV rfl wf fun w fields => by simp [decodeWord_group, decodeV20, fields]
  | vaddI _ _ _ _ t | vsubI _ _ _ _ t | vmulI _ _ _ _ t | vminI _ _ _ _ t | vmaxI _ _ _ _ t =>
    exact readBack_encV rfl (ht := t.code_lt) wf fun w fields => by simp [decodeWord_group, decodeV21, fields]
  | vand | vor | vxor | vshl | vshr | vsra =>
    exact readBack_encV rfl wf fun w fields => by simp [decodeWord_group, decodeV21, fields]
  | vcmpEqF | vcmpNeF | vcmpLtF | vcmpLeF | vcmpUnF | vsel =>
    exact readBack_encV rfl wf fun w fields => by simp [decodeWord_group, decodeV22, fields]
  | vcmpEqI _ _ _ _ t | vcmpNeI _ _ _ _ t | vcmpLtI _ _ _ _ t | vcmpLeI _ _ _ _ t =>
    exact readBack_encV rfl (ht := t.code_lt) wf fun w fields => by simp [decodeWord_group, decodeV22, fields]
  | vbcast | vmovs | vins | vshuf | vslide | vrng =>
    exact readBack_encV rfl wf fun w fields => by simp [decodeWord_group, decodeV23, fields]
  | vredsumF =>
    exact readBack_encV rfl wf fun w fields => by simp [decodeWord_group, decodeV24, fields]
  | vredmax _ _ _ t | vredsumI _ _ _ t =>
    exact readBack_encV rfl (ht := t.code_lt) wf fun w fields => by simp [decodeWord_group, decodeV24, fields]
  | vcvt _ _ _ src dst =>
    exact readBack_encV rfl (hb := src.code_lt.trans (by decide)) (ht := dst.code_lt) wf
      fun w fields => by simp [decodeWord_group, decodeV24, fields]
  | vpackLb _ _ f _ | vunpkLb _ _ f _ =>
    exact readBack_encV rfl (hb := f.code_lt.trans (by decide)) wf fun w fields => by simp [decodeWord_group, decodeV24, fields]
  | vld _ _ _ t | vst _ _ _ t | vlds _ _ _ _ t | vsts _ _ _ _ t | vldg _ _ _ _ t | vstg _ _ _ _ t | vldx _ _ _ _ t
  | vgld _ _ _ t | vgst _ _ _ t =>
    exact readBack_encV rfl (ht := t.code_lt) wf fun w fields => by simp [decodeWord_group, decodeV26, fields]
  | mand | mor | mxor | mnot | mpop | mfirst | mset | mlane | vsetvl =>
    exact readBack_encV rfl wf fun w fields => by simp [decodeWord_group, decodeV28, fields]
  | mcfg | mloadb | mzero | mma | mmat | mswap | mjoin | mleave =>
    exact readBack_encE rfl wf fun w fields => by simp [decodeWord_group, decodeE30, fields]
  | macc2s _ _ clr f =>
    exact readBack_encE rfl (ho := (numberOptions clr f.code_lt).1) wf
      fun w fields => by simp [decodeWord_group, decodeE30, numberOptions clr f.code_lt, fields]
  | ms2acc _ _ f =>
    exact readBack_encE rfl (ho := f.code_lt.trans (by decide)) wf fun w fields => by simp [decodeWord_group, decodeE30, fields]
  | shdef | shfree | shrdy | shset =>
    exact readBack_encE rfl wf fun w fields => by simp [decodeWord_group, decodeE31, fields]
  | shstat _ _ word1 =>
    exact readBack_encE rfl (ho := (flagOption word1).1) wf fun w fields => by simp [decodeWord_group, decodeE31, flagOption, fields]
  | cpin _ _ sc acq xp | cpdeal _ _ sc acq xp =>
    exact readBack_encE rfl (ho := (fillOptions sc acq xp).1) wf
      fun w fields => by simp [decodeWord_group, decodeE32, fillOptions, fields]
  | cpout _ _ sc rel =>
    exact readBack_encE rfl (ho := (drainOptions sc rel).1) wf fun w fields => by simp [decodeWord_group, decodeE32, drainOptions, fields]
  | cpt _ _ xp =>
    exact readBack_encE rfl (ho := (transferOption xp).1) wf fun w fields => by simp [decodeWord_group, decodeE32, transferOption, fields]
  | send _ _ sc rel | sendv _ _ sc rel | callat _ _ sc rel =>
    exact readBack_encE rfl (ho := (scopeOptions sc rel).1) wf fun w fields => by simp [decodeWord_group, decodeE36, scopeOptions, fields]
  | bind | unbind | chmask | inskip =>
    exact readBack_encE rfl wf fun w fields => by simp [decodeWord_group, decodeE36, fields]
  | done _ fin keep =>
    exact readBack_encE rfl (ho := (flagOptions fin keep).1) wf fun w fields => by simp [decodeWord_group, decodeE36, flagOptions, fields]
  | inrd _ _ cur =>
    exact readBack_encE rfl (ho := (flagOption cur).1) wf fun w fields => by simp [decodeWord_group, decodeE36, flagOption, fields]
  | cadd _ _ sc rel =>
    exact readBack_encE rfl (ho := (scopeOptions sc rel).1) wf fun w fields => by simp [decodeWord_group, decodeE37, scopeOptions, fields]
  | cwait _ _ sc acq nopend texp =>
    exact readBack_encE rfl (ho := (waitOptions sc acq nopend texp).1) wf
      fun w fields => by simp [decodeWord_group, decodeE37, waitOptions, fields]
  | crd _ _ pend =>
    exact readBack_encE rfl (ho := (flagOption pend).1) wf fun w fields => by simp [decodeWord_group, decodeE37, flagOption, fields]
  | cexp | cset =>
    exact readBack_encE rfl wf fun w fields => by simp [decodeWord_group, decodeE37, fields]
  | axchg _ _ dw | aadd _ _ dw =>
    exact readBack_encE rfl (ho := (atomicOptions dw).1) wf
      fun w fields => by simp [decodeWord_group, decodeE38, atomicOptions dw, fields]
  | acas _ _ c dw =>
    exact readBack_encE rfl (ho := (compareOptions dw c).1) wf
      fun w fields => by simp [decodeWord_group, decodeE38, compareOptions dw c, fields]
  | amin _ _ dw nat | amax _ _ dw nat =>
    exact readBack_encE rfl (ho := (orderOptions dw nat).1) wf
      fun w fields => by simp [decodeWord_group, decodeE38, orderOptions dw nat, fields]
  | radd _ _ t | rmin _ _ t | rmax _ _ t =>
    exact readBack_encE rfl (ho := t.code_lt.trans (by decide)) wf fun w fields => by simp [decodeWord_group, decodeE39, fields]
  | rseal =>
    exact readBack_encE rfl wf fun w fields => by simp [decodeWord_group, decodeE39, fields]
  | handover handle _ _ read =>
    exact readBack_encE rfl (ho := (numberOptions read handle.isLt).1) wf
      fun w fields => by simp [decodeWord_group, decodeE3a, numberOptions read handle.isLt, fields]
  | hset =>
    exact readBack_encE rfl wf fun w fields => by simp [decodeWord_group, decodeE3a, fields]
  | fence acq rel sc hs =>
    exact readBack_encE rfl (ha := (fenceOperand acq rel sc).1) wf
      fun w fields => by simp [decodeWord_group, decodeE3a, fenceOperand, fld_of_lt 2 hs.isLt, fields]
  | fencea acq rel sc =>
    exact readBack_encE rfl (ha := (fenceOperand acq rel sc).1) wf
      fun w fields => by simp [decodeWord_group, decodeE3a, fenceOperand, fields]
  | gstop | gresume =>
    exact readBack_encE rfl wf fun w fields => by simp [decodeWord_group, decodeE3b, fields]
  | _ => cases word

end

end Sys2Proof

open Sys2Proof

/-- Settles O57: each format gives back its fields, and each row of the encoding tables then its instruction. -/
theorem roundTrip : Obligations.RoundTrip := fun i rest word wf => i.readBack word wf rest
end

section
/-! SUPPORT. The words that the chapter on encoding writes out (03 after R85, R64 to R77, R164). -/

namespace Sys2Proof

/-- The word that encodes an instruction decodes to it. -/
theorem decode_of_encode {i : Instr} {w : Nat} (enc : encode i = [w]) (word : i.isWord = true) (wf : i.wf = true) :
    decode (bytesOfWord w) = .ok (i, []) := by
  have back := i.readBack word wf []
  rwa [encodeBytes, enc, List.flatMap_singleton, List.append_nil] at back

/-- The two words of a pair decode to it. -/
theorem decode_of_encode_pair {i : Instr} {h t : Nat} (enc : encode i = [h, t]) (word : i.isWord = true) (wf : i.wf = true) :
    decode (bytesOfWord h ++ bytesOfWord t) = .ok (i, []) := by
  have back := i.readBack word wf []
  rwa [encodeBytes, enc, List.flatMap_cons, List.flatMap_singleton, List.append_nil] at back

end Sys2Proof

open Sys2Proof

/-- Settles O56: each word encodes its instruction, which it then decodes to; the last one is a TAIL that stands alone. -/
theorem decodeWords : Obligations.DecodeWords :=
  ⟨decode_of_encode rfl rfl rfl, decode_of_encode rfl rfl rfl, decode_of_encode rfl rfl rfl, decode_of_encode rfl rfl rfl,
    decode_of_encode rfl rfl rfl, decode_of_encode rfl rfl rfl, decode_of_encode rfl rfl rfl, decode_of_encode rfl rfl rfl,
    decode_of_encode rfl rfl rfl, decode_of_encode rfl rfl rfl, decode_of_encode_pair rfl rfl rfl, rfl⟩
end

section
/-! SUPPORT. The two cycles of a long-immediate pair (R77, R78, R100, R242). -/

namespace Sys2Proof.Machine

/-- ADDL adds the immediate as a signed number (R100). -/
theorem addl_value (x : Word) (imm : BitVec 36) : x + imm.signExtend 64 = BitVec.ofInt 64 (x.toInt + imm.toInt) := by
  rw [BitVec.ofInt_add, BitVec.ofInt_toInt, BitVec.signExtend]

/-- CATL puts 28 bits below those of ga (R100). -/
theorem catl_value (x : Word) (imm : BitVec 36) :
    x <<< 28 + (imm.truncate 28 : BitVec 28).zeroExtend 64 = BitVec.ofNat 64 (x.toNat * 2 ^ 28 + imm.toNat % 2 ^ 28) := by
  refine BitVec.eq_of_toNat_eq ?_
  have small : imm.toNat % 2 ^ 28 % 2 ^ 64 = imm.toNat % 2 ^ 28 := by omega
  simp only [BitVec.truncate_eq_setWidth, BitVec.toNat_add, BitVec.toNat_shiftLeft, BitVec.toNat_setWidth, BitVec.toNat_ofNat,
    Nat.shiftLeft_eq, small, Nat.mod_add_mod]

theorem pairsIssue : PairsIssue := by
  intro s d a imm
  constructor
  · rw [← addl_value]
    exact pairOp_next (f := fun x => x + imm.signExtend 64)
  · rw [← catl_value]
    exact pairOp_next (f := fun x => x <<< 28 + (imm.truncate 28 : BitVec 28).zeroExtend 64)

/-- The cycle of the TAIL writes gd (R242). -/
theorem Tile.pairTail_writes (t : Tile) (d : GReg) (x : Word) : (t.pairTail d x).Has d x ∧ t.SameRegs (t.pairTail d x) [d] ∧
    t.pairTail d x = { t with regs := (t.pairTail d x).regs, iss := { t.iss with tail := none, stall := none } } := by
  refine ⟨t.g_setG_same d x, t.sameRegs_setG d x, ?_⟩
  have regs : t.setG d x = { t with regs := (t.setG d x).regs } := t.onlyRegs_setG d x
  unfold Tile.pairTail
  rw [regs]

/-- A tile with a result that waits plans the TAIL where the cycle is an allowed fetch slot, and else stalls (R249). -/
theorem Tile.plan_tail {t : Tile} {d : GReg} {x : Word} (draw : Nat) (counts : t.counts = true) (going : t.iss.ending = false)
    (tail : t.iss.tail = some (d, x)) : t.plan draw = if t.slotAllowed then .tail d x else .stall 2 := by
  simp [Tile.plan, counts, going, tail]

theorem tailWrites : TailWrites := by
  intro s s' rest d x t off turns noStep noDuty start counts going tail
  have change : execStepChange { s with turns := rest } = .next { s with turns := rest } := by simp [execStepChange, noStep]
  have duty : execFetchdutyUpdate { s with turns := rest } = .next { s with turns := rest } := by simp [execFetchdutyUpdate, noDuty]
  have turn : step s = tileTurn { s with turns := rest } := by
    rw [step, off, turns]
    rfl
  constructor
  · intro slot
    have plan : s'.tile.plan s'.drawn = .tail d x := (Tile.plan_tail s'.drawn counts going tail).trans (if_pos slot)
    obtain ⟨has, same, rest⟩ := s'.tile.pairTail_writes d x
    refine ⟨s'.upd fun t => t.pairTail d x, ?_, rfl, rest, has, same⟩
    rw [turn, tileTurn]
    simp only [change, duty, start, Out.andThen, plan]
  · intro slot
    have plan : s'.tile.plan s'.drawn = .stall 2 := (Tile.plan_tail s'.drawn counts going tail).trans (if_neg (by simp [slot, t]))
    rw [turn, tileTurn]
    simp only [change, duty, start, Out.andThen, plan, if_true, s'.noteAcquire_of_tail tail]

end Sys2Proof.Machine

open Sys2Proof Sys2Proof.Machine

/-- Settles O7: the HEAD by the one lemma about pairs, the TAIL by what the tile plans for its cycle. -/
theorem longImmediates : Obligations.LongImmediates := ⟨pairsIssue, tailWrites⟩
end

section
/-! SUPPORT. Commands of the control window (R381): how one runs, and what firmware's reads of HBM leave alone (R385). -/

namespace Sys2Proof.Machine

/-! ## The command buffer -/

/-- A command of a number, of which no unused byte is set, runs (R381). -/
theorem command_runs {s : State} {n : Nat} {used : List (Nat × Nat)} (h : Commands s n used) (f : State → State) :
    s.command n used f = .next (f s) := by
  obtain ⟨run, number, zero⟩ := h
  have clean : (((List.range 64).filter fun k => !((0, 1) :: used).any fun u => decide (u.1 ≤ k ∧ k < u.1 + u.2)).any fun k =>
      decide (s.cmdField k 1 ≠ 0)) = false := by
    rw [List.any_eq_false]
    intro k hk
    obtain ⟨below, unused⟩ := List.mem_filter.mp hk
    simp only [List.any_cons, Bool.not_or, Bool.and_eq_true, Bool.not_eq_true', decide_eq_false_iff_not, List.any_eq_false,
      decide_eq_true_eq] at unused
    obtain ⟨first, others⟩ := unused
    rw [zero k (by omega) (List.mem_range.mp below) fun u hu => by have := others u hu; omega]
    simp
  rw [State.command, run, number]
  simp only [clean]
  simp

theorem State.cmdEnd_ended (s : State) (status result : Nat) : Ended (s.cmdEnd status result) status result := ⟨rfl, rfl, rfl⟩

@[simp] theorem State.cmdEnd_part (s : State) (status result p : Nat) : (s.cmdEnd status result).part p = s.part p := rfl

/-! ## What a read of HBM leaves alone -/

/-- Only what firmware counts of errors may change. -/
def State.OnlyCounts (s t : State) : Prop := t = { s with svc := t.svc }

theorem State.OnlyCounts.trans {s t u : State} (h : s.OnlyCounts t) (k : t.OnlyCounts u) : s.OnlyCounts u := by
  unfold State.OnlyCounts at *
  rw [k, h]

theorem State.onlyCounts_meetHbm (s : State) (ws : List Nat) : s.OnlyCounts (s.meetHbm ws) :=
  foldl_rel (r := State.OnlyCounts) (fun _ => rfl) State.OnlyCounts.trans (fun s w => (rfl : s.OnlyCounts (s.attUnc (stackOf (8 * w))))) _ s

theorem State.onlyCounts_walkMeets (s : State) (a : Nat) (vas : List Nat) : s.OnlyCounts (s.walkMeets a vas) := (s.walkMeets_svc a vas).1

theorem State.onlyCounts_hdmMeet (s : State) (part off n : Nat) : s.OnlyCounts (s.hdmMeet part off n) :=
  (s.onlyCounts_walkMeets ..).trans (State.onlyCounts_meetHbm ..)

/-! ## PREPARE_IMAGE and DROP_IMAGE -/

section
variable {s : State}

/-- PREPARE_IMAGE of an object that it reads, where a handle is free (R88, R381). -/
theorem prepareImage_done {o : List Byte} {h : Nat} (cmd : Commands s 1 [(2, 2), (4, 2), (8, 8), (16, 4)]) (inside : s.cmdField 2 2 < 64)
    (aligned : s.cmdField 8 8 % 64 = 0) (mine : ∃ e, s.asid (s.cmdField 4 2) = some e ∧ e.part = s.cmdField 2 2)
    (read : s.hdmRead (s.cmdField 2 2) (s.cmdField 8 8) (s.cmdField 16 4) = some o) (free : s.freeHandle (s.cmdField 2 2) = some h) :
    (∀ i, loadObject (s.part (s.cmdField 2 2)).gov (s.cmdField 4 2) h o = .ok i → ∃ u, exec .prepareImage s = .next u ∧ Ended u 0 h ∧
      (u.part (s.cmdField 2 2)).images = (s.part (s.cmdField 2 2)).images ++ [i]) ∧
    (∀ why, loadObject (s.part (s.cmdField 2 2)).gov (s.cmdField 4 2) h o = .error why → ∃ u, exec .prepareImage s = .next u ∧
      Ended u 4 why ∧ u.parts = s.parts) := by
  obtain ⟨e, entry, owner⟩ := mine
  obtain ⟨t, met⟩ : ∃ t, s.hdmMeet (s.cmdField 2 2) (s.cmdField 8 8) (s.cmdField 16 4) = t := ⟨_, rfl⟩
  have frame : s.OnlyCounts t := met ▸ s.onlyCounts_hdmMeet ..
  have handle : t.freeHandle (s.cmdField 2 2) = some h := by
    rw [frame]
    exact free
  have parts : t.parts = s.parts := by rw [frame]
  have part : t.part (s.cmdField 2 2) = s.part (s.cmdField 2 2) := by rw [State.part, parts, State.part]
  rw [show exec .prepareImage s = execPrepareImage s from rfl, execPrepareImage, command_runs cmd]
  simp only [entry, owner, inside, aligned, decide_true, and_self, if_true, read, met, handle, part]
  refine ⟨fun i loads => ?_, fun why fails => ?_⟩
  · rw [loads]
    refine ⟨_, rfl, State.cmdEnd_ended _ 0 h, ?_⟩
    rw [State.cmdEnd_part, State.part_updPart, if_pos rfl]
    show (t.part _).images ++ [i] = _
    rw [part]
  · rw [fails]
    exact ⟨_, rfl, State.cmdEnd_ended t 4 why, parts⟩

theorem dropImage_next (cmd : Commands s 2 [(2, 2), (4, 2)]) (inside : s.cmdField 2 2 < 64)
    (known : ∃ i ∈ (s.part (s.cmdField 2 2)).images, i.handle = s.cmdField 4 2) :
    exec .dropImage s = .next (if s.imageUsed (s.cmdField 2 2) (s.cmdField 4 2) then s.cmdEnd 5 0
      else (s.updPart (s.cmdField 2 2) fun p =>
        { p with images := p.images.filter fun i => decide (i.handle ≠ s.cmdField 4 2) }).cmdEnd 0 0) := by
  obtain ⟨i, hi, name⟩ := known
  have any : ((s.part (s.cmdField 2 2)).images.any fun i => decide (i.handle = s.cmdField 4 2)) = true :=
    List.any_eq_true.mpr ⟨i, hi, decide_eq_true name⟩
  rw [show exec .dropImage s = execDropImage s from rfl, execDropImage, command_runs cmd]
  simp only [any, ge_iff_le, Nat.not_le.mpr inside, Bool.not_true, Bool.false_eq_true, or_self, if_false]

theorem dropImage_done (cmd : Commands s 2 [(2, 2), (4, 2)]) (inside : s.cmdField 2 2 < 64)
    (known : ∃ i ∈ (s.part (s.cmdField 2 2)).images, i.handle = s.cmdField 4 2) :
    (s.imageUsed (s.cmdField 2 2) (s.cmdField 4 2) = true → ∃ u, exec .dropImage s = .next u ∧ Ended u 5 0 ∧ u.parts = s.parts) ∧
    (s.imageUsed (s.cmdField 2 2) (s.cmdField 4 2) = false → ∃ u, exec .dropImage s = .next u ∧ Ended u 0 0 ∧
      (u.part (s.cmdField 2 2)).images = (s.part (s.cmdField 2 2)).images.filter fun i => decide (i.handle ≠ s.cmdField 4 2)) := by
  have next := dropImage_next cmd inside known
  refine ⟨fun used => ⟨_, next.trans (by rw [if_pos used]), State.cmdEnd_ended s 5 0, rfl⟩,
    fun unused => ⟨_, next.trans (by rw [unused]; rfl), State.cmdEnd_ended _ 0 0, ?_⟩⟩
  rw [State.cmdEnd_part, State.part_updPart, if_pos rfl]

/-! ## SELECT_PLACEMENT_TABLE and COUNTERSIGN_MAP -/

theorem selectPlacementTable_done {g : Gang} (cmd : Commands s 11 [(2, 2), (4, 2)])
    (live : s.gang (s.cmdField 2 2) (s.cmdField 4 2) = some g) :
    ∃ u, exec .selectPlacementTable s = .next u ∧ Ended u 0 0 ∧ u.host.ctrl.selected = some (g.part, g.gid) := by
  rw [show exec .selectPlacementTable s = execSelectPlacementTable s from rfl, execSelectPlacementTable, command_runs cmd]
  simp only [live]
  exact ⟨_, rfl, State.cmdEnd_ended _ 0 0, rfl⟩

theorem countersignMap_done {b : List Byte} (cmd : Commands s 12 [(8, 8), (16, 4)]) (size : s.cmdField 16 4 = 30176)
    (read : s.hdmRead 0 (s.cmdField 8 8) 30176 = some b) :
    ∃ u, exec .countersignMap s = .next u ∧
      (Config.mapSignature (s.host.flash.body 1) (s.host.flash.body 2) b = true →
        Ended u 0 0 ∧ u.host.ctrl.map = 2 ∧ u.host.flash = { s.host.flash with owner := b }) ∧
      (Config.mapSignature (s.host.flash.body 1) (s.host.flash.body 2) b = false →
        Ended u 2 0 ∧ u.host.ctrl.map = s.host.ctrl.map ∧ u.host.flash = s.host.flash) := by
  have host : (s.hdmMeet 0 (s.cmdField 8 8) 30176).host = s.host := by rw [s.onlyCounts_hdmMeet 0 (s.cmdField 8 8) 30176]
  have map : (s.hdmMeet 0 (s.cmdField 8 8) 30176).host.ctrl.map = s.host.ctrl.map := by rw [host]
  have flash : (s.hdmMeet 0 (s.cmdField 8 8) 30176).host.flash = s.host.flash := by rw [host]
  rw [show exec .countersignMap s = execCountersignMap s from rfl, execCountersignMap, command_runs cmd]
  simp only [size, if_true, read, host]
  refine ⟨_, rfl, fun good => ?_, fun bad => ?_⟩
  · rw [if_pos good]
    exact ⟨State.cmdEnd_ended _ 0 0, rfl, rfl⟩
  · rw [if_neg (by rw [bad]; decide)]
    exact ⟨State.cmdEnd_ended _ 2 0, map, flash⟩

end

end Sys2Proof.Machine
end

section
/-! SUPPORT. REMOVE_GANG (R275, R276, R381): what the removal of a gang keeps of the other gangs and of the records that wait. -/

namespace Sys2Proof.Machine

/-! ## The completion records that wait, and the gangs -/

/-- The gangs are the same, and in every partition the completion records that wait. -/
def State.KeepsPosts (s t : State) : Prop := t.gangs = s.gangs ∧ ∀ p, (t.part p).compq = (s.part p).compq

theorem State.KeepsPosts.refl (s : State) : s.KeepsPosts s := ⟨rfl, fun _ => rfl⟩

theorem State.KeepsPosts.trans {s t u : State} (h : s.KeepsPosts t) (k : t.KeepsPosts u) : s.KeepsPosts u :=
  ⟨k.1.trans h.1, fun p => (k.2 p).trans (h.2 p)⟩

theorem State.KeepsPosts.of_eq {s t : State} (gangs : t.gangs = s.gangs) (parts : t.parts = s.parts) : s.KeepsPosts t :=
  ⟨gangs, fun p => by rw [State.part, parts, State.part]⟩

theorem State.KeepsPosts.foldl_mem {α : Type} {f : State → α → State} {l : List α} (step : ∀ x ∈ l, ∀ s : State, s.KeepsPosts (f s x))
    (s : State) : s.KeepsPosts (l.foldl f s) := List.foldlRecOn l f (State.KeepsPosts.refl s) fun t h x hx => h.trans (step x hx t)

theorem State.KeepsPosts.foldl {α : Type} {f : State → α → State} (step : ∀ (s : State) x, s.KeepsPosts (f s x)) (l : List α)
    (s : State) : s.KeepsPosts (l.foldl f s) := .foldl_mem (fun x _ s => step s x) s

theorem State.OnlyCounts.keepsPosts {s t : State} (h : s.OnlyCounts t) : s.KeepsPosts t := by
  rw [h]
  exact .of_eq rfl rfl

theorem State.keepsPosts_updPart (s : State) (q : Nat) {f : Part → Part} (h : ∀ x, (f x).compq = x.compq) :
    s.KeepsPosts (s.updPart q f) := by
  refine ⟨rfl, fun p => ?_⟩
  rw [State.part_updPart]
  split
  · next e => rw [h, State.part, State.part, e]
  · rfl

/-! ## Deny bits and the release of waiters -/

theorem State.keepsPosts_inject (s : State) (ref : PacketRef) (m : Bool) (src dst : Nat) : s.KeepsPosts (s.inject ref m src dst) :=
  .of_eq rfl rfl

theorem State.keepsPosts_sendDeny (s : State) (p table engine : Nat) : s.KeepsPosts (s.sendDeny p table engine) :=
  .foldl (fun s _ => s.keepsPosts_inject ..) _ s

theorem State.keepsPosts_denyStep (s : State) (p table engine : Nat) : s.KeepsPosts (s.denyStep p table engine) := by
  rw [State.denyStep]
  split_ifs
  · refine State.KeepsPosts.trans (s.keepsPosts_updPart p ?_) (State.keepsPosts_sendDeny ..)
    exact fun _ => rfl
  · refine State.KeepsPosts.trans (s.keepsPosts_updPart p ?_) (State.keepsPosts_sendDeny ..)
    exact fun _ => rfl
  · exact .refl s

theorem State.keepsPosts_denySteps (s : State) (p engine : Nat) : s.KeepsPosts (s.denySteps p engine) :=
  .foldl (fun s t => s.keepsPosts_denyStep p t engine) _ s

theorem State.keepsPosts_denyAll (s : State) (p : Nat) : s.KeepsPosts (s.denyAll p) :=
  .foldl (fun s e => s.keepsPosts_denySteps p e) _ s

theorem State.keepsPosts_updTile (s : State) (id : TileId) (f : Tile → Tile) : s.KeepsPosts (s.updTile id f) := by
  unfold State.updTile
  split <;> exact .of_eq rfl rfl

theorem State.keepsPosts_sendRelease (site : Nat) (s : State) (w : Waiter) : s.KeepsPosts (State.sendRelease site s w) := by
  unfold State.sendRelease
  split
  · exact .refl s
  · refine State.KeepsPosts.trans ?_ (State.keepsPosts_updTile ..)
    split
    · exact s.keepsPosts_inject ..
    · exact .refl s

theorem State.keepsPosts_releaseWaiters (s : State) (asid : Nat) (id : W32) (value : Word) (pend : BitVec 32) (psat : Bool) :
    s.KeepsPosts (s.releaseWaiters asid id value pend psat) := by
  refine State.KeepsPosts.trans (State.KeepsPosts.trans ?_ (State.KeepsPosts.foldl (State.keepsPosts_sendRelease _) _ _))
    (State.keepsPosts_denySteps ..)
  exact .of_eq rfl rfl

theorem State.keepsPosts_ctrRaw (s : State) (asid : Nat) (id : W32) (f : Counter → Counter) : s.KeepsPosts (s.ctrRaw asid id f) := by
  refine State.KeepsPosts.trans (State.KeepsPosts.trans ?_ (State.keepsPosts_releaseWaiters ..)) (State.keepsPosts_denySteps ..)
  exact .of_eq rfl rfl

/-! ## Records of the fault ring -/

theorem State.keepsPosts_meetHbm (s : State) (ws : List Nat) : s.KeepsPosts (s.meetHbm ws) := (s.onlyCounts_meetHbm ws).keepsPosts

theorem State.keepsPosts_walkMeets (s : State) (a : Nat) (vas : List Nat) : s.KeepsPosts (s.walkMeets a vas) :=
  (s.onlyCounts_walkMeets a vas).keepsPosts

theorem State.keepsPosts_writeHbm (s : State) (pa : Nat) (data : List (Option Byte)) (skip : List Nat) :
    s.KeepsPosts (s.writeHbm pa data skip) := .of_eq rfl rfl

theorem State.keepsPosts_fwWrite (s : State) (a va : Nat) (data : List Byte) : s.KeepsPosts (s.fwWrite a va data) := by
  unfold State.fwWrite
  have meets := s.keepsPosts_walkMeets a [va]
  split
  · dsimp only
    split
    · exact meets
    · exact (meets.trans (State.keepsPosts_meetHbm ..)).trans (State.keepsPosts_writeHbm ..)
  · exact meets

theorem State.keepsPosts_faultIndex (s : State) (a : Nat) : s.KeepsPosts (s.faultIndex a).2 := .of_eq rfl rfl

theorem State.keepsPosts_engineMeet (s : State) (key engine : Nat) : s.KeepsPosts (s.engineMeet key engine) := .of_eq rfl rfl

theorem State.keepsPosts_putRecord (s : State) (a n : Nat) (bytes : List Byte) : s.KeepsPosts (s.putRecord a n bytes) := by
  unfold State.putRecord
  split
  · exact .refl s
  · exact (s.keepsPosts_fwWrite ..).trans (State.keepsPosts_ctrRaw ..)

/-- A record that waits where its slot is taken. -/
theorem State.keepsPosts_slot (s : State) (a n : Nat) (bytes : List Byte) :
    s.KeepsPosts (if s.slotTaken a n then { s with sync := { s.sync with waiting := s.sync.waiting ++ [⟨a, n, bytes⟩] } }
      else s.putRecord a n bytes) := by
  split
  · exact .of_eq rfl rfl
  · exact s.keepsPosts_putRecord ..

theorem State.keepsPosts_postFault (s : State) (a n : Nat) (bytes : List Byte) : s.KeepsPosts (s.postFault a n bytes) := by
  unfold State.postFault
  cases s.asid a with
  | none => exact .refl s
  | some e =>
    have met := s.keepsPosts_engineMeet (ctrKey a e.fltctr) (s.ctrEngine a e.fltctr)
    have lost := (met.trans (State.keepsPosts_ctrRaw _ a e.fltctr Counter.lost)).trans (State.keepsPosts_faultIndex _ a)
    dsimp only
    split
    · exact (lost.trans (State.keepsPosts_slot _ a _ _)).trans (State.keepsPosts_putRecord _ a n bytes)
    · exact s.keepsPosts_putRecord ..

theorem State.keepsPosts_ringRecord (s : State) (a n : Nat) (bytes : List Byte) : s.KeepsPosts (s.ringRecord a n bytes) := by
  unfold State.ringRecord
  split
  · exact .of_eq rfl rfl
  · exact s.keepsPosts_postFault ..

theorem State.keepsPosts_flushRecords (s : State) : s.KeepsPosts s.flushRecords :=
  State.KeepsPosts.trans (t := { s with sync := { s.sync with waiting := [] } }) (.of_eq rfl rfl)
    (.foldl (fun s _ => s.keepsPosts_ringRecord ..) _ _)

theorem State.keepsPosts_engineError (s : State) (asid gid key engine va : Nat) : s.KeepsPosts (s.engineError asid gid key engine va) :=
  ((s.keepsPosts_engineMeet key engine).trans (State.keepsPosts_faultIndex _ asid)).trans (State.keepsPosts_ringRecord ..)

/-! ## The global writes of a gang that goes -/

theorem State.keepsPosts_setLine (s : State) (pa n x : Nat) : s.KeepsPosts (s.setLine pa n x) := .of_eq rfl rfl

theorem State.keepsPosts_bringLine (s : State) (asid va pa : Nat) : s.KeepsPosts (s.bringLine asid va pa) := by
  unfold State.bringLine
  dsimp only
  split
  · exact .refl s
  · refine State.KeepsPosts.trans (State.KeepsPosts.trans ?_ (State.keepsPosts_meetHbm ..)) (State.keepsPosts_denySteps ..)
    exact .of_eq rfl rfl

theorem State.keepsPosts_lineMeet (s : State) (asid gid va pa : Nat) : s.KeepsPosts (s.lineMeet asid gid va pa) := by
  unfold State.lineMeet
  split
  · exact (s.keepsPosts_engineError ..).trans (State.keepsPosts_setLine ..)
  · exact .refl s

theorem State.keepsPosts_applyAt (s : State) (h : Hold) (pa : Nat) : s.KeepsPosts (s.applyAt h pa) :=
  ((s.keepsPosts_bringLine ..).trans (State.keepsPosts_lineMeet ..)).trans (State.keepsPosts_setLine ..)

theorem State.keepsPosts_finishRed (s : State) (h : Hold) : s.KeepsPosts (s.finishRed h) := by
  have meets : s.KeepsPosts (s.redMeet h) := s.keepsPosts_walkMeets ..
  unfold State.finishRed
  split
  · exact meets.trans (State.keepsPosts_applyAt ..)
  · exact meets

theorem State.keepsPosts_finishStore (o : OutStore) (s : State) : s.KeepsPosts (State.finishStore o s) := by
  refine State.KeepsPosts.foldl (fun s e => ?_) _ s
  split
  · exact .refl s
  · exact s.keepsPosts_writeHbm ..

theorem State.keepsPosts_finishCopy (c : OutCopy) (s : State) : s.KeepsPosts (State.finishCopy c s) := by
  unfold State.finishCopy
  split
  · exact .foldl (fun s _ => s.keepsPosts_writeHbm ..) _ s
  · exact .refl s

theorem State.keepsPosts_finishAtomic (asid : Nat) (o : OutLoad) (s : State) : s.KeepsPosts (State.finishAtomic asid o s) := by
  unfold State.finishAtomic
  split
  · dsimp only
    split
    · exact .refl s
    · exact (s.keepsPosts_bringLine ..).trans (State.keepsPosts_setLine ..)
  · exact .refl s

theorem State.keepsPosts_finishMs (asid : Nat) (id : TileId) (o : MsOp) (s : State) : s.KeepsPosts (State.finishMs asid id o s) := by
  unfold State.finishMs
  split
  · split
    · exact .refl s
    · exact s.keepsPosts_finishRed _
  all_goals exact .refl s

theorem State.keepsPosts_finishWrites (s : State) (t : Tile) : s.KeepsPosts (s.finishWrites t) := by
  refine State.KeepsPosts.foldl_mem (fun x hx s => ?_) s
  simp only [mem_sortList, List.mem_append, List.mem_map] at hx
  obtain ((⟨o, -, rfl⟩ | ⟨c, -, rfl⟩) | ⟨o, -, rfl⟩) | ⟨o, -, rfl⟩ := hx
  · exact s.keepsPosts_finishStore o
  · exact s.keepsPosts_finishCopy c
  · exact s.keepsPosts_finishAtomic _ o
  · exact s.keepsPosts_finishMs _ _ o

theorem State.keepsPosts_finishGang (s : State) (part gid : Nat) : s.KeepsPosts (s.finishGang part gid) :=
  (State.KeepsPosts.foldl State.keepsPosts_finishWrites _ s).trans (.foldl State.keepsPosts_finishRed _ _)

/-! ## What the state holds of a gang that goes -/

theorem State.keepsPosts_leaveSite (s : State) (t : Tile) : s.KeepsPosts (s.leaveSite t) := by
  unfold State.leaveSite
  split <;> exact .of_eq rfl rfl

theorem State.keepsPosts_mailError (s : State) (port part : Nat) (aer : Bool) : s.KeepsPosts (s.mailError port part aer) := by
  refine State.KeepsPosts.trans (s.keepsPosts_updPart part (f := fun p => { p with mberr := p.mberr + 1 }) ?_) (.of_eq rfl rfl)
  exact fun _ => rfl

theorem State.keepsPosts_dropMail (s : State) (part gid : Nat) : s.KeepsPosts (s.dropMail part gid) := by
  refine State.KeepsPosts.trans (s.keepsPosts_updPart part ?_) (.foldl (fun s _ => s.keepsPosts_mailError ..) _ _)
  exact fun _ => rfl

/-- A gang that goes is no longer among the gangs, and the completion records that wait stay (R275). -/
theorem State.dropGang_posts (s : State) (part gid : Nat) :
    (s.dropGang part gid).gangs = s.gangs.filter (fun g => !decide (g.part = part ∧ g.gid = gid)) ∧
      ∀ p, ((s.dropGang part gid).part p).compq = (s.part p).compq := by
  obtain ⟨gangs, posts⟩ := (State.KeepsPosts.foldl State.keepsPosts_leaveSite (s.tilesOf part gid) s).trans
    (State.keepsPosts_dropMail _ part gid)
  unfold State.dropGang
  obtain ⟨gangs', posts'⟩ := State.KeepsPosts.trans (State.keepsPosts_denyAll _ _) (State.keepsPosts_flushRecords _)
  refine ⟨gangs'.trans ?_, fun p => (posts' p).trans (posts p)⟩
  exact congrArg _ gangs

theorem State.gang_filter (s : State) (part gid : Nat) :
    (s.gangs.filter fun g => !decide (g.part = part ∧ g.gid = gid)).find? (fun g => decide (g.part = part ∧ g.gid = gid)) = none := by
  rw [List.find?_eq_none]
  intro g hg
  simpa only [Bool.not_eq_true', Bool.not_eq_true] using (List.mem_filter.mp hg).2

end Sys2Proof.Machine
end

section
/-! SUPPORT. The completion record of a gang that is removed (R276), the removal (R275), and the assignment of an ASID (R336, R341). -/

namespace Sys2Proof.Machine

/-! ## Completion records -/

/-- The bytes of a number keep what fits in them. -/
theorem ofBytes_toBytes_mod (x n : Nat) : ofBytes (toBytes x n) = x % 2 ^ (8 * n) := by
  induction n generalizing x with
  | zero => simp [toBytes, ofBytes, Nat.mod_one]
  | succ n ih =>
    rw [toBytes, ofBytes, ih, BitVec.toNat_ofNat, show 8 * (n + 1) = 8 + 8 * n by ring, pow_add, ← Nat.mod_mul]

/-- The first field of a record. -/
theorem fieldAt_toBytes (x n : Nat) (r : List Byte) : fieldAt (toBytes x n ++ r) 0 n = x % 2 ^ (8 * n) := by
  rw [fieldAt, List.drop_zero, List.take_left' (toBytes_length x n), ofBytes_toBytes_mod]

/-- A later field of a record. -/
theorem fieldAt_after (x n k m : Nat) (r : List Byte) : fieldAt (toBytes x n ++ r) (n + k) m = fieldAt r k m := by
  rw [fieldAt, List.drop_append, toBytes_length, Nat.add_sub_cancel_left, List.drop_eq_nil_of_le (by rw [toBytes_length]; omega),
    List.nil_append, fieldAt]

/-- A completion record holds what it is made of (R276). -/
theorem compRecord_isRecord (tag gid status dstat late : Nat) :
    IsRecord (compRecord tag gid status dstat late) tag gid status dstat late := by
  have tail : fieldAt (toBytes (min late (2 ^ 32 - 1)) 4) 0 4 = min late (2 ^ 32 - 1) := by
    have first := fieldAt_toBytes (min late (2 ^ 32 - 1)) 4 []
    rw [List.append_nil] at first
    rw [first]
    omega
  have parts : compRecord tag gid status dstat late =
      toBytes tag 2 ++ (toBytes gid 2 ++ (toBytes status 4 ++ (toBytes dstat 4 ++ toBytes (min late (2 ^ 32 - 1)) 4))) := by
    simp only [compRecord, List.append_assoc]
  rw [parts]
  refine ⟨by simp only [List.length_append, toBytes_length], fieldAt_toBytes .., ?_, ?_, ?_, ?_⟩
  · rw [fieldAt_after _ 2 0, fieldAt_toBytes]
  · rw [fieldAt_after _ 2 2, fieldAt_after _ 2 0, fieldAt_toBytes]
  · rw [fieldAt_after _ 2 6, fieldAt_after _ 2 4, fieldAt_after _ 4 0, fieldAt_toBytes]
  · rw [fieldAt_after _ 2 10, fieldAt_after _ 2 8, fieldAt_after _ 4 4, fieldAt_after _ 4 0, tail]

/-! ## REMOVE_GANG -/

section
variable {s : State} {g : Gang} {part gid : Nat}

/-- The gang that a name finds bears it. -/
theorem State.gang_named (h : s.gang part gid = some g) : g.part = part ∧ g.gid = gid := by
  rw [State.gang] at h
  simpa using List.find?_some h

theorem State.updPart_gang (s : State) (q : Nat) (f : Part → Part) (part gid : Nat) : (s.updPart q f).gang part gid = s.gang part gid := rfl

/-- A gang that is removed is gone, and its completion record waits behind the others of its partition (R275). -/
theorem State.killGang_posts (h : s.gang part gid = some g) :
    (s.killGang part gid).gang part gid = none ∧ ((s.killGang part gid).part part).compq = (s.part part).compq ++
      [⟨compRecord g.tag.toNat gid 0 (8 + (if s.lateOf g = 0 then 0 else 4) + (if g.redLost then 2 else 0)) (s.lateOf g), g.image.asid,
        g.donectr⟩] := by
  obtain ⟨-, finished⟩ := s.keepsPosts_finishGang part gid
  obtain ⟨gangs, dropped⟩ := (s.finishGang part gid).dropGang_posts part gid
  rw [State.killGang, h]
  constructor
  · rw [State.updPart_gang, State.gang, gangs]
    exact State.gang_filter _ part gid
  · rw [State.part_updPart, if_pos rfl]
    simp only [dropped, finished]

theorem removeGang_done (cmd : Commands s 3 [(2, 2), (4, 2)]) (h : s.gang (s.cmdField 2 2) (s.cmdField 4 2) = some g) :
    ∃ u b, exec .removeGang s = .next u ∧ Ended u 0 0 ∧ u.gang (s.cmdField 2 2) (s.cmdField 4 2) = none ∧
      (u.part (s.cmdField 2 2)).compq = (s.part (s.cmdField 2 2)).compq ++ [⟨b, g.image.asid, g.donectr⟩] ∧
      IsRecord b g.tag.toNat (s.cmdField 4 2) 0 (8 + (if s.lateOf g = 0 then 0 else 4) + (if g.redLost then 2 else 0)) (s.lateOf g) := by
  obtain ⟨part, gid⟩ := State.gang_named h
  obtain ⟨gone, posts⟩ := State.killGang_posts h
  refine ⟨(s.killGang (s.cmdField 2 2) (s.cmdField 4 2)).cmdEnd 0 0, _, ?_, State.cmdEnd_ended _ 0 0, gone, posts, compRecord_isRecord ..⟩
  rw [show exec .removeGang s = execRemoveGang s from rfl, execRemoveGang, command_runs cmd]
  simp only [h, part, gid]

end

/-! ## ASSIGN_ASID -/

theorem State.takeFrames_asids (s : State) (owner n : Nat) : (s.takeFrames owner n).2.mem.asids = s.mem.asids := by
  unfold State.takeFrames
  split <;> rfl

theorem State.mapIn_asids (va level entry : Nat) (l : List (Nat × Nat × Nat)) :
    ∀ (s : State) (table : Nat), (s.mapIn va level entry table l).mem.asids = s.mem.asids := by
  induction l with
  | nil => exact fun _ _ => rfl
  | cons x rest ih =>
    intro s table
    obtain ⟨lo, w, lv⟩ := x
    have met (ws : List Nat) : (s.meetHbm ws).mem.asids = s.mem.asids := by rw [s.onlyCounts_meetHbm ws]
    unfold State.mapIn
    dsimp only
    split
    · rfl
    · have frames : ((s.meetHbm [(table + 8 * (va / 2 ^ lo % 2 ^ w)) / 8]).takeFrames firmwareOwner 1).2.mem.asids = s.mem.asids :=
        (State.takeFrames_asids ..).trans (met _)
      split
      · exact (ih _ _).trans (met _)
      · split
        · next taken =>
          rw [taken] at frames
          exact (ih _ _).trans frames
        · next taken =>
          rw [taken] at frames
          exact frames

theorem State.mapPage_asids (s : State) (asid va frame : Nat) (big : Bool) (mode owner perms : Nat) :
    (s.mapPage asid va frame big mode owner perms).mem.asids = s.mem.asids := by
  unfold State.mapPage
  split
  · exact State.mapIn_asids ..
  · rfl

theorem State.mapFresh_asids (s : State) (asid part va : Nat) (big : Bool) (mode owner perms : Nat) :
    (s.mapFresh asid part va big mode owner perms).mem.asids = s.mem.asids := by
  have frames := s.takeFrames_asids part (if big then 512 else 1)
  unfold State.mapFresh
  split
  · next taken =>
    rw [taken] at frames
    exact (State.mapPage_asids ..).trans frames
  · next taken =>
    rw [taken] at frames
    exact frames

/-- The service area is mapped, and the ASIDs stay assigned as they are (R341). -/
theorem State.mapService_asids (s : State) (e : AsidEntry) : (s.mapService e).mem.asids = s.mem.asids := by
  simp only [State.mapService, State.mapFresh_asids]

/-- A free ASID gets its partition, its page table and its service area (R336, R341). -/
theorem assignAsid_done {s : State} (cmd : Commands s 4 [(2, 2), (4, 1), (8, 8), (16, 8), (24, 4), (28, 4), (32, 4)])
    (number : s.cmdField 2 2 ≤ 4095) (owner : s.cmdField 4 1 ≤ 63) (aligned : s.cmdField 8 8 % 4096 = 0)
    (inside : s.cmdField 8 8 < 48 * 2 ^ 36) (area : s.cmdField 16 8 % 65536 = 0) (fits : s.cmdField 16 8 + 0x30000 ≤ 2 ^ 56)
    (ctrs : ∀ k < 3, serviceCtr (s.cmdField (24 + 4 * k) 4) = true) (free : s.asid (s.cmdField 2 2) = none) :
    ∃ u, exec .assignAsid s = .next u ∧ Ended u 0 0 ∧
      u.mem.asids = s.mem.asids ++ [⟨s.cmdField 2 2, s.cmdField 4 1, s.cmdField 8 8, s.cmdField 16 8, BitVec.ofNat 32 (s.cmdField 24 4),
        BitVec.ofNat 32 (s.cmdField 28 4), BitVec.ofNat 32 (s.cmdField 32 4), 0, 0⟩] := by
  have named : ¬s.cmdField 2 2 > 4095 := by omega
  have assigns : ¬s.cmdField 4 1 = 0xFF := by omega
  have good : ¬(s.cmdField 4 1 > 63 ∨ s.cmdField 8 8 % 4096 ≠ 0 ∨ s.cmdField 8 8 ≥ 48 * 2 ^ 36 ∨ s.cmdField 16 8 % 65536 ≠ 0 ∨
      s.cmdField 16 8 + 0x30000 > 2 ^ 56 ∨ (!serviceCtr (s.cmdField (24 + 4 * 0) 4)) = true ∨
      (!serviceCtr (s.cmdField (24 + 4 * 1) 4)) = true ∨ (!serviceCtr (s.cmdField (24 + 4 * 2) 4)) = true) := by
    rw [ctrs 0 (by decide), ctrs 1 (by decide), ctrs 2 (by decide)]
    simp only [Bool.not_true, Bool.false_eq_true, or_false]
    omega
  rw [show exec .assignAsid s = execAssignAsid s from rfl, execAssignAsid, command_runs cmd]
  simp only [if_neg named, if_neg assigns, if_neg good, free, Option.isSome_none, Bool.false_eq_true, if_false]
  exact ⟨_, rfl, State.cmdEnd_ended _ 0 0, State.mapService_asids ..⟩

end Sys2Proof.Machine

open Sys2Proof Sys2Proof.Machine

/-- Settles O49: each command by its own lemma. -/
theorem commandEvents : Obligations.CommandEvents := fun _ =>
  ⟨fun _ _ cmd inside aligned mine read free => prepareImage_done cmd inside aligned mine read free,
    fun _ name cmd inside known => by
      subst name
      exact dropImage_done cmd inside known,
    fun _ _ name cmd live => by
      subst name
      exact removeGang_done cmd live,
    fun _ _ _ _ a q root svc cmd number owner aligned inside area fits ctrs free => by
      subst a q root svc
      exact assignAsid_done cmd number owner aligned inside area fits ctrs free,
    fun _ cmd live => selectPlacementTable_done cmd live,
    fun _ cmd size read => countersignMap_done cmd size read⟩
end

section
/-! SUPPORT. The scalar instructions with one result (R93, R94, R239), each given by the value that it computes of its registers. -/

namespace Sys2Proof.Machine

section
variable {s : State} {i : Instr} {d a b : GReg} {x : Word}

theorem aluResult_of_scalarOp {reads : List RegName} {f : Tile → Word} (he : exec i s = scalarOp d reads .other 1 f s)
    (hx : f s.tile = x) : AluResult s i d reads x := fun h => by
  rw [he, ← hx]
  exact scalarOp_one h

theorem aluResult_of_alu2 {f : Word → Word → Word} (he : exec i s = alu2 d a b f s) (hx : f (s.tile.g a) (s.tile.g b) = x) :
    AluResult s i d [.g a, .g b] x := aluResult_of_scalarOp (f := fun t => f (t.g a) (t.g b)) he hx

theorem aluResult_of_alu1 {f : Word → Word} (he : exec i s = alu1 d a f s) (hx : f (s.tile.g a) = x) :
    AluResult s i d [.g a] x := aluResult_of_scalarOp (f := fun t => f (t.g a)) he hx

theorem lateResult_of_mult2 {f : Word → Word → Word} (he : exec i s = mult2 d a b f s) (hx : f (s.tile.g a) (s.tile.g b) = x) :
    LateResult s i d [.g a, .g b] .other 3 x := fun h => by
  rw [he, ← hx]
  exact scalarOp_late (f := fun t => f (t.g a) (t.g b)) (by decide) h

theorem lateResult_of_divide2 {f : Word → Word → Word} (he : exec i s = divide2 d a b f s) (hx : f (s.tile.g a) (s.tile.g b) = x) :
    LateResult s i d [.g a, .g b] .divider 24 x := fun h => by
  rw [he, ← hx]
  exact scalarOp_late (f := fun t => f (t.g a) (t.g b)) (by decide) h

end

end Sys2Proof.Machine
end

section
/-! SUPPORT. Sums, shifts and comparisons as numbers (R95, R97, R98), and the statements about them. -/

namespace Sys2Proof.Machine

/-! ## Sums -/

theorem add_value (x y : Word) : x + y = BitVec.ofInt 64 (x.toInt + y.toInt) := by
  rw [BitVec.ofInt_add, BitVec.ofInt_toInt, BitVec.ofInt_toInt]

theorem sub_value (x y : Word) : x - y = BitVec.ofInt 64 (x.toInt - y.toInt) := by
  rw [Int.sub_eq_add_neg, BitVec.ofInt_add, BitVec.ofInt_neg, BitVec.ofInt_toInt, BitVec.ofInt_toInt, BitVec.sub_eq_add_neg]

/-- The low 32 bits of a number modulo 2^64 are those of the number. -/
theorem sext32_ofInt (n : Int) : sext32 (BitVec.ofInt 64 n) = (BitVec.ofInt 32 n).signExtend 64 := by
  have low : (BitVec.ofInt 64 n).setWidth 32 = BitVec.ofInt 32 n := BitVec.eq_of_toNat_eq (by
    rw [BitVec.toNat_setWidth, BitVec.toNat_ofInt, BitVec.toNat_ofInt]
    omega)
  rw [sext32, BitVec.truncate_eq_setWidth, low]

/-- A signed field, scaled by a power of two (R98, R102). -/
theorem signExtend_shiftLeft {w : Nat} (x : BitVec w) (k : Nat) : x.signExtend 64 <<< k = BitVec.ofInt 64 (x.toInt * 2 ^ k) := by
  have two : BitVec.ofInt 64 (2 ^ k) = BitVec.twoPow 64 k := by
    rw [show (2 : Int) ^ k = ((2 ^ k : Nat) : Int) by push_cast; rfl, BitVec.ofInt_natCast]
    exact BitVec.eq_of_toNat_eq (by rw [BitVec.toNat_ofNat, BitVec.toNat_twoPow])
  rw [BitVec.shiftLeft_eq_mul_twoPow, BitVec.ofInt_mul, two, BitVec.signExtend]

theorem add_signExtend {w : Nat} (x : Word) (imm : BitVec w) : x + imm.signExtend 64 = BitVec.ofInt 64 (x.toInt + imm.toInt) := by
  rw [BitVec.ofInt_add, BitVec.ofInt_toInt, BitVec.signExtend]

theorem shiftLeft_value (x : Word) (k : Nat) : x <<< k = BitVec.ofNat 64 (x.toNat * 2 ^ k) :=
  BitVec.eq_of_toNat_eq (by rw [BitVec.toNat_shiftLeft, Nat.shiftLeft_eq, BitVec.toNat_ofNat])

theorem add_shiftLeft_value (x y : Word) (k : Nat) : x + y <<< k = BitVec.ofNat 64 (x.toNat + y.toNat * 2 ^ k) := by
  rw [shiftLeft_value, BitVec.ofNat_add, BitVec.ofNat_toNat, BitVec.setWidth_eq]

/-! ## Shifts -/

theorem shiftRight_value (x : Word) (k : Nat) : x >>> k = BitVec.ofNat 64 (x.toNat / 2 ^ k) :=
  BitVec.eq_of_toNat_eq (by
    rw [BitVec.toNat_ushiftRight, Nat.shiftRight_eq_div_pow, BitVec.toNat_ofNat,
      Nat.mod_eq_of_lt (Nat.lt_of_le_of_lt (Nat.div_le_self ..) x.isLt)])

theorem sshiftRight_value (x : Word) (k : Nat) : x.sshiftRight k = BitVec.ofInt 64 (x.toInt / 2 ^ k) := by
  rw [BitVec.sshiftRight, Int.shiftRight_eq_div_pow]
  push_cast
  rfl

theorem shlW_value (x : Word) (n : Nat) : shlW x n = if n ≥ 64 then 0 else BitVec.ofNat 64 (x.toNat * 2 ^ n) := by
  rw [shlW, shiftLeft_value]

theorem shrW_value (x : Word) (n : Nat) : shrW x n = if n ≥ 64 then 0 else BitVec.ofNat 64 (x.toNat / 2 ^ n) := by
  rw [shrW, shiftRight_value]

theorem sraW_value (x : Word) (n : Nat) : sraW x n =
    if n ≥ 64 then (if x.msb then BitVec.allOnes 64 else 0) else BitVec.ofInt 64 (x.toInt / 2 ^ n) := by
  rw [sraW, sshiftRight_value]

theorem rotW_value (x y : Word) : rotW x y =
    (BitVec.ofNat 64 (x.toNat / 2 ^ (y.toNat % 64)) ||| BitVec.ofNat 64 (x.toNat * 2 ^ (64 - y.toNat % 64))) := by
  simp only [rotW, shiftRight_value, shiftLeft_value]

/-! ## Comparisons -/

theorem boolW_of_iff {c : Bool} {p : Prop} [Decidable p] (h : c = true ↔ p) : boolW c = if p then 1 else 0 := by
  rw [boolW]
  exact if_congr h rfl rfl

theorem slt_signExtend (x : Word) (imm : BitVec 16) : BitVec.slt x (imm.signExtend 64) = true ↔ x.toInt < imm.toInt := by
  rw [BitVec.slt_iff_toInt_lt, BitVec.toInt_signExtend_of_le (by decide)]

end Sys2Proof.Machine

open Sys2Proof Sys2Proof.Machine

/-- Settles O1: each sum is the number that its operands make, modulo the width of the result. -/
theorem aluSums : Obligations.AluSums := fun s d a b c imm => by
  intro x y
  refine ⟨aluResult_of_alu2 (execAdd.eq_def ..) ?add, aluResult_of_alu2 (execSub.eq_def ..) ?sub,
    aluResult_of_alu2 (execAddw.eq_def ..) ?addw, aluResult_of_alu2 (execSubw.eq_def ..) ?subw,
    aluResult_of_alu2 (execLea.eq_def ..) ?lea, aluResult_of_alu1 (execAddi.eq_def ..) ?addi,
    aluResult_of_scalarOp (execMovhi.eq_def ..) ?movhi⟩
  case add => exact add_value x y
  case sub => exact sub_value x y
  case addw => exact (congrArg sext32 (add_value x y)).trans (sext32_ofInt _)
  case subw => exact (congrArg sext32 (sub_value x y)).trans (sext32_ofInt _)
  case lea => exact add_shiftLeft_value x y c.val
  case addi => exact add_signExtend x imm
  case movhi => exact signExtend_shiftLeft imm 16

/-- Settles O2: a shift below 64 is a product or a quotient by a power of two, and the amount of an immediate form is below 64. -/
theorem aluShifts : Obligations.AluShifts := fun s d a b k => by
  intro x n
  have amount : ¬k.val ≥ 64 := Nat.not_le.mpr k.isLt
  refine ⟨aluResult_of_alu2 (execShl.eq_def ..) ?shl, aluResult_of_alu2 (execShr.eq_def ..) ?shr,
    aluResult_of_alu2 (execSra.eq_def ..) ?sra, aluResult_of_alu2 (execRotr.eq_def ..) ?rotr,
    aluResult_of_alu1 (execShli.eq_def ..) ?shli, aluResult_of_alu1 (execShri.eq_def ..) ?shri,
    aluResult_of_alu1 (execSrai.eq_def ..) ?srai⟩
  case shl => exact shlW_value x n
  case shr => exact shrW_value x n
  case sra => exact sraW_value x n
  case rotr => exact rotW_value x (s.tile.g b)
  case shli => exact (shlW_value x k).trans (if_neg amount)
  case shri => exact (shrW_value x k).trans (if_neg amount)
  case srai => exact (sraW_value x k).trans (if_neg amount)

/-- Settles O3: each comparison of words is that of the numbers that they hold. -/
theorem aluCompares : Obligations.AluCompares := fun s d a b c imm => by
  intro x y truth
  refine ⟨aluResult_of_alu2 (execMin.eq_def ..) ?min, aluResult_of_alu2 (execMax.eq_def ..) ?max,
    aluResult_of_alu2 (execMinn.eq_def ..) ?minn, aluResult_of_alu2 (execMaxn.eq_def ..) ?maxn,
    aluResult_of_alu2 (execSeq.eq_def ..) ?seq, aluResult_of_alu2 (execSne.eq_def ..) ?sne,
    aluResult_of_alu2 (execSlt.eq_def ..) ?slt, aluResult_of_alu2 (execSltn.eq_def ..) ?sltn,
    aluResult_of_alu2 (execSle.eq_def ..) ?sle, aluResult_of_alu2 (execSlen.eq_def ..) ?slen,
    aluResult_of_alu1 (execSlti.eq_def ..) ?slti, aluResult_of_alu1 (execSltni.eq_def ..) ?sltni,
    aluResult_of_scalarOp (execCsel.eq_def ..) ?csel⟩
  case min => exact if_congr BitVec.sle_iff_toInt_le rfl rfl
  case max => exact if_congr BitVec.sle_iff_toInt_le rfl rfl
  case minn => exact if_congr BitVec.le_def rfl rfl
  case maxn => exact if_congr BitVec.le_def rfl rfl
  case seq => exact boolW_of_iff beq_iff_eq
  case sne => exact boolW_of_iff bne_iff_ne
  case slt => exact boolW_of_iff BitVec.slt_iff_toInt_lt
  case sltn => exact boolW_of_iff BitVec.ult_iff_toNat_lt
  case sle => exact boolW_of_iff BitVec.sle_iff_toInt_le
  case slen => exact boolW_of_iff BitVec.ule_iff_toNat_le
  case slti => exact boolW_of_iff (slt_signExtend x imm)
  case sltni => exact boolW_of_iff BitVec.ult_iff_toNat_lt
  case csel => rfl
end

section
/-! SUPPORT. Products and quotients as numbers (R95, R96), and the statements about them. -/

namespace Sys2Proof.Machine

theorem mul_value (x y : Word) : x * y = BitVec.ofNat 64 (x.toNat * y.toNat) := by
  rw [BitVec.ofNat_mul, BitVec.ofNat_toNat, BitVec.ofNat_toNat, BitVec.setWidth_eq, BitVec.setWidth_eq]

/-- DIV of the least number by -1 gives the dividend: the quotient is one too large, and wraps (R96). -/
theorem divS_value (x y : Word) : divS x y = if y = 0 then BitVec.allOnes 64 else
    if x = 0x8000000000000000 ∧ y = BitVec.allOnes 64 then x else BitVec.ofInt 64 (x.toInt.tdiv y.toInt) := by
  rw [divS]
  by_cases corner : x = 0x8000000000000000 ∧ y = BitVec.allOnes 64
  · obtain ⟨rfl, rfl⟩ := corner
    decide
  · rw [if_neg corner]

/-- REM of the least number by -1 gives 0 (R96). -/
theorem remS_value (x y : Word) : remS x y = if y = 0 then x else
    if x = 0x8000000000000000 ∧ y = BitVec.allOnes 64 then 0 else BitVec.ofInt 64 (x.toInt - y.toInt * x.toInt.tdiv y.toInt) := by
  rw [remS, Int.tmod_def]
  by_cases corner : x = 0x8000000000000000 ∧ y = BitVec.allOnes 64
  · obtain ⟨rfl, rfl⟩ := corner
    decide
  · rw [if_neg corner]

end Sys2Proof.Machine

open Sys2Proof Sys2Proof.Machine

/-- Settles O5: the low half as a product of words, the high halves as the model computes them. -/
theorem products : Obligations.Products := fun s d a b => by
  intro x y
  refine ⟨lateResult_of_mult2 (execMul.eq_def ..) ?mul, lateResult_of_mult2 (execMulh.eq_def ..) ?mulh,
    lateResult_of_mult2 (execMulhn.eq_def ..) ?mulhn⟩
  case mul => exact mul_value x y
  case mulh => rfl
  case mulhn => rfl

/-- Settles O6: of the signed forms the corner is set apart, where the quotient does not fit. -/
theorem division : Obligations.Division := fun s d a b => by
  intro x y least corner
  refine ⟨lateResult_of_divide2 (execDiv.eq_def ..) ?div, lateResult_of_divide2 (execRem.eq_def ..) ?rem,
    lateResult_of_divide2 (execDivn.eq_def ..) ?divn, lateResult_of_divide2 (execRemn.eq_def ..) ?remn⟩
  case div => exact divS_value x y
  case rem => exact remS_value x y
  case divn => rfl
  case remn => rfl
end

section
/-! SUPPORT. Bit fields (R98, R99): each bit of the result of a logic or bit field instruction. -/

namespace Sys2Proof.Machine

theorem w64_bit (n : Nat) {k : Nat} (hk : k < 64) : (w64 n).getLsbD k = n.testBit k := by
  rw [w64, BitVec.getLsbD_ofNat, decide_eq_true hk, Bool.true_and]

/-- A sign-extended field repeats its highest bit (R98). -/
theorem signExtend_bit (imm : BitVec 16) {k : Nat} (hk : k < 64) : (imm.signExtend 64).getLsbD k = imm.getLsbD (min k 15) := by
  rw [BitVec.getLsbD_signExtend, decide_eq_true hk, Bool.true_and, BitVec.msb_eq_getLsbD_last]
  split
  · rw [Nat.min_eq_left (by omega)]
  · rw [Nat.min_eq_right (by omega)]

theorem zeroExtend_bit (imm : BitVec 16) {k : Nat} (hk : k < 64) : (imm.zeroExtend 64).getLsbD k = imm.getLsbD k := by
  rw [BitVec.zeroExtend_eq_setWidth, BitVec.getLsbD_setWidth, decide_eq_true hk, Bool.true_and]

theorem not_bit (x : Word) {k : Nat} (hk : k < 64) : (~~~x).getLsbD k = !x.getLsbD k := by
  rw [BitVec.getLsbD_not, decide_eq_true hk, Bool.true_and]

theorem bextW_bit (x : Word) (len pos : Nat) {k : Nat} (hk : k < 64) :
    (bextW x len pos).getLsbD k = (decide (k < len) && x.getLsbD (pos + k)) := by
  rw [bextW, w64_bit _ hk, Nat.testBit_mod_two_pow, Nat.testBit_div_two_pow, BitVec.testBit_toNat, Nat.add_comm]

/-- The field of BINS, as a mask. -/
theorem fieldMask_bit (len pos : Nat) {k : Nat} (hk : k < 64) :
    (w64 ((2 ^ len - 1) * 2 ^ pos)).getLsbD k = decide (pos ≤ k ∧ k < pos + len) := by
  rw [w64_bit _ hk, Nat.testBit_mul_two_pow, Nat.testBit_two_pow_sub_one, ← Bool.decide_and]
  exact decide_eq_decide.mpr (by omega)

theorem binsW_bit (x y : Word) (len pos : Nat) {k : Nat} (hk : k < 64) :
    (binsW x y len pos).getLsbD k = if pos ≤ k ∧ k < pos + len then y.getLsbD (k - pos) else x.getLsbD k := by
  rw [binsW, BitVec.getLsbD_or, BitVec.getLsbD_and, BitVec.getLsbD_and, not_bit _ hk, fieldMask_bit _ _ hk, BitVec.getLsbD_shiftLeft]
  by_cases inside : pos ≤ k ∧ k < pos + len
  · rw [if_pos inside, decide_eq_true inside, decide_eq_true hk, decide_eq_false (Nat.not_lt.mpr inside.1)]
    simp
  · rw [if_neg inside, decide_eq_false inside]
    simp

theorem bitwise : Bitwise := fun s d a b imm l p => by
  intro x y bits one
  refine ⟨⟨_, fun k _ => ?and, aluResult_of_alu2 (execAnd.eq_def ..) rfl⟩, ⟨_, fun k _ => ?or, aluResult_of_alu2 (execOr.eq_def ..) rfl⟩,
    ⟨_, fun k _ => ?xor, aluResult_of_alu2 (execXor.eq_def ..) rfl⟩, ⟨_, fun k hk => ?andn, aluResult_of_alu2 (execAndn.eq_def ..) rfl⟩,
    ⟨_, fun k hk => ?orn, aluResult_of_alu2 (execOrn.eq_def ..) rfl⟩, ⟨_, fun k hk => ?andi, aluResult_of_alu1 (execAndi.eq_def ..) rfl⟩,
    ⟨_, fun k hk => ?ori, aluResult_of_alu1 (execOri.eq_def ..) rfl⟩, ⟨_, fun k hk => ?xori, aluResult_of_alu1 (execXori.eq_def ..) rfl⟩,
    fun _ => ⟨⟨_, fun k hk => ?bext, aluResult_of_alu1 (execBext.eq_def ..) rfl⟩,
      ⟨_, fun k hk => ?bins, aluResult_of_scalarOp (execBins.eq_def ..) rfl⟩⟩⟩
  case and => exact BitVec.getLsbD_and
  case or => exact BitVec.getLsbD_or
  case xor => exact BitVec.getLsbD_xor
  case andn => rw [BitVec.getLsbD_and, not_bit _ hk]
  case orn => rw [BitVec.getLsbD_or, not_bit _ hk]
  case andi => rw [BitVec.getLsbD_and, signExtend_bit _ hk]
  case ori => rw [BitVec.getLsbD_or, zeroExtend_bit _ hk]
  case xori => rw [BitVec.getLsbD_xor, zeroExtend_bit _ hk]
  case bext => rw [bextW_bit _ _ _ hk, decide_eq_decide.mpr Nat.lt_succ_iff]
  case bins =>
    rw [binsW_bit _ _ _ _ hk]
    exact if_congr (by omega) rfl rfl

end Sys2Proof.Machine
end

section
/-! SUPPORT. Counts of bits and reversals (R95), and the statement about logic. -/

namespace Sys2Proof.Machine

/-- CLZ counts the zeros from the highest of n bits downward, up to the first 1. -/
theorem clzFrom_counts (x : Word) (n : Nat) : clzFrom x n ≤ n ∧ (∀ k, n - clzFrom x n ≤ k → k < n → x.getLsbD k = false) ∧
    (clzFrom x n < n → x.getLsbD (n - 1 - clzFrom x n) = true) := by
  induction n with
  | zero => exact ⟨Nat.le_refl 0, fun k _ hk => absurd hk (Nat.not_lt_zero k), fun h => absurd h (Nat.not_lt_zero _)⟩
  | succ n ih =>
    obtain ⟨le, zeros, first⟩ := ih
    rw [clzFrom]
    by_cases one : x.getLsbD n = true
    · rw [if_pos one]
      exact ⟨Nat.zero_le _, fun k hk lt => absurd lt (by omega), fun _ => one⟩
    · rw [if_neg one]
      refine ⟨by omega, fun k hk lt => ?_, fun lt => ?_⟩
      · by_cases top : k = n
        · rw [top, Bool.eq_false_iff.mpr one]
        · exact zeros k (by omega) (by omega)
      · rw [show n + 1 - 1 - (clzFrom x n + 1) = n - 1 - clzFrom x n by omega]
        exact first (by omega)

/-- CTZ counts the zeros of n bits from bit i upward, up to the first 1. -/
theorem ctzFrom_counts (x : Word) (i n : Nat) : ctzFrom x i n ≤ n ∧ (∀ k, k < ctzFrom x i n → x.getLsbD (i + k) = false) ∧
    (ctzFrom x i n < n → x.getLsbD (i + ctzFrom x i n) = true) := by
  induction n generalizing i with
  | zero => exact ⟨Nat.le_refl 0, fun k hk => absurd hk (Nat.not_lt_zero k), fun h => absurd h (Nat.not_lt_zero _)⟩
  | succ n ih =>
    obtain ⟨le, zeros, first⟩ := ih (i + 1)
    rw [ctzFrom]
    by_cases one : x.getLsbD i = true
    · rw [if_pos one]
      exact ⟨Nat.zero_le _, fun k hk => absurd hk (Nat.not_lt_zero k), fun _ => one⟩
    · rw [if_neg one]
      refine ⟨by omega, fun k hk => ?_, fun lt => ?_⟩
      · cases k with
        | zero => exact Bool.eq_false_iff.mpr one
        | succ k =>
          rw [show i + (k + 1) = i + 1 + k by omega]
          exact zeros k (by omega)
      · rw [show i + (ctzFrom x (i + 1) n + 1) = i + 1 + ctzFrom x (i + 1) n by omega]
        exact first (by omega)

theorem popcW_eq (x : Word) (n : Nat) : popcW x n = (List.range n).countP fun k => x.getLsbD k := by
  induction n with
  | zero => rfl
  | succ n ih =>
    rw [popcW, List.range_succ, List.countP_append, ih]
    cases bit : x.getLsbD n <;> simp [bit]

/-- The number that BREV makes of the low n bits, highest last. -/
theorem reversed_testBit (x : Word) {n k : Nat} (hk : k < n) :
    ((List.range n).foldl (fun m i => 2 * m + (x.getLsbD i).toNat) 0).testBit k = x.getLsbD (n - 1 - k) := by
  induction n generalizing k with
  | zero => exact absurd hk (Nat.not_lt_zero k)
  | succ n ih =>
    rw [List.range_succ, List.foldl_append, List.foldl_cons, List.foldl_nil]
    rw [← Nat.bit_val]
    cases k with
    | zero => rw [Nat.testBit_bit_zero, Nat.add_sub_cancel, Nat.sub_zero]
    | succ k => rw [Nat.testBit_bit_succ, ih (by omega), show n + 1 - 1 - (k + 1) = n - 1 - k by omega]

theorem brevW_bit (x : Word) {k : Nat} (hk : k < 64) : (brevW x).getLsbD k = x.getLsbD (63 - k) := by
  rw [brevW, w64_bit _ hk, reversed_testBit x hk]

/-- A bit of a number that bytes make is a bit of one of them (R4). -/
theorem ofBytes_testBit (l : List Byte) (k : Nat) {j : Nat} (hj : j < 8) : (ofBytes l).testBit (8 * k + j) = (l.getD k 0).getLsbD j := by
  rw [← BitVec.testBit_toNat, ← ofBytes_digit, show 256 = 2 ^ 8 from rfl, Nat.testBit_mod_two_pow, decide_eq_true hj, Bool.true_and,
    Nat.testBit_div_two_pow, Nat.add_comm]

theorem bswapW_bit (x : Word) {k j : Nat} (hk : k < 8) (hj : j < 8) :
    (bswapW x).getLsbD (8 * k + j) = x.getLsbD (8 * (7 - k) + j) := by
  have whole : ofBytes (toBytes x.toNat 8) = x.toNat := ofBytes_toBytes x.isLt
  rw [bswapW, w64_bit _ (by omega), ofBytes_testBit _ k hj, List.getD_reverse k (by rw [toBytes_length]; exact hk), toBytes_length,
    ← ofBytes_testBit _ _ hj, whole, BitVec.testBit_toNat]

theorem bitCounts : BitCounts := fun s d a => by
  intro x
  obtain ⟨clzLe, clzZeros, clzFirst⟩ := clzFrom_counts x 64
  obtain ⟨ctzLe, ctzZeros, ctzFirst⟩ := ctzFrom_counts x 0 64
  simp only [Nat.zero_add] at ctzZeros ctzFirst
  refine ⟨⟨_, clzLe, aluResult_of_alu1 (execClz.eq_def ..) rfl, fun k hk => ?high, clzFirst⟩,
    ⟨_, ctzLe, aluResult_of_alu1 (execCtz.eq_def ..) rfl, ctzZeros, ctzFirst⟩, aluResult_of_alu1 (execPopc.eq_def ..) ?popc,
    ⟨_, aluResult_of_alu1 (execBrev.eq_def ..) rfl, fun k hk => brevW_bit x hk⟩,
    ⟨_, aluResult_of_alu1 (execBswap.eq_def ..) rfl, fun k hk j hj => bswapW_bit x hk hj⟩⟩
  case high =>
    by_cases inside : k < 64
    · exact clzZeros k hk inside
    · exact BitVec.getLsbD_of_ge x k (by omega)
  case popc => exact congrArg w64 (popcW_eq x 64)

end Sys2Proof.Machine

open Sys2Proof Sys2Proof.Machine

/-- Settles O4: the logic by its bits, the counts by induction on the bits counted. -/
theorem aluLogic : Obligations.AluLogic := ⟨bitwise, bitCounts⟩
end

section
/-! SUPPORT. Branches (R101 to R103): the target of each form, and when it is taken. -/

namespace Sys2Proof.Machine

/-- A branch by its condition and its target (R101, R102). -/
theorem branchResult_of_branchOp {s : State} {i : Instr} {reads : List RegName} {link : Bool} {taken : Tile → Bool}
    {target : Tile → Word} {c : Prop} {x : Word} (he : exec i s = branchOp reads link taken target s)
    (hc : taken s.tile = true ↔ c) (hx : target s.tile = x) :
    BranchResult s i reads link c x := fun h => by
  obtain ⟨t, next, same, units, ops, pad, v, m, special, writes, g, linked, goes, falls⟩ :=
    branchOp_next (taken := taken) (target := target) h
  subst hx
  exact ⟨t, he.trans next, same, units, ops, pad, v, m, special, writes, g, linked, fun hold => goes (hc.mpr hold),
    fun fails => falls (Bool.eq_false_iff.mpr fun go => fails (hc.mp go))⟩

theorem branchResult_of_branch2 {s : State} {i : Instr} {a b : GReg} {disp : BitVec 16} {f : Word → Word → Bool} {c : Prop} {x : Word}
    (he : exec i s = branch2 a b disp f s) (hc : f (s.tile.g a) (s.tile.g b) = true ↔ c) (hx : pcRel disp s.tile = x) :
    BranchResult s i [.g a, .g b] false c x := branchResult_of_branchOp (taken := fun t => f (t.g a) (t.g b)) he hc hx

/-- A target counts words from the PC (R102). -/
theorem pcRel_eq {n : Nat} (disp : BitVec n) (t : Tile) : pcRel disp t = t.ex.pc + BitVec.ofInt 64 (disp.toInt * 4) := by
  rw [pcRel, signExtend_shiftLeft]
  rfl

theorem jumpTo_eq (v : GReg) (disp : BitVec 16) (t : Tile) : jumpTo v disp t = t.g v + BitVec.ofInt 64 (disp.toInt * 4) := by
  rw [jumpTo, signExtend_shiftLeft]
  rfl

theorem anyLane_iff (k : MReg) (t : Tile) : anyLane k t = true ↔ ∃ i, LaneOn t k i := by
  rw [anyLane, bne_iff_ne, ne_eq, t.enabled_eq_zero k, not_forall_not]

theorem no_anyLane_iff (k : MReg) (t : Tile) : (!anyLane k t) = true ↔ ¬∃ i, LaneOn t k i := by
  rw [Bool.not_eq_true', Bool.eq_false_iff, ne_eq, anyLane_iff]

end Sys2Proof.Machine

open Sys2Proof Sys2Proof.Machine

/-- Settles O8: the targets are words counted from the PC or from ga, the conditions those of the registers or of the lanes that are on. -/
theorem branches : Obligations.Branches := fun s a b m j e => by
  intro x y rel dest lane
  have always : true = true ↔ True := iff_true_intro rfl
  have near := pcRel_eq e s.tile
  have far := pcRel_eq j s.tile
  have jump := jumpTo_eq a e s.tile
  have any := anyLane_iff m s.tile
  refine ⟨branchResult_of_branchOp (execB.eq_def ..) always far, branchResult_of_branchOp (execBl.eq_def ..) always far,
    branchResult_of_branch2 (execBeq.eq_def ..) ?beq near, branchResult_of_branch2 (execBne.eq_def ..) ?bne near,
    branchResult_of_branch2 (execBlt.eq_def ..) ?blt near, branchResult_of_branch2 (execBge.eq_def ..) ?bge near,
    branchResult_of_branch2 (execBltn.eq_def ..) ?bltn near, branchResult_of_branch2 (execBgen.eq_def ..) ?bgen near,
    branchResult_of_branchOp (execJr.eq_def ..) always jump, branchResult_of_branchOp (execJlr.eq_def ..) always jump,
    branchResult_of_branchOp (execBmany.eq_def ..) any near, branchResult_of_branchOp (execBmnone.eq_def ..) ?bmnone near⟩
  case beq => exact beq_iff_eq
  case bne => exact bne_iff_ne
  case blt => exact BitVec.slt_iff_toInt_lt
  case bge => exact BitVec.sle_iff_toInt_le
  case bltn => exact BitVec.ult_iff_toNat_lt
  case bgen => exact BitVec.ule_iff_toNat_le
  case bmnone => exact no_anyLane_iff m s.tile
end

section
/-! SUPPORT. IDLE and TLBINV at issue (R119, R125), and the statement about them. -/

namespace Sys2Proof.Machine

theorem idle_next (s : State) : ∃ t, exec .idle s = .next t ∧ SameModule s t ∧ t.tile.id = s.tile.id ∧ t.tile.gang = s.tile.gang ∧
    t.tile.inb = s.tile.inb ∧ t.tile.eng = s.tile.eng ∧ t.tile.ni = s.tile.ni ∧ t.tile.ops = s.tile.ops ∧ s.tile.SamePad t.tile ∧
    s.tile.SameRegs t.tile [] ∧
    t.tile.ex = { s.tile.ex with pc := s.tile.ex.pc + 4, branch := none, tvecFetch := false, idle := true } ∧
    t.tile.pl = { s.tile.pl with idleSince := s.fab.time } := by
  obtain ⟨⟨id, gang, inb, eng, ni, pl⟩, ops, pad, regs, pc⟩ := s.tile.keeps_issuedWords 1 []
  refine ⟨_, (show execIdle s = _ from issue_of_ok s.tile.canIssue_nothing rfl), rfl, id, gang, inb, eng, ni, ops, pad, regs, ?ex, ?pl⟩
  case ex => exact congrArg (fun x : Exec => { x with idle := true }) pc
  case pl => exact congrArg (fun x : Place => { x with idleSince := s.fab.time }) pl

/-- The micro-TLB keeps the entries of which q holds (R125). -/
def Tile.tlbKeeping (t : Tile) (q : TlbEntry → Bool) : Tile := { t with ni := { t.ni with tlb := t.ni.tlb.filter q } }

/-- An instruction that leaves of the micro-TLB the entries of which p does not hold. -/
theorem tlbInvalidation {s : State} {i : Instr} {reads : List RegName} {q : TlbEntry → Bool} {p : TlbEntry → Prop}
    (he : exec i s = .next (s.upd fun t => (t.issued reads).tlbKeeping q)) (hq : ∀ e, q e = true ↔ ¬p e) :
    ∃ t, exec i s = .next t ∧ SameModule s t ∧ t.tile.id = s.tile.id ∧ t.tile.gang = s.tile.gang ∧ t.tile.inb = s.tile.inb ∧
      t.tile.eng = s.tile.eng ∧ t.tile.pl = s.tile.pl ∧ t.tile.ops = s.tile.ops ∧ s.tile.SamePad t.tile ∧
      s.tile.SameRegs t.tile [] ∧ s.tile.NextPc t.tile 1 ∧ t.tile.ni = { s.tile.ni with tlb := t.tile.ni.tlb } ∧
      ∀ e, e ∈ t.tile.ni.tlb ↔ e ∈ s.tile.ni.tlb ∧ ¬p e := by
  obtain ⟨⟨id, gang, inb, eng, ni, pl⟩, ops, pad, regs, pc⟩ := s.tile.keeps_issuedWords 1 reads
  refine ⟨_, he, rfl, id, gang, inb, eng, pl, ops, pad, regs, pc, ?ni, fun e => ?kept⟩
  case ni => simp only [State.upd_tile, Tile.tlbKeeping, Tile.issued_ni]
  case kept => rw [State.upd_tile, Tile.tlbKeeping, Tile.issued_ni, List.mem_filter, hq]

theorem tlbinv_next {s : State} {a : GReg} (hp : s.tile.ex.prv = true) (hi : s.tile.canIssue { regs := [.g a], reads := [.g a] }) :
    exec (.tlbinv a) s = .next (s.upd fun t => (t.issued [.g a]).tlbKeeping fun e =>
      !decide (e.asid = s.tile.gang.asid ∧ e.va ≤ (s.tile.g a).toNat ∧ (s.tile.g a).toNat < e.va + e.size)) := by
  refine show execTlbinv a s = _ from issue_of_ok hi ?_
  simp only [failIf_supervisor _ hp, check_ok_bind, Tile.tlbKeeping, Tile.issued_gang]
  rfl

theorem tlbinvAll_next {s : State} (hp : s.tile.ex.prv = true) :
    exec .tlbinvAll s = .next (s.upd fun t => (t.issued []).tlbKeeping fun e => decide (e.asid ≠ s.tile.gang.asid)) := by
  refine show execTlbinvAll s = _ from issue_of_ok s.tile.canIssue_nothing ?_
  simp only [failIf_supervisor _ hp, check_ok_bind, Tile.tlbKeeping, Tile.issued_gang]
  rfl

end Sys2Proof.Machine

open Sys2Proof Sys2Proof.Machine

/-- Settles O11: the suspension by its own lemma, both forms of TLBINV by what they leave of the micro-TLB. -/
theorem idleAndTlb : Obligations.IdleAndTlb := fun s a => by
  refine ⟨idle_next s, fun hp => ⟨fun hi => ?page, ?all⟩⟩
  case page => exact tlbInvalidation (tlbinv_next hp hi) fun e => by rw [Bool.not_eq_true', decide_eq_false_iff_not]
  case all => exact tlbInvalidation (tlbinvAll_next hp) fun e => decide_eq_true_iff
end

section
/-! SUPPORT. Requests to the homes of an access, and the use of its translations (R198, R296, R305, R340). -/

namespace Sys2Proof.Machine

/-! ## What leaves the NI -/

theorem SameButFlits.refl (s : State) : SameButFlits s s := rfl

theorem SameButFlits.trans {a b c : State} (h : SameButFlits a b) (k : SameButFlits b c) : SameButFlits a c := by
  unfold SameButFlits at *
  rw [k, h]

theorem State.sendReq_sameButFlits (s : State) (stamp site : Nat) : SameButFlits s (s.sendReq stamp site) := by
  unfold State.sendReq
  split
  · refine foldl_rel SameButFlits.refl SameButFlits.trans (fun s k => ?_) _ s
    rfl
  · rfl

theorem State.injectReqs_sameButFlits (s : State) (stamp : Nat) (sites : List Nat) : SameButFlits s (s.injectReqs stamp sites) := by
  refine foldl_rel SameButFlits.refl SameButFlits.trans (fun s d => ?_) sites s
  split
  · rfl
  · exact s.sendReq_sameButFlits stamp d

/-- The NI holds more requests of one operation, and no others. -/
def HoldsMore (stamp : Nat) (s t : State) : Prop :=
  ∃ more, t.tile.ops.kept = s.tile.ops.kept ++ more ∧ ∀ k ∈ more, k.1 = stamp

theorem HoldsMore.refl (stamp : Nat) (s : State) : HoldsMore stamp s s := ⟨[], (List.append_nil _).symm, nofun⟩

theorem HoldsMore.trans {stamp : Nat} {a b c : State} (h : HoldsMore stamp a b) (k : HoldsMore stamp b c) : HoldsMore stamp a c := by
  obtain ⟨l, hl, own⟩ := h
  obtain ⟨m, hm, own'⟩ := k
  exact ⟨l ++ m, by rw [hm, hl, List.append_assoc], fun x hx => (List.mem_append.mp hx).elim (own x) (own' x)⟩

theorem State.sendReq_tile (s : State) (stamp site : Nat) : (s.sendReq stamp site).tile = s.tile := by
  unfold State.sendReq
  split
  · refine foldl_rel (r := fun a b : State => b.tile = a.tile) (fun _ => rfl) (fun h k => k.trans h) (fun s k => ?_) _ s
    rfl
  · rfl

theorem State.injectReqs_holdsMore (s : State) (stamp : Nat) (sites : List Nat) : HoldsMore stamp s (s.injectReqs stamp sites) := by
  refine foldl_rel (HoldsMore.refl stamp) HoldsMore.trans (fun s d => ?_) sites s
  split
  · exact ⟨[(stamp, d)], rfl, fun k hk => by rw [List.mem_singleton.mp hk]⟩
  · exact ⟨[], by rw [s.sendReq_tile, List.append_nil], nofun⟩

/-! ## An access that enters its class -/

/-- A tile that holds the translations of another, for the same ASID, uses them as that one would (R340). -/
theorem Tile.usePages_usesPages {a b : Tile} (va n : Nat) (ni : b.ni = a.ni) (gang : b.gang = a.gang) :
    UsesPages a (b.usePages va n) va n := by
  simp only [UsesPages, Tile.usePages, meets, ni, gang, Bool.decide_and]

/-- A tile that has used the translations of a range, and whose outstanding operations have changed. -/
def Tile.afterAccess (t : Tile) (va n : Nat) (f : Outstanding → Outstanding) : Tile := { t.usePages va n with ops := f t.ops }

/-- An access to global memory that enters its class: f adds it to the outstanding operations, and its requests leave or are held. -/
theorem access_enters {s : State} {b : Tile} {va n : Nat} {f : Outstanding → Outstanding} (keeps : s.tile.KeepsBut b [] 1)
    (writes : b.iss.writes = s.tile.iss.writes) (kept : ∀ o, (f o).kept = o.kept) (sites : List Nat) :
    let t := (s.upd fun _ => b.afterAccess va n f).injectReqs s.tile.ops.stamp sites
    Enters s t ∧ UsesPages s.tile t.tile va n ∧ t.tile.eng = s.tile.eng ∧
      t.tile.ops = { f s.tile.ops with kept := t.tile.ops.kept } := by
  intro t
  obtain ⟨⟨id, gang, inb, eng, ni, pl⟩, ops, pad, regs, pc⟩ := keeps
  have flits : SameButFlits s t := SameButFlits.trans (b := s.upd fun _ => b.afterAccess va n f) rfl (State.injectReqs_sameButFlits ..)
  have tile : t.tile = { b.afterAccess va n f with ops := { f s.tile.ops with kept := t.tile.ops.kept } } := by
    rw [← ops]
    exact tileSends_injectReqs ..
  have held : s.tile.Keeps t.tile := by
    obtain ⟨more, own⟩ := State.injectReqs_holdsMore (s.upd fun _ => b.afterAccess va n f) s.tile.ops.stamp sites
    rw [show (s.upd fun _ => b.afterAccess va n f).tile.ops.kept = s.tile.ops.kept from (kept _).trans (congrArg _ ops)] at own
    exact ⟨more, own⟩
  have used : UsesPages s.tile t.tile va n := by
    rw [tile]
    exact Tile.usePages_usesPages va n ni gang
  have phys : s.tile.SamePhys t.tile := by
    refine ⟨?_, ?_⟩
    · rw [UsesPages] at used
      rw [used]
    · rw [tile, ← ni]
      exact b.usePages_tlb va n
  have scratch : s.tile.SamePad t.tile := by rw [tile]; exact pad
  have registers : s.tile.SameRegs t.tile [] := by rw [tile]; exact regs
  have next : s.tile.NextPc t.tile 1 := by rw [tile]; exact pc
  exact ⟨⟨flits, (congrArg Tile.id tile).trans id, (congrArg Tile.gang tile).trans gang, (congrArg Tile.inb tile).trans inb,
    (congrArg Tile.pl tile).trans pl, phys, scratch, registers, next, (congrArg (·.iss.writes) tile).trans writes, held⟩, used,
    (congrArg Tile.eng tile).trans eng, congrArg Tile.ops tile⟩

/-- What an access to global memory leaves before it enters its class: its event counts, and it issues (R252). -/
theorem Tile.keeps_event_issued (t : Tile) (e : Nat) (reads : List RegName) : t.KeepsBut ((t.event e 1).issued reads) [] 1 ∧
    ((t.event e 1).issued reads).iss.writes = t.iss.writes := by
  have counts := t.onlyPerf_event e 1
  exact ⟨Tile.keeps_issued reads counts.sameUnits counts.ops counts.samePad counts.sameRegs counts.ex, Tile.issued_writes ..⟩

/-- The load that GLD and GLDN make outstanding (R111). -/
def Tile.globalOp (t : Tile) (d : GReg) (ea n pa : Nat) (ext : LoadExt) (hs : BitVec 8) : OutLoad :=
  { stamp := t.ops.stamp, kind := .global ext
    elems := [{ reg := .g d, lane := 0, va := ea, pa := pa, bytes := n, val := none }]
    regs := [.g d], hs := hs, issued := t.iss.cycle, aclass := 4, ecc := none }

/-- The store that GST makes outstanding (R112). -/
def Tile.globalStore (t : Tile) (d : GReg) (ea n pa : Nat) (hs : BitVec 8) : OutStore :=
  { stamp := t.ops.stamp, vec := false, ecc := none, hs := hs
    elems := [{ lane := 0, va := ea, pa := pa, data := toBytes (t.g d).toNat n, done := false }] }

/-- A load enters class LD under the next stamp. -/
def Outstanding.addLoad (o : Outstanding) (l : OutLoad) : Outstanding := { o with stamp := o.stamp + 1, loads := o.loads ++ [l] }

/-- A store enters class ST under the next stamp. -/
def Outstanding.addStore (o : Outstanding) (l : OutStore) : Outstanding := { o with stamp := o.stamp + 1, stores := o.stores ++ [l] }

section
variable {s : State} {d a : GReg} {z : Fin 8} {off : BitVec 13} {e : TlbEntry} {ea : Word} {n pa : Nat} {hs : BitVec 8}
  (address : memEa s.tile a z off = ea) (size : 2 ^ z.val = n) (handles : s.tile.handlesOf [(ea.toNat, n)] = hs)
  (phys : e.pa + (ea.toNat - e.va) = pa) (even : ea.toNat % n = 0)
include address size handles phys even

theorem globalLoad_next {i : Instr} {ext : LoadExt} (he : exec i s = globalLoad d a z off ext s) (reach : Reaches s .load ea.toNat n e)
    (hi : s.tile.canIssue { regs := [.g d, .g a], reads := [.g a], cls := some .ld, hs := hs }) :
    ∃ t, exec i s = .next t ∧ Enters s t ∧ UsesPages s.tile t.tile ea.toNat n ∧ t.tile.eng = s.tile.eng ∧
      t.tile.ops = { s.tile.ops.addLoad (s.tile.globalOp d ea.toNat n pa ext hs) with kept := t.tile.ops.kept } := by
  subst address size handles
  obtain ⟨keeps, writes⟩ := s.tile.keeps_event_issued 31 [.g a]
  refine ⟨_, ?next, access_enters (f := (·.addLoad _)) keeps writes (fun _ => rfl) [stackOf pa]⟩
  rw [he, globalLoad]
  refine issue_of_ok hi ?_
  rw [State.scalarGlobal_ok even reach, phys, check_ok_bind]
  rfl

theorem gst_next (reach : Reaches s .store ea.toNat n e)
    (hi : s.tile.canIssue { regs := [.g d, .g a], reads := [.g d, .g a], cls := some .st, hs := hs }) :
    ∃ t, exec (.gst d a z off) s = .next t ∧ Enters s t ∧ UsesPages s.tile t.tile ea.toNat n ∧ t.tile.eng = s.tile.eng ∧
      t.tile.ops = { s.tile.ops.addStore (s.tile.globalStore d ea.toNat n pa hs) with kept := t.tile.ops.kept } := by
  subst address size handles
  obtain ⟨keeps, writes⟩ := s.tile.keeps_event_issued 32 [.g d, .g a]
  refine ⟨_, ?next, access_enters (f := (·.addStore _)) keeps writes (fun _ => rfl) [stackOf pa]⟩
  rw [show exec (.gst d a z off) s = execGst d a z off s from rfl, execGst]
  refine issue_of_ok hi ?_
  rw [State.scalarGlobal_ok even reach, phys, check_ok_bind]
  simp only [Tile.pushStore, List.foldl_cons, List.foldl_nil, toBytes_length]
  rfl

end

end Sys2Proof.Machine

open Sys2Proof Sys2Proof.Machine

/-- Settles O16: the checks pass by what the access reaches, and each form enters its class by the one lemma about accesses. -/
theorem globalAccesses : Obligations.GlobalAccesses := fun s d a z off e _ => by
  intro ea n hs pa even
  have address : memEa s.tile a z off = ea := memEa_eq ..
  refine ⟨fun reach hi i ext form => ?load, fun reach hi => gst_next address rfl rfl rfl even reach hi⟩
  case load =>
    obtain ⟨rfl, rfl⟩ | ⟨rfl, rfl⟩ := form
    · exact globalLoad_next address rfl rfl rfl even (execGld.eq_def ..) reach hi
    · exact globalLoad_next address rfl rfl rfl even (execGldn.eq_def ..) reach hi
end

section
/-! SUPPORT. What waits of a vector instruction beside a lane-by-lane one with flags (R128, R129, R238): lanes without flags, bits of a
mask, a scalar. -/

namespace Sys2Proof.Machine

/-! ## Results that wait -/

/-- Some results wait in a tile. -/
def Tile.await (t : Tile) (ws : List PendWrite) : Tile := { t with iss := { t.iss with writes := t.iss.writes ++ ws } }

/-- The result for some lanes of an instruction that issues in a cycle; with no lane there is none (R129, R238). -/
def laneWrites (now l : Nat) (en : Mask) (w : RegWrite) (fl : Option FFlags) : List PendWrite :=
  if en = 0 then [] else [⟨now + l - 1, w, fl⟩]

theorem Tile.result_await (t : Tile) {l : Nat} (late : 1 < l) (w : RegWrite) (fl : Option FFlags) :
    t.result l w fl = t.await [⟨t.iss.cycle + l - 1, w, fl⟩] := t.result_late late w fl

theorem Tile.lanes_await (t : Tile) {l : Nat} (late : 1 < l) (en : Mask) (w : RegWrite) (fl : Option FFlags) :
    (if en = 0 then t else t.result l w fl) = t.await (laneWrites t.iss.cycle l en w fl) := by
  rw [laneWrites]
  split_ifs
  · rw [Tile.await, List.append_nil]
  · exact t.result_await late w fl

theorem Tile.putV_await (t : Tile) {l : Nat} (late : 1 < l) (d : VReg) (en : Mask) (x : VVal) (fl : Option FFlags) :
    t.putV l d en x fl = t.await (laneWrites t.iss.cycle l en (.v d en x) fl) := t.lanes_await late en (.v d en x) fl

theorem vecOp_next {s : State} {c : VClass} {dst reads : List RegName} {body : Tile → Tile}
    (h : s.tile.canIssue { regs := dst ++ reads, reads := reads, unit := c.unit }) :
    vecOp c dst reads body s = .next (s.upd body) := issue_of_ok h rfl

/-- A vector or mask instruction that leaves results to be written. -/
theorem vecOp_await {s : State} {i : Instr} {c : VClass} {dst reads : List RegName} {body : Tile → Tile} {en : Mask}
    {ws : List PendWrite} (op : exec i s = vecOp c dst reads body s)
    (h : s.tile.canIssue { regs := dst ++ reads, reads := reads, unit := c.unit })
    (hb : body s.tile = (s.tile.vecIssue c en reads).await ws) :
    ∃ t, exec i s = .next t ∧ Frame s t [] 1 ∧ t.tile.iss.writes = s.tile.iss.writes ++ ws := by
  obtain ⟨keeps, writes, -⟩ := s.tile.vecIssue_keeps c en reads
  refine ⟨_, op.trans (vecOp_next h), frame_upd ?_, ?_⟩
  · rw [hb]
    exact keeps
  · rw [State.upd_tile, hb, ← writes]
    rfl

/-- A mask has no lane where no lane is on. -/
theorem mask_eq_zero {en : Mask} {on : Fin 16 → Prop} (bits : ∀ i : Fin 16, en.getLsbD i.val = true ↔ on i) :
    en = 0 ↔ ∀ i, ¬on i := by
  constructor
  · rintro rfl i hi
    have bit := (bits i).mpr hi
    rw [BitVec.ofNat_eq_ofNat, BitVec.getLsbD_zero] at bit
    exact nomatch bit
  · refine fun off => BitVec.eq_of_getLsbD_eq fun i hi => ?_
    rw [Bool.eq_false_iff.mpr fun bit => off ⟨i, hi⟩ ((bits ⟨i, hi⟩).mp bit)]
    exact (BitVec.getLsbD_zero).symm

/-- An instruction that cannot set a flag sets none (R48). -/
theorem flagsOf_none {on : Fin 16 → Prop} : FlagsOf on none none := rfl

theorem flagsOf_lanes {en : Mask} {on : Fin 16 → Prop} {f g : Fin 16 → FFlags}
    (bits : ∀ i : Fin 16, en.getLsbD i.val = true ↔ on i) (same : ∀ i, on i → f i = g i) :
    FlagsOf on (some g) (some (lanesFlags en f)) := by
  refine ⟨_, rfl, fun j => ?_⟩
  rw [lanesFlags_bit]
  refine exists_congr fun i => ?_
  rw [bits i]
  exact and_congr_right fun hi => by rw [same i hi]

section
variable {a b : Tile} {l : Nat} {en : Mask} {on : Fin 16 → Prop} {f : Option (Fin 16 → FFlags)} {w : Option FFlags}
  (bits : ∀ i : Fin 16, en.getLsbD i.val = true ↔ on i) (flags : FlagsOf on f w)
include bits

/-- One result is awaited where a lane is on, and none where no lane is. -/
theorem laneWrites_awaited {r : RegWrite} (writes : b.iss.writes = a.iss.writes ++ laneWrites a.iss.cycle l en r w) :
    ((∃ i, on i) → a.Awaiting b l r w) ∧ ((∀ i, ¬on i) → b.iss.writes = a.iss.writes) := by
  refine ⟨fun ⟨i, hi⟩ => ?_, fun off => ?_⟩
  · rw [Tile.Awaiting, writes, laneWrites, if_neg fun none => (mask_eq_zero bits).mp none i hi]
  · rw [writes, laneWrites, if_pos ((mask_eq_zero bits).mpr off), List.append_nil]

include flags

theorem lanesAwaited_of {d : VReg} {x : Fin 16 → W32} {y : VVal} (values : ∀ i, on i → y.get i = x i)
    (writes : b.iss.writes = a.iss.writes ++ laneWrites a.iss.cycle l en (.v d en y) w) : LanesAwaited a b l d on x f := by
  obtain ⟨some, none⟩ := laneWrites_awaited bits writes
  exact ⟨fun hi => ⟨en, y, w, bits, values, flags, some hi⟩, none⟩

/-- The bits of the lanes that are on come from a mask, the others from the destination (R128). -/
theorem bitsAwaited_of {d : MReg} {x : Fin 16 → Prop} {y : Mask} (values : ∀ i : Fin 16, on i → (y.getLsbD i.val = true ↔ x i))
    (writes : b.iss.writes = a.iss.writes ++ laneWrites a.iss.cycle l en (.m d (a.m d &&& ~~~en ||| y &&& en)) w) :
    BitsAwaited a b l d on x f := by
  obtain ⟨some, none⟩ := laneWrites_awaited bits writes
  have bit (i : Fin 16) : (a.m d &&& ~~~en ||| y &&& en).getLsbD i.val =
      (((a.m d).getLsbD i.val && !en.getLsbD i.val) || (y.getLsbD i.val && en.getLsbD i.val)) := by
    rw [BitVec.getLsbD_or, BitVec.getLsbD_and, BitVec.getLsbD_and, BitVec.getLsbD_not, decide_eq_true i.isLt, Bool.true_and]
  refine ⟨fun hi => ⟨_, w, fun i => ⟨fun here => ?_, fun off => ?_⟩, flags, some hi⟩, none⟩
  · rw [bit, (bits i).mpr here, Bool.not_true, Bool.and_false, Bool.false_or, Bool.and_true]
    exact values i here
  · rw [bit, Bool.eq_false_iff.mpr fun here => off ((bits i).mp here), Bool.not_false, Bool.and_true, Bool.and_false, Bool.or_false]

end

/-! ## Shapes -/

theorem Tile.vecIssue_cycle (t : Tile) (c : VClass) (en : Mask) (reads : List RegName) :
    (t.vecIssue c en reads).iss.cycle = t.iss.cycle := (t.vecIssue_keeps c en reads).2.2

theorem Tile.vecIssue_regs (t : Tile) (c : VClass) (en : Mask) (reads : List RegName) :
    (t.vecIssue c en reads).regs = { t.regs with perf := (t.vecIssue c en reads).regs.perf } := by
  have issued := Tile.issuedWords_regs ((((t.event 35 1).event 34 (c.fp * laneCount en))).occupy c.unit c.occ) 1 reads
  have counted := ((t.onlyPerf_event 35 1).trans (Tile.onlyPerf_event _ 34 (c.fp * laneCount en))).regs
  rw [show (((t.event 35 1).event 34 (c.fp * laneCount en)).occupy c.unit c.occ).regs = _ from counted] at issued
  exact issued

/-- An instruction that writes lanes of vd with no flag. -/
theorem vecOp_lanes {s : State} {i : Instr} {c : VClass} {d : VReg} {reads : List RegName} {en : Tile → Mask} {y : Tile → VVal}
    {on : Fin 16 → Prop} {x : Fin 16 → W32}
    (op : exec i s = vecOp c [.v d] reads (fun t => (t.vecIssue c (en t) reads).putV c.lat d (en t) (y t) none) s) (late : 1 < c.lat)
    (bits : ∀ i : Fin 16, (en s.tile).getLsbD i.val = true ↔ on i) (values : ∀ i, on i → (y s.tile).get i = x i)
    (h : s.tile.canIssue { regs := .v d :: reads, reads := reads, unit := c.unit }) :
    ∃ t, exec i s = .next t ∧ Frame s t [] 1 ∧ LanesAwaited s.tile t.tile c.lat d on x none := by
  obtain ⟨t, next, frame, writes⟩ := vecOp_await op h (Tile.putV_await _ late ..)
  rw [Tile.vecIssue_cycle] at writes
  exact ⟨t, next, frame, lanesAwaited_of bits flagsOf_none values writes⟩

/-- A lane-by-lane instruction that sets no flag gives the results of its lanes (R128). -/
theorem vectorResult_of_laneOp {s : State} {i : Instr} {c : VClass} {d : VReg} {k : MReg} {reads : List RegName} {x : Fin 16 → W32}
    (f : Tile → Fin 16 → W32) (late : 1 < c.lat) (op : exec i s = laneOp c d k reads f s) (lanes : ∀ j, f s.tile j = x j) :
    VectorResult s i c d k reads x none := fun h =>
  vecOp_lanes op late (s.tile.enabled_bit k) (fun i _ => (lanesOf_get ..).trans (lanes i)) h

end Sys2Proof.Machine
end

section
/-! SUPPORT. The approximations (R135 to R140): the special inputs of each, and the entries of its table as nearest integers. -/

namespace Sys2Proof.Machine

/-! ## Lanes -/

theorem f32_of_isNan {x : W32} (h : (f32 x).isNan = true) : f32 x = .nan (f32 x).isSnan := by
  cases e : f32 x with
  | nan sn => rfl
  | inf n => rw [e] at h; exact nomatch h
  | fin n a b => rw [e] at h; exact nomatch h

/-- A NaN gives the canonical NaN (R46, R135). -/
theorem approximations_of_nan {x : W32} {sn : Bool} (h : f32 x = .nan sn) :
    let r := fp32.nan sn
    rcpLane x = r ∧ rsqLane x = r ∧ exp2OfLane x = r ∧ log2Lane x = r ∧ tanhLane x = r := by
  rw [rcpLane, rsqLane, exp2OfLane, log2Lane, tanhLane, h]
  exact ⟨rfl, rfl, rfl, rfl, rfl⟩

/-- The words of the two zeros. -/
theorem zero_words {x : W32} (h : x.toNat % 2 ^ 31 = 0) : x = 0 ∨ x = 0x80000000 := by
  have lt := x.isLt
  obtain zero | one : x.toNat = 0 ∨ x.toNat = 2 ^ 31 := by omega
  · exact .inl (BitVec.eq_of_toNat_eq zero)
  · exact .inr (BitVec.eq_of_toNat_eq one)

theorem approximationLanes : ApproximationLanes := by
  refine ⟨fun s d a k => ?lanes, fun x h => ?nan, fun x h => ?zero, ?infinities⟩
  case lanes =>
    exact ⟨floatResult_of_laneOpF _ (by decide) rfl fun _ => rfl, floatResult_of_laneOpF _ (by decide) rfl fun _ => rfl,
      floatResult_of_laneOpF _ (by decide) rfl fun _ => rfl, floatResult_of_laneOpF _ (by decide) rfl fun _ => rfl,
      floatResult_of_laneOpF _ (by decide) rfl fun _ => rfl⟩
  case nan => exact approximations_of_nan (f32_of_isNan h)
  case zero =>
    obtain rfl | rfl := zero_words h
    · exact ⟨rfl, rfl, rfl, rfl, rfl⟩
    · exact ⟨rfl, rfl, rfl, rfl, rfl⟩
  case infinities => exact ⟨rfl, rfl, rfl, rfl, rfl, rfl, rfl, rfl, rfl, rfl⟩

/-! ## Tables -/

/-- A rounded quotient is at most a half from the quotient. -/
theorem rneDiv_nearest (num : Nat) {den : Nat} (pos : 0 < den) :
    (2 * rneDiv num den - 1) * den ≤ 2 * num ∧ 2 * num ≤ (2 * rneDiv num den + 1) * den := by
  have split := Nat.div_add_mod' num den
  have small := Nat.mod_lt num pos
  rw [rneDiv]
  rw [Nat.sub_mul, Nat.add_mul, Nat.mul_assoc]
  split_ifs with up
  · rw [Nat.add_mul]
    omega
  · omega

/-- The root that is formed bit by bit is the integer square root. -/
theorem isqrtFrom_floor {x : Nat} (n : Nat) {r : Nat} (low : r * r ≤ x) (high : x < (r + 2 ^ n) * (r + 2 ^ n)) :
    isqrtFrom x n r * isqrtFrom x n r ≤ x ∧ x < (isqrtFrom x n r + 1) * (isqrtFrom x n r + 1) := by
  induction n generalizing r with
  | zero => exact ⟨low, high⟩
  | succ n ih =>
    rw [isqrtFrom]
    split_ifs with fits
    · refine ih fits ?_
      rwa [Nat.add_assoc, ← Nat.two_mul, ← Nat.pow_succ']
    · exact ih low (Nat.not_le.mp fits)

/-- The integer k-th root of a number, rounded down. -/
def FloorRoot (k x r : Nat) : Prop := r ^ k ≤ x ∧ x < (r + 1) ^ k

/-- A square root halves what is left of a root; the bits suffice where the number is small enough. -/
theorem FloorRoot.isqrt {k x r n : Nat} (h : FloorRoot k x r) (small : x < 2 ^ (2 * n * k)) : FloorRoot (2 * k) x (isqrtFrom r n 0) := by
  obtain ⟨low, high⟩ := h
  have fits : r < 2 ^ (2 * n) := lt_of_pow_lt_pow_left₀ k (Nat.zero_le _) (by rw [← Nat.pow_mul]; exact Nat.lt_of_le_of_lt low small)
  obtain ⟨low', high'⟩ := isqrtFrom_floor n (Nat.zero_le r) (by rwa [Nat.zero_add, ← Nat.pow_add, ← Nat.two_mul])
  refine ⟨?_, ?_⟩
  · rw [Nat.pow_mul, Nat.pow_two]
    exact Nat.le_trans (Nat.pow_le_pow_left low' k) low
  · rw [Nat.pow_mul, Nat.pow_two]
    exact Nat.lt_of_lt_of_le high (Nat.pow_le_pow_left high' k)

theorem rootT_floor {j : Nat} (h : j < 32) : FloorRoot 32 (2 ^ (992 + j)) (rootT j) := by
  have whole : FloorRoot 1 (2 ^ (992 + j)) (2 ^ (992 + j)) := by
    rw [FloorRoot, Nat.pow_one, Nat.pow_one]
    exact ⟨Nat.le_refl _, Nat.lt_succ_self _⟩
  have small {m : Nat} (hm : 1024 ≤ m) : 2 ^ (992 + j) < 2 ^ m := Nat.pow_lt_pow_right (by decide) (by omega)
  exact ((((whole.isqrt (n := 600) (small (by decide))).isqrt (n := 300) (small (by decide))).isqrt (n := 150) (small (by decide))).isqrt
    (n := 80) (small (by decide))).isqrt (n := 40) (small (by decide))

/-- T[j] is nearest to the root of which it is made (R138). -/
theorem tableT_nearest {j : Nat} (h : j < 32) :
    (2 * tableT j - 1) ^ 32 ≤ 2 ^ (992 + j) ∧ 2 ^ (992 + j) ≤ (2 * tableT j + 1) ^ 32 := by
  obtain ⟨low, high⟩ := rootT_floor h
  have below : 2 * tableT j - 1 ≤ rootT j := by rw [tableT]; omega
  have above : rootT j + 1 ≤ 2 * tableT j + 1 := by rw [tableT]; omega
  exact ⟨Nat.le_trans (Nat.pow_le_pow_left below 32) low, Nat.le_trans high.le (Nat.pow_le_pow_left above 32)⟩

/-- Half of a root, rounded to the nearest integer with ties to even (R137). -/
theorem halfRoot_nearest {r den num : Nat} (low : r * r * den ≤ num) (high : num < (r + 1) * (r + 1) * den) :
    let q := if r % 2 = 1 ∧ ¬(r * r * den = num ∧ r / 2 % 2 = 0) then r / 2 + 1 else r / 2
    (2 * q - 1) ^ 2 * den ≤ num ∧ num ≤ (2 * q + 1) ^ 2 * den := by
  intro q
  have square {a b : Nat} (le : a ≤ b) : a ^ 2 * den ≤ b * b * den := by
    rw [Nat.pow_two]
    exact Nat.mul_le_mul_right den (Nat.mul_le_mul le le)
  have square' {a b : Nat} (le : a ≤ b) : a * a * den ≤ b ^ 2 * den := by
    rw [Nat.pow_two]
    exact Nat.mul_le_mul_right den (Nat.mul_le_mul le le)
  by_cases up : r % 2 = 1 ∧ ¬(r * r * den = num ∧ r / 2 % 2 = 0)
  · have hq : q = r / 2 + 1 := if_pos up
    exact ⟨(square (by omega)).trans low, high.le.trans (square' (by omega))⟩
  · have hq : q = r / 2 := if_neg up
    refine ⟨(square (by omega)).trans low, ?_⟩
    by_cases odd : r % 2 = 1
    · obtain ⟨exact_, -⟩ := not_not.mp fun no => up ⟨odd, no⟩
      exact exact_.ge.trans (square' (by omega))
    · exact high.le.trans (square' (by omega))

/-- RQ[j] is nearest to 2^24 over the root of its v, which the denominator gives (R137). -/
theorem tableRQ_nearest (j : Nat) :
    let den := (65 + 2 * (j % 32)) * 2 ^ (j / 32)
    (2 * tableRQ j - 1) ^ 2 * den ≤ 2 ^ 56 ∧ 2 ^ 56 ≤ (2 * tableRQ j + 1) ^ 2 * den := by
  intro den
  have pos : 0 < den := Nat.mul_pos (by omega) (Nat.two_pow_pos _)
  have small : 2 ^ 50 * 64 / den < 2 ^ 80 := Nat.lt_of_le_of_lt (Nat.div_le_self ..) (by decide)
  obtain ⟨low, high⟩ := isqrtFrom_floor 40 (Nat.zero_le _) (show 2 ^ 50 * 64 / den < (0 + 2 ^ 40) * (0 + 2 ^ 40) from small)
  exact halfRoot_nearest ((Nat.le_div_iff_mul_le pos).mp low) ((Nat.div_lt_iff_lt_mul pos).mp high)

theorem tableEntries : TableEntries := by
  refine ⟨fun j _ => ?first, fun j h => ?second⟩
  case first =>
    obtain ⟨low, high⟩ := rneDiv_nearest (2 ^ 24 * 128) (show 0 < 128 + 2 * j + 1 by omega)
    obtain ⟨low', high'⟩ := tableRQ_nearest j
    rw [show 129 + 2 * j = 128 + 2 * j + 1 by omega]
    exact ⟨low, high, low', high'⟩
  case second =>
    obtain ⟨low, high⟩ := rneDiv_nearest (2 ^ 30 * 64) (show 0 < 65 + 2 * j by omega)
    obtain ⟨low', high'⟩ := tableT_nearest h
    exact ⟨low', high', low, high⟩

end Sys2Proof.Machine

open Sys2Proof Sys2Proof.Machine

/-- Settles O18: the lanes by the lemma about their issue, the special inputs case by case, the tables by what a rounded quotient and a
bitwise root are. -/
theorem vectorApproximations : Obligations.VectorApproximations := ⟨approximationLanes, tableEntries⟩
end

section
/-! SUPPORT. Integer, logical and shift lanes (R143, R144). -/

namespace Sys2Proof.Machine

/-- A binary instruction on integer lanes gives the results of its lanes. -/
theorem vectorResult_of_int2 {s : State} {i : Instr} {d a b : VReg} {k : MReg} {x : Fin 16 → W32} (f : W32 → W32 → W32)
    (op : exec i s = int2 d a b k f s) (lanes : ∀ j, f ((s.tile.v a).get j) ((s.tile.v b).get j) = x j) :
    VectorResult s i vint d k [.v a, .v b] x none :=
  vectorResult_of_laneOp (fun t i => f ((t.v a).get i) ((t.v b).get i)) (by decide) op lanes

/-- A word as the integer that its type reads (R126). -/
def intVal (t : ElemTy) (x : W32) : Int := if t = .s32 then x.toInt else x.toNat

theorem leI_iff (t : ElemTy) (x y : W32) : leI t x y = true ↔ intVal t x ≤ intVal t y := by
  rw [leI, intVal, intVal]
  split_ifs
  · exact BitVec.sle_iff_toInt_le
  · rw [BitVec.ule_iff_toNat_le, Int.ofNat_le]

theorem ltI_iff (t : ElemTy) (x y : W32) : ltI t x y = true ↔ intVal t x < intVal t y := by
  rw [ltI, intVal, intVal]
  split_ifs
  · exact BitVec.slt_iff_toInt_lt
  · rw [BitVec.ult_iff_toNat_lt, Int.ofNat_lt]

theorem ofInt_intVal (t : ElemTy) (x : W32) : BitVec.ofInt 32 (intVal t x) = x := by
  rw [intVal]
  split_ifs
  · exact BitVec.ofInt_toInt
  · rw [BitVec.ofInt_natCast, BitVec.ofNat_toNat, BitVec.setWidth_eq]

/-! ## Sums and products -/

theorem add_lane (t : ElemTy) (x y : W32) : x + y = BitVec.ofInt 32 (intVal t x + intVal t y) := by
  rw [BitVec.ofInt_add, ofInt_intVal, ofInt_intVal]

theorem sub_lane (t : ElemTy) (x y : W32) : x - y = BitVec.ofInt 32 (intVal t x - intVal t y) := by
  rw [Int.sub_eq_add_neg, BitVec.ofInt_add, BitVec.ofInt_neg, ofInt_intVal, ofInt_intVal, BitVec.sub_eq_add_neg]

theorem mul_lane (t : ElemTy) (x y : W32) : x * y = BitVec.ofInt 32 (intVal t x * intVal t y) := by
  rw [BitVec.ofInt_mul, ofInt_intVal, ofInt_intVal]

/-! ## Shifts -/

theorem shiftLeft_lane (x : W32) (n : Nat) : x <<< n = BitVec.ofNat 32 (x.toNat * 2 ^ n) :=
  BitVec.eq_of_toNat_eq (by rw [BitVec.toNat_shiftLeft, Nat.shiftLeft_eq, BitVec.toNat_ofNat])

theorem shiftRight_lane (x : W32) (n : Nat) : x >>> n = BitVec.ofNat 32 (x.toNat / 2 ^ n) :=
  BitVec.eq_of_toNat_eq (by
    rw [BitVec.toNat_ushiftRight, Nat.shiftRight_eq_div_pow, BitVec.toNat_ofNat,
      Nat.mod_eq_of_lt (Nat.lt_of_le_of_lt (Nat.div_le_self ..) x.isLt)])

theorem sshiftRight_lane (x : W32) (n : Nat) : x.sshiftRight n = BitVec.ofInt 32 (x.toInt / 2 ^ n) := by
  rw [BitVec.sshiftRight, Int.shiftRight_eq_div_pow]
  push_cast
  rfl

/-- A shift by all bits but one leaves copies of the sign. -/
theorem sshiftRight_sign (x : W32) : x.sshiftRight 31 = if x.msb then BitVec.allOnes 32 else 0 := by
  have low := BitVec.le_toInt x
  have high := BitVec.toInt_lt (x := x)
  rw [sshiftRight_lane, BitVec.msb_eq_toInt]
  by_cases neg : x.toInt < 0
  · rw [decide_eq_true neg, if_pos rfl, show x.toInt / 2 ^ 31 = -1 by omega]
    rfl
  · rw [decide_eq_false neg, if_neg Bool.false_ne_true, show x.toInt / 2 ^ 31 = 0 by omega]
    rfl

/-- VSRA by 32 or more leaves copies of the sign (R144). -/
theorem vsra_lane (x y : W32) : x.sshiftRight (min y.toNat 31) =
    if y.toNat ≥ 32 then (if x.msb then BitVec.allOnes 32 else 0) else BitVec.ofInt 32 (x.toInt / 2 ^ y.toNat) := by
  by_cases far : y.toNat ≥ 32
  · rw [if_pos far, Nat.min_eq_right (by omega), sshiftRight_sign]
  · rw [if_neg far, Nat.min_eq_left (by omega), sshiftRight_lane]

end Sys2Proof.Machine

open Sys2Proof Sys2Proof.Machine

/-- Settles O19: every form by its lanes, whose results are those of the numbers that its type reads. -/
theorem vectorIntegers : Obligations.VectorIntegers := fun s d a b k t _ => by
  intro one val bits
  refine ⟨vectorResult_of_int2 _ (execVaddI.eq_def (_t := t) ..) fun _ => add_lane t _ _,
    vectorResult_of_int2 _ (execVsubI.eq_def (_t := t) ..) fun _ => sub_lane t _ _,
    vectorResult_of_int2 _ (execVmulI.eq_def (_t := t) ..) fun _ => mul_lane t _ _,
    vectorResult_of_int2 _ (execVminI.eq_def ..) fun _ => if_congr (leI_iff t _ _) rfl rfl,
    vectorResult_of_int2 _ (execVmaxI.eq_def ..) fun _ => if_congr (leI_iff t _ _) rfl rfl,
    ⟨_, vectorResult_of_int2 _ (execVand.eq_def ..) fun _ => rfl, fun x y j _ => BitVec.getLsbD_and⟩,
    ⟨_, vectorResult_of_int2 _ (execVor.eq_def ..) fun _ => rfl, fun x y j _ => BitVec.getLsbD_or⟩,
    ⟨_, vectorResult_of_int2 _ (execVxor.eq_def ..) fun _ => rfl, fun x y j _ => BitVec.getLsbD_xor⟩,
    vectorResult_of_int2 _ (execVshl.eq_def ..) fun _ => by rw [shiftLeft_lane],
    vectorResult_of_int2 _ (execVshr.eq_def ..) fun _ => by rw [shiftRight_lane],
    vectorResult_of_int2 _ (execVsra.eq_def ..) fun _ => vsra_lane _ _⟩
end

section
/-! SUPPORT. The vector compares (R141): their bits and their flags. -/

namespace Sys2Proof.Machine

/-! ## Issue -/

/-- What a compare leaves: bits of the enabled lanes in md, and flags (R128, R141). -/
def CompareResult (s : State) (i : Instr) (c : VClass) (d : MReg) (a b : VReg) (k : MReg) (r : Fin 16 → Prop)
    (f : Option (Fin 16 → FFlags)) : Prop :=
  s.tile.canIssue { regs := [.m d, .m k, .v a, .v b], reads := [.m k, .v a, .v b], unit := c.unit } →
    ∃ t, exec i s = .next t ∧ Frame s t [] 1 ∧ BitsAwaited s.tile t.tile c.lat d (LaneOn s.tile k) r f

section
variable {s : State} {i : Instr} {c : VClass} {d : MReg} {a b : VReg} {k : MReg} {f : W32 → W32 → Bool × FFlags} {r : Fin 16 → Prop}
  {g : Fin 16 → FFlags}

theorem compareResult_of_cmpOp {fl : Bool} {fo : Option (Fin 16 → FFlags)} (late : 1 < c.lat) (op : exec i s = cmpOp c d a b k fl f s)
    (bits : ∀ j, (f ((s.tile.v a).get j) ((s.tile.v b).get j)).1 = true ↔ r j)
    (flags : FlagsOf (LaneOn s.tile k) fo
      (if fl then some (lanesFlags (s.tile.enabled k) fun j => (f ((s.tile.v a).get j) ((s.tile.v b).get j)).2) else none)) :
    CompareResult s i c d a b k r fo := fun h => by
  obtain ⟨t, next, frame, writes⟩ := vecOp_await op h (Tile.lanes_await _ late ..)
  rw [Tile.vecIssue_cycle] at writes
  exact ⟨t, next, frame, bitsAwaited_of (s.tile.enabled_bit k) flags (fun j _ => by rw [maskOf_bit, bits]) writes⟩

/-- A compare of integers sets no flag (R141). -/
theorem compareResult_of_plain (late : 1 < c.lat) (op : exec i s = cmpOp c d a b k false f s)
    (bits : ∀ j, (f ((s.tile.v a).get j) ((s.tile.v b).get j)).1 = true ↔ r j) : CompareResult s i c d a b k r none :=
  compareResult_of_cmpOp late op bits flagsOf_none

theorem compareResult_of_flags (late : 1 < c.lat) (op : exec i s = cmpOp c d a b k true f s)
    (bits : ∀ j, (f ((s.tile.v a).get j) ((s.tile.v b).get j)).1 = true ↔ r j)
    (flags : ∀ j, (f ((s.tile.v a).get j) ((s.tile.v b).get j)).2 = g j) : CompareResult s i c d a b k r (some g) :=
  compareResult_of_cmpOp late op bits (flagsOf_lanes (s.tile.enabled_bit k) fun j _ => flags j)

end

/-! ## Floating-point compares -/

section
variable (quiet : Bool) (f : FVal → FVal → Bool) (x y : W32)

theorem fcmp_of_nan (unordered : Bool) (h : (f32 x).isNan = true ∨ (f32 y).isNan = true) : fcmp quiet unordered f x y =
    (unordered, if !quiet || (f32 x).isSnan || (f32 y).isSnan then 0x10 else 0) := if_pos ((Bool.or_eq_true ..).mpr h)

theorem fcmp_of_numbers (unordered : Bool) (h : ¬((f32 x).isNan = true ∨ (f32 y).isNan = true)) :
    fcmp quiet unordered f x y = (f (f32 x) (f32 y), 0) := if_neg fun nan => h ((Bool.or_eq_true ..).mp nan)

/-- A compare that is false of a NaN. -/
theorem fcmp_ordered : (fcmp quiet false f x y).1 = true ↔
    ¬((f32 x).isNan = true ∨ (f32 y).isNan = true) ∧ f (f32 x) (f32 y) = true := by
  by_cases h : (f32 x).isNan = true ∨ (f32 y).isNan = true
  · rw [fcmp_of_nan _ _ _ _ _ h]
    exact ⟨nofun, fun k => absurd h k.1⟩
  · rw [fcmp_of_numbers _ _ _ _ _ h]
    exact (and_iff_right h).symm

/-- A compare that is true of a NaN. -/
theorem fcmp_unordered : (fcmp quiet true f x y).1 = true ↔
    ((f32 x).isNan = true ∨ (f32 y).isNan = true) ∨ f (f32 x) (f32 y) = true := by
  by_cases h : (f32 x).isNan = true ∨ (f32 y).isNan = true
  · rw [fcmp_of_nan _ _ _ _ _ h]
    exact iff_of_true rfl (.inl h)
  · rw [fcmp_of_numbers _ _ _ _ _ h]
    exact (or_iff_right h).symm

theorem FVal.isNan_of_isSnan {p : FVal} (h : p.isSnan = true) : p.isNan = true := by
  cases p with
  | nan s => rfl
  | inf n => exact nomatch h
  | fin n a b => exact nomatch h

/-- A quiet compare sets NV for a signalling NaN (R141). -/
theorem fcmp_quiet_flags (unordered : Bool) : (fcmp true unordered f x y).2 = if (f32 x).isSnan || (f32 y).isSnan then 0x10 else 0 := by
  by_cases h : (f32 x).isNan = true ∨ (f32 y).isNan = true
  · rw [fcmp_of_nan _ _ _ _ _ h]
    rfl
  · rw [fcmp_of_numbers _ _ _ _ _ h, if_neg]
    exact fun signals => h (((Bool.or_eq_true ..).mp signals).imp FVal.isNan_of_isSnan FVal.isNan_of_isSnan)

/-- The other compares set NV for every NaN (R141). -/
theorem fcmp_loud_flags (unordered : Bool) : (fcmp false unordered f x y).2 = if (f32 x).isNan || (f32 y).isNan then 0x10 else 0 := by
  by_cases h : (f32 x).isNan = true ∨ (f32 y).isNan = true
  · rw [fcmp_of_nan _ _ _ _ _ h, if_pos ((Bool.or_eq_true ..).mpr h)]
    rfl
  · rw [fcmp_of_numbers _ _ _ _ _ h, if_neg fun nan => h ((Bool.or_eq_true ..).mp nan)]

end

end Sys2Proof.Machine

open Sys2Proof Sys2Proof.Machine

/-- Settles O20: each compare by its bits on numbers and on NaN, and by its flags. -/
theorem vectorCompares : Obligations.VectorCompares := fun s d a b k t _ => by
  intro x y one nan quiet loud eq lt val
  have negated (i : Fin 16) : (!FVal.eq (f32 (x i)) (f32 (y i))) = true ↔ ¬eq i := by rw [Bool.not_eq_true', Bool.not_eq_true]
  refine ⟨compareResult_of_flags (by decide) (execVcmpEqF.eq_def ..) (fun _ => fcmp_ordered ..) (fun _ => fcmp_quiet_flags ..),
    compareResult_of_flags (by decide) (execVcmpNeF.eq_def ..) (fun i => (fcmp_unordered ..).trans (or_congr_right (negated i)))
      (fun _ => fcmp_quiet_flags ..),
    compareResult_of_flags (by decide) (execVcmpLtF.eq_def ..) (fun _ => fcmp_ordered ..) (fun _ => fcmp_loud_flags ..),
    compareResult_of_flags (by decide) (execVcmpLeF.eq_def ..)
      (fun _ => (fcmp_ordered ..).trans (and_congr_right fun _ => Bool.or_eq_true_iff)) (fun _ => fcmp_loud_flags ..),
    compareResult_of_flags (by decide) (execVcmpUnF.eq_def ..) (fun _ => (fcmp_unordered ..).trans (or_iff_left nofun))
      (fun _ => fcmp_quiet_flags ..),
    compareResult_of_plain (by decide) (execVcmpEqI.eq_def (_t := t) ..) fun _ => beq_iff_eq,
    compareResult_of_plain (by decide) (execVcmpNeI.eq_def (_t := t) ..) fun _ => bne_iff_ne,
    compareResult_of_plain (by decide) (execVcmpLtI.eq_def ..) fun _ => ltI_iff t _ _,
    compareResult_of_plain (by decide) (execVcmpLeI.eq_def ..) fun _ => leI_iff t _ _⟩
end

section
/-! SUPPORT. The mask instructions, the counts of lanes and VSETVL (R132, R161, R162). -/

namespace Sys2Proof.Machine

/-! ## Bits of the active lanes -/

/-- A mask instruction gives bits to the active lanes (R128, R161). -/
theorem maskOp_next {s : State} {i : Instr} {d : MReg} {reads : List RegName} {f : Tile → Mask} {x : Fin 16 → Prop}
    (op : exec i s = maskOp d reads f s) (values : ∀ j : Fin 16, (f s.tile).getLsbD j.val = true ↔ x j)
    (h : s.tile.canIssue { regs := .m d :: reads, reads := reads, unit := .vpipe }) :
    ∃ t, exec i s = .next t ∧ Frame s t [] 1 ∧ BitsAwaited s.tile t.tile 2 d (fun j => j.val < s.tile.regs.vl.val) x none := by
  obtain ⟨t, next, frame, writes⟩ := vecOp_await op h (Tile.lanes_await _ (by decide) ..)
  rw [Tile.vecIssue_cycle] at writes
  have bits (j : Fin 16) : s.tile.active.getLsbD j.val = true ↔ j.val < s.tile.regs.vl.val := by
    rw [s.tile.active_bit, decide_eq_true_iff]
  exact ⟨t, next, frame, bitsAwaited_of bits flagsOf_none (fun j _ => values j) writes⟩

/-! ## Scalar results -/

/-- A vector instruction whose scalar result waits (R240). -/
theorem lateResult_of_vecOp {s : State} {i : Instr} {c : VClass} {d : GReg} {reads : List RegName} {body : Tile → Tile} {en : Mask}
    {x : Word} (op : exec i s = vecOp c [.g d] reads body s) (late : 1 < c.lat)
    (hb : body s.tile = (s.tile.vecIssue c en reads).result c.lat (.g d x)) : LateResult s i d reads c.unit c.lat x := fun h => by
  rw [Tile.result_await _ late, Tile.vecIssue_cycle] at hb
  exact vecOp_await op h hb

theorem lateResult_of_toScalar {s : State} {i : Instr} {d : GReg} {reads : List RegName} {x : Word} (f : Tile → Word)
    (op : exec i s = toScalar d reads f s) (hx : f s.tile = x) : LateResult s i d reads .vpipe 2 x :=
  lateResult_of_vecOp (c := vint) op (by decide) (by rw [hx])

theorem Tile.laneCount_enabled (t : Tile) (k : MReg) : laneCount (t.enabled k) =
    (List.finRange 16).countP fun i => decide (i.val < t.regs.vl.val) && (t.m k).getLsbD i.val := by
  rw [laneCount, ← List.map_coe_finRange_eq_range, List.countP_map]
  refine congrArg (fun p => List.countP p (List.finRange 16)) (funext fun i => ?_)
  rw [Function.comp_apply, Tile.enabled, BitVec.getLsbD_and, t.active_bit]

/-- MFIRST finds the lowest lane that is on (R162). -/
theorem Tile.firstLane_some {t : Tile} {k : MReg} {i : Fin 16} (on : LaneOn t k i) (least : ∀ j, LaneOn t k j → i ≤ j) :
    (List.range 16).find? (fun i => (t.enabled k).getLsbD i) = some i.val := by
  rw [List.find?_range_eq_some]
  refine ⟨(t.enabled_bit k i).mpr on, List.mem_range.mpr i.isLt, fun j hj => ?_⟩
  rw [Bool.not_eq_true', Bool.eq_false_iff]
  exact fun bit => absurd (least ⟨j, by omega⟩ ((t.enabled_bit k ⟨j, by omega⟩).mp bit)) (Nat.not_le.mpr hj)

theorem Tile.firstLane_none {t : Tile} {k : MReg} (off : ∀ i, ¬LaneOn t k i) :
    (List.range 16).find? (fun i => (t.enabled k).getLsbD i) = none := by
  rw [(t.enabled_eq_zero k).mpr off, List.find?_eq_none]
  exact fun j _ => by simp

theorem vsetvl_next {s : State} {g h : GReg} (hi : s.tile.canIssue { regs := [.g g, .g h], reads := [.g h], unit := .vpipe }) :
    ∃ t, exec (.vsetvl g h) s = .next t ∧ SameModule s t ∧ s.tile.SameUnits t.tile ∧ t.tile.ops = s.tile.ops ∧ s.tile.SamePad t.tile ∧
      s.tile.SameG t.tile [] ∧ s.tile.SameV t.tile ∧ s.tile.SameM t.tile ∧ s.tile.NextPc t.tile 1 ∧
      t.tile.regs.vl.val = min (s.tile.g h).toNat 16 ∧
      t.tile.regs = { s.tile.regs with perf := t.tile.regs.perf, vl := t.tile.regs.vl } ∧
      s.tile.Awaiting t.tile 2 (.g g (BitVec.ofNat 64 (min (s.tile.g h).toNat 16))) none := by
  obtain ⟨⟨units, ops, pad, ⟨keepG, keepV, keepM, special⟩, pc⟩, writes, cycle⟩ := s.tile.vecIssue_keeps vint 0 [.g h]
  have regs := s.tile.vecIssue_regs vint 0 [.g h]
  refine ⟨_, (execVsetvl.eq_def ..).trans (vecOp_next hi), rfl, units, ops, pad, keepG, keepV, keepM, pc, rfl, ?regs, ?awaits⟩
  case regs => exact congrArg (fun r : Regs => { r with vl := ⟨min (s.tile.g h).toNat 16, by omega⟩ }) regs
  case awaits =>
    rw [Tile.Awaiting, ← writes, ← cycle]
    rfl

end Sys2Proof.Machine

open Sys2Proof Sys2Proof.Machine

/-- Settles O21: the bits of each mask instruction, the count and the lowest of the lanes that are on, and VL. -/
theorem masksAndLength : Obligations.MasksAndLength := fun s d a b g h => by
  intro on bit one
  refine ⟨maskOp_next (execMand.eq_def ..) ?and, maskOp_next (execMor.eq_def ..) ?or, maskOp_next (execMxor.eq_def ..) ?xor,
    maskOp_next (execMnot.eq_def ..) ?not, maskOp_next (execMset.eq_def ..) ?set, maskOp_next (execMlane.eq_def ..) ?lane,
    lateResult_of_toScalar _ (execMpop.eq_def ..) ?mpop, fun i hi least => lateResult_of_toScalar _ (execMfirst.eq_def ..) ?first,
    fun off => lateResult_of_toScalar _ (execMfirst.eq_def ..) ?absent, vsetvl_next⟩
  case and => exact fun j => by rw [BitVec.getLsbD_and, Bool.and_eq_true]
  case or => exact fun j => by rw [BitVec.getLsbD_or, Bool.or_eq_true]
  case xor => exact fun j => by rw [BitVec.getLsbD_xor, Bool.xor_iff_ne, ne_eq, Bool.eq_iff_iff]
  case not => exact fun j => by rw [BitVec.getLsbD_not, decide_eq_true j.isLt, Bool.true_and, Bool.not_eq_true', Bool.eq_false_iff]
  case set => exact fun j => by rw [BitVec.truncate_eq_setWidth, BitVec.getLsbD_setWidth, decide_eq_true j.isLt, Bool.true_and]
  case lane => exact fun j => by rw [maskOf_bit, decide_eq_true_iff]
  case mpop => exact congrArg w64 (s.tile.laneCount_enabled a)
  case first =>
    rw [Tile.firstLane_some hi least]
    rfl
  case absent => rw [Tile.firstLane_none off]
end

section
/-! SUPPORT. Selection, broadcast and lane moves (R142, R145 to R147). -/

namespace Sys2Proof.Machine

section
variable {s : State} {d a b : VReg} {k : MReg} {g h : GReg}

theorem vsel_next (hi : s.tile.canIssue { regs := [.v d, .m k, .v a, .v b], reads := [.m k, .v a, .v b], unit := .vpipe }) :
    ∃ t, exec (.vsel d a b k) s = .next t ∧ Frame s t [] 1 ∧ LanesAwaited s.tile t.tile 2 d (fun i => i.val < s.tile.regs.vl.val)
      (fun i => if (s.tile.m k).getLsbD i.val then (s.tile.v a).get i else (s.tile.v b).get i) none :=
  vecOp_lanes (c := vint) (execVsel.eq_def ..) (by decide) (fun i => by rw [s.tile.active_bit, decide_eq_true_iff])
    (fun i _ => lanesOf_get ..) hi

theorem vmovs_result {x : Word} (inside : ∀ i : Fin 16, i.val = (s.tile.g h).toNat → x = BitVec.ofNat 64 ((s.tile.v a).get i).toNat)
    (outside : (s.tile.g h).toNat ≥ 16 → x = 0) : LateResult s (.vmovs g a h) g [.v a, .g h] .vpipe 2 x := by
  have value : (if lt : (s.tile.g h).toNat < 16 then ((s.tile.v a).get ⟨(s.tile.g h).toNat, lt⟩).zeroExtend 64 else 0) = x := by
    split_ifs with lt
    · exact (zeroExtend_word _).trans (inside ⟨_, lt⟩ rfl).symm
    · exact (outside (Nat.not_lt.mp lt)).symm
  exact lateResult_of_vecOp (c := vint) (en := 0) (execVmovs.eq_def ..) (by decide) (by rw [← value])

/-- The lane that VINS writes, where it is active (R145). -/
theorem insertedLane_bit {n vl : Nat} (i : Fin 16) :
    (if n < vl then BitVec.ofNat 16 (2 ^ n) else 0 : Mask).getLsbD i.val = true ↔ i.val < vl ∧ i.val = n := by
  split_ifs with active
  · rw [BitVec.getLsbD_ofNat, Nat.testBit_two_pow, decide_eq_true i.isLt, Bool.true_and, decide_eq_true_iff]
    omega
  · rw [BitVec.ofNat_eq_ofNat, BitVec.getLsbD_zero]
    exact ⟨nofun, fun here => absurd here.1 (here.2 ▸ active)⟩

theorem truncate_lane (x : Word) : x.truncate 32 = BitVec.ofNat 32 x.toNat := (BitVec.ofNat_toNat 32 x).symm

theorem vins_next (hi : s.tile.canIssue { regs := [.v d, .g g, .g h], reads := [.g g, .g h], unit := .vpipe }) :
    ∃ t, exec (.vins d g h) s = .next t ∧ Frame s t [] 1 ∧
      LanesAwaited s.tile t.tile 2 d (fun i => i.val < s.tile.regs.vl.val ∧ i.val = (s.tile.g h).toNat)
        (fun _ => BitVec.ofNat 32 (s.tile.g g).toNat) none :=
  vecOp_lanes (c := vint) (execVins.eq_def ..) (by decide) (fun i => insertedLane_bit i)
    (fun i _ => (lanesOf_get ..).trans (truncate_lane _)) hi

end

end Sys2Proof.Machine

open Sys2Proof Sys2Proof.Machine

/-- Settles O22: the lane-by-lane forms by their lanes, the others by the lane that each of them names. -/
theorem laneMoves : Obligations.LaneMoves := fun s d a b k g h p =>
  ⟨vsel_next, vectorResult_of_laneOp _ (by decide) (execVbcast.eq_def ..) fun _ => truncate_lane _, fun _ => vmovs_result, vins_next,
    vectorResult_of_laneOp _ (by decide) (execVshuf.eq_def ..) fun _ => rfl,
    vectorResult_of_laneOp _ (by decide) (execVslide.eq_def ..) fun _ => rfl⟩
end

section
/-! SUPPORT. The vector instructions that may draw (R53, R148, R149). -/

namespace Sys2Proof.Machine

/-- A tile with another draw counter (R53). -/
def Tile.withDraws (t : Tile) (n : Word) : Tile := { t with regs := { t.regs with draws := n } }

/-- The draw counter advances by one where a condition holds, and nothing else changes (R53). -/
def Tile.Draws (a b : Tile) (p : Prop) : Prop :=
  ∃ n, b = a.withDraws n ∧ (p → n = a.regs.draws + 1) ∧ (¬p → n = a.regs.draws)

theorem Tile.draws_drawn (t : Tile) : t.Draws t.drawn (1 ≤ t.regs.vl.val) := by
  rw [Tile.drawn]
  split_ifs with some
  · exact ⟨_, rfl, fun _ => rfl, fun none => absurd some none⟩
  · exact ⟨_, rfl, fun some' => absurd some' some, fun _ => rfl⟩

theorem Tile.draws_drawnConv (t : Tile) : t.Draws t.drawnConv (t.regs.fmode.val = 4 ∧ 1 ≤ t.regs.vl.val) := by
  rw [Tile.drawnConv]
  split_ifs with stoch
  · obtain ⟨n, same, once, kept⟩ := t.draws_drawn
    exact ⟨n, same, fun p => once p.2, fun no => kept fun some => no ⟨Fin.ext_iff.mp stoch, some⟩⟩
  · exact ⟨_, rfl, fun p => absurd (Fin.ext p.1) stoch, fun _ => rfl⟩

theorem Tile.vecIssue_withDraws (t : Tile) (n : Word) (c : VClass) (en : Mask) (reads : List RegName) :
    let w := (t.withDraws n).vecIssue c en reads
    w.regs = { t.regs with perf := w.regs.perf, draws := w.regs.draws } ∧ w.regs.draws = n := by
  intro w
  have regs : w.regs = { t.regs with perf := w.regs.perf, draws := n } := Tile.vecIssue_regs ..
  have draws : w.regs.draws = n := by rw [regs]
  exact ⟨by rw [draws]; exact regs, draws⟩

/-- A vector instruction that draws and leaves results to be written. -/
theorem vecOp_draw {s : State} {i : Instr} {c : VClass} {dst reads : List RegName} {body : Tile → Tile} {en : Mask} {u : Tile} {p : Prop}
    {ws : List PendWrite} (op : exec i s = vecOp c dst reads body s) (draws : s.tile.Draws u p)
    (h : s.tile.canIssue { regs := dst ++ reads, reads := reads, unit := c.unit }) (hb : body s.tile = (u.vecIssue c en reads).await ws) :
    ∃ t, exec i s = .next t ∧ DrawFrame s t p ∧ t.tile.iss.writes = s.tile.iss.writes ++ ws := by
  obtain ⟨n, rfl, once, kept⟩ := draws
  obtain ⟨⟨units, ops, pad, ⟨g, v, m, -⟩, pc⟩, writes, -⟩ := (s.tile.withDraws n).vecIssue_keeps c en reads
  obtain ⟨regs, drawn⟩ := s.tile.vecIssue_withDraws n c en reads
  refine ⟨_, op.trans (vecOp_next h), ?_⟩
  rw [State.upd, hb]
  exact ⟨⟨rfl, units, ops, pad, pc, g, v, m, regs, fun hp => drawn.trans (once hp), fun hp => drawn.trans (kept hp)⟩,
    congrArg (· ++ ws) writes⟩

theorem Tile.Draws.cycle {a b : Tile} {p : Prop} (h : a.Draws b p) : b.iss.cycle = a.iss.cycle := by
  obtain ⟨n, rfl, -⟩ := h
  rfl

/-- A vector instruction that draws and writes lanes of vd. -/
theorem vecOp_drawLanes {s : State} {i : Instr} {c : VClass} {d : VReg} {k : MReg} {reads : List RegName} {u : Tile → Tile}
    {y : Tile → VVal} {w : Tile → Option FFlags} {p : Prop} {x : Fin 16 → W32} {f : Option (Fin 16 → FFlags)}
    (op : exec i s = vecOp c [.v d] (.m k :: reads) (fun t => ((u t).vecIssue c (t.enabled k) (.m k :: reads)).putV c.lat d (t.enabled k)
      (y t) (w t)) s) (late : 1 < c.lat) (draws : s.tile.Draws (u s.tile) p)
    (values : ∀ i, LaneOn s.tile k i → (y s.tile).get i = x i) (flags : FlagsOf (LaneOn s.tile k) f (w s.tile))
    (h : s.tile.canIssue { regs := .v d :: .m k :: reads, reads := .m k :: reads, unit := c.unit }) :
    ∃ t, exec i s = .next t ∧ DrawFrame s t p ∧ LanesAwaited s.tile t.tile c.lat d (LaneOn s.tile k) x f := by
  obtain ⟨t, next, frame, writes⟩ := vecOp_draw op draws h (Tile.putV_await _ late ..)
  rw [Tile.vecIssue_cycle, draws.cycle] at writes
  exact ⟨t, next, frame, lanesAwaited_of (s.tile.enabled_bit k) flags values writes⟩

end Sys2Proof.Machine

open Sys2Proof Sys2Proof.Machine

/-- Settles O23: the lanes get the words of the draw, which the counter leaves behind where VL is at least 1. -/
theorem randomLanes : Obligations.RandomLanes := fun s _ _ =>
  vecOp_drawLanes (c := vblock) (execVrng.eq_def ..) (by decide) s.tile.draws_drawn (fun _ _ => lanesOf_get ..) flagsOf_none
end

section
/-! SUPPORT. Reductions over the fixed tree (R150, R151): the levels of the tree with the flags of their operations, and the root. -/

namespace Sys2Proof.Machine

/-! ## The tree -/

section
variable (f : Nat → Nat → Rounded)

/-- Two neighbours combined, with the flags of both and of the operation (R150). -/
def treeNode (x y : Rounded) : Rounded := ⟨(f x.bits y.bits).bits, x.flags ||| y.flags ||| (f x.bits y.bits).flags⟩

/-- A level of the tree on values that carry their flags. -/
def treeNodes : List Rounded → List Rounded
  | x :: y :: l => treeNode f x y :: treeNodes l
  | l => l

/-- The flags of some values together. -/
def flagUnion (l : List Rounded) : FFlags := l.foldr (fun r x => r.flags ||| x) 0

theorem flagUnion_clear {α : Type} (v : α → Nat) (l : List α) : flagUnion (l.map fun i => ⟨v i, 0⟩) = 0#5 := by
  induction l with
  | nil => rfl
  | cons i l ih => exact (congrArg (0#5 ||| ·) ih).trans (BitVec.or_self ..)

/-- A level gives the values of its nodes, and the flags of its own operations. -/
theorem treeLevel_nodes (l : List Rounded) : (treeLevel f (l.map Rounded.bits)).1 = (treeNodes f l).map Rounded.bits ∧
    flagUnion (treeNodes f l) = flagUnion l ||| (treeLevel f (l.map Rounded.bits)).2 := by
  match l with
  | [] => exact ⟨rfl, (BitVec.or_self ..).symm⟩
  | [x] => exact ⟨rfl, (BitVec.or_zero ..).symm⟩
  | x :: y :: l =>
    obtain ⟨values, flags⟩ := treeLevel_nodes l
    refine ⟨congrArg (_ :: ·) values, ?_⟩
    show x.flags ||| y.flags ||| (f x.bits y.bits).flags ||| flagUnion (treeNodes f l) =
      x.flags ||| (y.flags ||| flagUnion l) ||| ((f x.bits y.bits).flags ||| (treeLevel f (l.map Rounded.bits)).2)
    rw [flags]
    ac_rfl

/-- Four levels of the tree, with the flags of all of them (R150). -/
theorem tree16_nodes (l : List Rounded) (clear : flagUnion l = 0#5) :
    tree16 f (l.map Rounded.bits) = (((treeNodes f (treeNodes f (treeNodes f (treeNodes f l)))).map Rounded.bits).headD 0,
      flagUnion (treeNodes f (treeNodes f (treeNodes f (treeNodes f l))))) := by
  obtain ⟨v1, f1⟩ := treeLevel_nodes f l
  obtain ⟨v2, f2⟩ := treeLevel_nodes f (treeNodes f l)
  obtain ⟨v3, f3⟩ := treeLevel_nodes f (treeNodes f (treeNodes f l))
  obtain ⟨v4, f4⟩ := treeLevel_nodes f (treeNodes f (treeNodes f (treeNodes f l)))
  rw [f4, f3, f2, f1, clear, BitVec.zero_or, ← v4]
  simp only [tree16, v1, v2, v3]

/-- The root of the tree over 16 lanes whose values carry no flag. -/
theorem tree16_root (ins : Fin 16 → Nat) : tree16 f ((List.finRange 16).map ins) =
    ((treeRoot (treeNode f) fun i => ⟨ins i, 0⟩).bits, (treeRoot (treeNode f) fun i => ⟨ins i, 0⟩).flags) := by
  have leaves : (List.finRange 16).map ins = ((List.finRange 16).map fun i => (⟨ins i, 0⟩ : Rounded)).map Rounded.bits := by
    rw [List.map_map]
    rfl
  have root : treeNodes f (treeNodes f (treeNodes f (treeNodes f ((List.finRange 16).map fun i => ⟨ins i, 0⟩)))) =
      [treeRoot (treeNode f) fun i => ⟨ins i, 0⟩] := rfl
  rw [leaves, tree16_nodes f _ (flagUnion_clear ..), root]
  exact congrArg _ (BitVec.or_zero ..)

end

/-! ## The instructions -/

/-- What a reduction leaves: the root in every lane that is on, with the flags of the tree (R150, R151). -/
def ReductionResult (s : State) (i : Instr) (d a : VReg) (k : MReg) (fl : Bool) (neutral : Nat) (f : Nat → Nat → Rounded) : Prop :=
  s.tile.canIssue { regs := [.v d, .m k, .v a], reads := [.m k, .v a], unit := .vpipe } →
    ∃ t, exec i s = .next t ∧ Frame s t [] 1 ∧ ∀ ins : Fin 16 → Nat,
      (∀ i, LaneOn s.tile k i → ins i = ((s.tile.v a).get i).toNat) → (∀ i, ¬LaneOn s.tile k i → ins i = neutral) →
      let root := treeRoot (treeNode f) fun i => ⟨ins i, 0⟩
      ((∃ i, LaneOn s.tile k i) → ∃ (lanes : Mask) (y : VVal), (∀ i : Fin 16, lanes.getLsbD i.val = true ↔ LaneOn s.tile k i) ∧
        (∀ i, LaneOn s.tile k i → y.get i = BitVec.ofNat 32 root.bits) ∧
        s.tile.Awaiting t.tile 10 (.v d lanes y) (if fl then some root.flags else none)) ∧
      ((∀ i, ¬LaneOn s.tile k i) → t.tile.iss.writes = s.tile.iss.writes)

/-- The root of a tile's lanes and the flags of the tree, a lane that is not enabled with its neutral value (R150). -/
def Tile.reduction (t : Tile) (a : VReg) (k : MReg) (neutral : Nat) (f : Nat → Nat → Rounded) : Nat × FFlags :=
  tree16 f ((List.finRange 16).map fun i => if (t.enabled k).getLsbD i.val then ((t.v a).get i).toNat else neutral)

theorem reduceOp_eq (d a : VReg) (k : MReg) (fl : Bool) (neutral : Nat) (f : Tile → Nat → Nat → Rounded) :
    reduceOp d a k fl neutral f = vecOp vred [.v d] [.m k, .v a] fun t =>
      (t.vecIssue vred (t.enabled k) [.m k, .v a]).putV vred.lat d (t.enabled k)
        (lanesOf fun _ => BitVec.ofNat 32 (t.reduction a k neutral (f t)).1)
        (if fl then some (t.reduction a k neutral (f t)).2 else none) := rfl

/-- The values that enter the tree determine its root. -/
theorem Tile.reduction_root {t : Tile} {a : VReg} {k : MReg} {neutral : Nat} (f : Nat → Nat → Rounded) {ins : Fin 16 → Nat}
    (on : ∀ i, LaneOn t k i → ins i = ((t.v a).get i).toNat) (off : ∀ i, ¬LaneOn t k i → ins i = neutral) :
    t.reduction a k neutral f =
      ((treeRoot (treeNode f) fun i => ⟨ins i, 0⟩).bits, (treeRoot (treeNode f) fun i => ⟨ins i, 0⟩).flags) := by
  have lanes : (fun i : Fin 16 => if (t.enabled k).getLsbD i.val then ((t.v a).get i).toNat else neutral) = ins :=
    funext fun i => by
      split_ifs with here
      · exact (on i ((t.enabled_bit k i).mp here)).symm
      · exact (off i fun hi => here ((t.enabled_bit k i).mpr hi)).symm
  rw [Tile.reduction, lanes, tree16_root]

theorem reductionResult_of_reduceOp {s : State} {i : Instr} {d a : VReg} {k : MReg} {fl : Bool} {neutral : Nat} {f : Nat → Nat → Rounded}
    (g : Tile → Nat → Nat → Rounded) (op : exec i s = reduceOp d a k fl neutral g s) (hg : ∀ x y, g s.tile x y = f x y) :
    ReductionResult s i d a k fl neutral f := fun h => by
  obtain rfl : g s.tile = f := funext fun x => funext (hg x)
  obtain ⟨t, next, frame, awaits, writes⟩ := vecOp_putV (c := vred) (d := d) (x := fun t => lanesOf fun _ =>
    BitVec.ofNat 32 (t.reduction a k neutral (g t)).1) (w := fun t => if fl then some (t.reduction a k neutral (g t)).2 else none)
    (by decide) h
  rw [← reduceOp_eq] at next
  refine ⟨t, op.trans next, frame, fun ins on off => ⟨fun hi => ?_, writes⟩⟩
  rw [Tile.reduction_root (g s.tile) on off] at awaits
  exact ⟨_, _, s.tile.enabled_bit k, fun i _ => lanesOf_get .., awaits hi⟩

theorem greater_signed (x y : Nat) :
    greater true x y = ⟨if (BitVec.ofNat 32 x).toInt ≥ (BitVec.ofNat 32 y).toInt then x else y, 0⟩ :=
  congrArg (Rounded.mk · 0) (if_congr BitVec.sle_iff_toInt_le rfl rfl)

theorem greater_natural (x y : Nat) : greater false x y = ⟨if x % 2 ^ 32 ≥ y % 2 ^ 32 then x else y, 0⟩ :=
  congrArg (Rounded.mk · 0) (if_congr (by rw [if_neg Bool.false_ne_true, BitVec.ule_iff_toNat_le, BitVec.toNat_ofNat, BitVec.toNat_ofNat]) rfl rfl)

end Sys2Proof.Machine

open Sys2Proof Sys2Proof.Machine

/-- Settles O24: each form by its operation, over the tree whose levels carry the flags of their operations upward. -/
theorem vectorReductions : Obligations.VectorReductions := fun s d a k => by
  intro one exact_
  have result {i : Instr} {fl : Bool} {neutral : Nat} {f : Nat → Nat → Rounded} (h : ReductionResult s i d a k fl neutral f) :
      one i fl neutral f := h
  clear_value one
  exact ⟨result (reductionResult_of_reduceOp _ (execVredsumF.eq_def ..) fun _ _ => rfl),
    result (reductionResult_of_reduceOp _ (execVredsumI.eq_def (_t := .s32) ..) fun _ _ => rfl),
    result (reductionResult_of_reduceOp _ (execVredsumI.eq_def (_t := .n32) ..) fun _ _ => rfl),
    result (reductionResult_of_reduceOp _ (execVredmax.eq_def (t := .f32) ..) fun _ _ => rfl),
    result (reductionResult_of_reduceOp _ (execVredmax.eq_def (t := .s32) ..) greater_signed),
    result (reductionResult_of_reduceOp _ (execVredmax.eq_def (t := .n32) ..) greater_natural)⟩
end

section
/-! SUPPORT. VCVT and the block conversions (R126, R152 to R154). -/

namespace Sys2Proof.Machine

/-- The random value of an element in a conversion that draws (R53): 16 bits of the word of its lane. -/
def Tile.randomOf (t : Tile) (e : Nat) : Nat := (t.rng (e % 16)).toNat / 2 ^ (16 * (e / 16)) % 65536

theorem Tile.randomOf_lane (t : Tile) (i : Fin 16) : t.randomOf i.val = (t.rng i.val).toNat % 65536 := by
  rw [Tile.randomOf, Nat.mod_eq_of_lt i.isLt, Nat.div_eq_of_lt i.isLt, Nat.mul_zero, Nat.pow_zero, Nat.div_one]

/-! ## VCVT -/

/-- The conversion of a lane (R152). -/
def Tile.converted (t : Tile) (a : VReg) (src dst : ElemTy) (i : Fin 16) : Rounded :=
  convertElem (RMode.conv t.regs.fmode (t.randomOf i.val)) dst (readElem src ((t.v a).get i))

section
variable {s : State} {d a : VReg} {k : MReg}

theorem vcvt_next {src dst : ElemTy} (h : s.tile.canIssue { regs := [.v d, .m k, .v a], reads := [.m k, .v a], unit := .vpipe }) :
    ∃ t, exec (.vcvt d a k src dst) s = .next t ∧ DrawFrame s t (s.tile.regs.fmode.val = 4 ∧ 1 ≤ s.tile.regs.vl.val) ∧
      LanesAwaited s.tile t.tile 4 d (LaneOn s.tile k) (fun i => BitVec.ofNat 32 (s.tile.converted a src dst i).bits)
        (if isFp src || isFp dst then some fun i => (s.tile.converted a src dst i).flags else none) := by
  have lane (i : Fin 16) (on : LaneOn s.tile k i) : (Vector.ofFn fun i : Fin 16 => if (s.tile.enabled k).getLsbD i.val then
      convertElem (RMode.conv s.tile.regs.fmode ((s.tile.rng i.val).toNat % 65536)) dst (readElem src ((s.tile.v a).get i))
      else ⟨0, 0⟩).get i = s.tile.converted a src dst i := by
    rw [vget_ofFn, if_pos ((s.tile.enabled_bit k i).mpr on), Tile.converted, Tile.randomOf_lane]
  refine vecOp_drawLanes (c := vfp) (execVcvt.eq_def ..) (by decide) s.tile.draws_drawnConv (fun i on => ?value) ?flags h
  case value => rw [lanesOf_get, lane i on]
  case flags =>
    split_ifs
    · exact flagsOf_lanes (s.tile.enabled_bit k) fun i on => congrArg Rounded.flags (lane i on)
    · exact flagsOf_none

/-! ## VPACK.LB -/

/-- A flag of some elements together is set when one of those chosen sets it. -/
theorem chosenFlags_bit {α : Type} (p : α → Bool) (f : α → FFlags) (l : List α) (x : FFlags) (j : Nat) :
    (l.foldl (fun x e => if p e then x ||| f e else x) x).getLsbD j = true ↔
      x.getLsbD j = true ∨ ∃ e ∈ l, p e = true ∧ (f e).getLsbD j = true := by
  induction l generalizing x with
  | nil => simp
  | cons e l ih =>
    rw [List.foldl_cons, ih, List.exists_mem_cons_iff]
    by_cases on : p e = true
    · rw [if_pos on, BitVec.getLsbD_or, Bool.or_eq_true, or_assoc, and_iff_right on]
    · have off : ¬(p e = true ∧ (f e).getLsbD j = true) := fun h => on h.1
      rw [if_neg on, or_iff_right off]

/-- The flags of the 32 elements of a block, those of the lanes that are on (R153). -/
theorem packFlags {en : Mask} {on : Fin 16 → Prop} {fl : List FFlags} (bits : ∀ i : Fin 16, en.getLsbD i.val = true ↔ on i)
    (len : fl.length = 32) : FlagsOf on (some fun i => fl.getD i.val 0 ||| fl.getD (i.val + 16) 0)
      (some (fl.zipIdx.foldl (fun x e => if en.getLsbD (e.2 % 16) then x ||| e.1 else x) 0)) := by
  refine ⟨_, rfl, fun j => ?_⟩
  rw [chosenFlags_bit (fun e : FFlags × Nat => en.getLsbD (e.2 % 16)) Prod.fst]
  have element {n : Nat} (h : n < 32) : (fl.getD n 0, n) ∈ fl.zipIdx := by
    rw [List.mk_mem_zipIdx_iff_getElem?, List.getD_eq_getElem?_getD, List.getElem?_eq_getElem (by omega), Option.getD_some]
  constructor
  · rintro (zero | ⟨⟨x, n⟩, mem, here, bit⟩)
    · simp at zero
    · have at_ := List.mk_mem_zipIdx_iff_getElem?.mp mem
      have lt : n < 32 := len ▸ (List.getElem?_eq_some_iff.mp at_).1
      have value {m : Nat} (h : m = n) : (fl.getD m 0).getLsbD j = true := by
        rw [h, List.getD_eq_getElem?_getD, at_, Option.getD_some]
        exact bit
      refine ⟨⟨n % 16, Nat.mod_lt _ (by decide)⟩, (bits ⟨n % 16, _⟩).mp here, ?_⟩
      rw [BitVec.getLsbD_or, Bool.or_eq_true]
      by_cases low : n < 16
      · exact .inl (value (Nat.mod_eq_of_lt low))
      · exact .inr (value (show n % 16 + 16 = n by omega))
  · rintro ⟨i, hi, bit⟩
    rw [BitVec.getLsbD_or, Bool.or_eq_true] at bit
    refine .inr ?_
    obtain low | high := bit
    · exact ⟨_, element (show i.val < 32 by omega), by rw [Nat.mod_eq_of_lt i.isLt]; exact (bits i).mpr hi, low⟩
    · exact ⟨_, element (show i.val + 16 < 32 by omega), by
        rw [Nat.add_mod_right, Nat.mod_eq_of_lt i.isLt]; exact (bits i).mpr hi, high⟩

theorem packBlock_length (f : BlkFmt) (rm : Fin 5) (u : Nat → Nat) (xs : List FVal) : (packBlock f rm u xs).2.length = xs.length := by
  rw [packBlock, List.length_map, List.length_map, List.length_zipIdx]

/-- The block that VPACK.LB builds of two registers, with the flags of its elements (R153). -/
def Tile.packed (t : Tile) (a : VReg) (f : BlkFmt) : Nat × List FFlags :=
  packBlock f t.regs.fmode t.randomOf (((t.v a).toList ++ (t.v (a + 1)).toList).map f32)

theorem Tile.packed_length (t : Tile) (a : VReg) (f : BlkFmt) : (t.packed a f).2.length = 32 := by
  rw [Tile.packed, packBlock_length, List.length_map, List.length_append, Vector.length_toList, Vector.length_toList]

theorem execVpackLb_eq (d a : VReg) (f : BlkFmt) (k : MReg) (s : State) : execVpackLb d a f k s =
    vecOp vblock [.v d] [.m k, .v a, .v (a + 1)] (fun t =>
      (t.drawnConv.vecIssue vblock (t.enabled k) [.m k, .v a, .v (a + 1)]).putV vblock.lat d (t.enabled k)
        (lanesOf fun i => BitVec.ofNat 32 ((t.packed a f).1 / 2 ^ (32 * i.val)))
        (some ((t.packed a f).2.zipIdx.foldl (fun x e => if (t.enabled k).getLsbD (e.2 % 16) then x ||| e.1 else x) 0))) s := rfl

theorem vpackLb_next {f : BlkFmt}
    (h : s.tile.canIssue { regs := [.v d, .m k, .v a, .v (a + 1)], reads := [.m k, .v a, .v (a + 1)], unit := .vpipe }) :
    ∃ t, exec (.vpackLb d a f k) s = .next t ∧ DrawFrame s t (s.tile.regs.fmode.val = 4 ∧ 1 ≤ s.tile.regs.vl.val) ∧
      LanesAwaited s.tile t.tile 6 d (LaneOn s.tile k) (fun i => BitVec.ofNat 32 ((s.tile.packed a f).1 / 2 ^ (32 * i.val)))
        (some fun i => ((s.tile.packed a f).2.getD i.val 0) ||| ((s.tile.packed a f).2.getD (i.val + 16) 0)) :=
  vecOp_drawLanes (c := vblock) (execVpackLb_eq ..) (by decide) s.tile.draws_drawnConv (fun _ _ => lanesOf_get ..)
    (packFlags (s.tile.enabled_bit k) (s.tile.packed_length a f)) h

/-! ## VUNPK.LB -/

theorem vunpkLb_next {f : BlkFmt} (h : s.tile.canIssue { regs := [.v d, .v (d + 1), .m k, .v a], reads := [.m k, .v a], unit := .vpipe }) :
    let bytes := (s.tile.v a).toList.flatMap fun w => toBytes w.toNat 4
    ∃ t, exec (.vunpkLb d a f k) s = .next t ∧ Frame s t [] 1 ∧
      ((∀ i, ¬LaneOn s.tile k i) → t.tile.iss.writes = s.tile.iss.writes) ∧
      ((∃ i, LaneOn s.tile k i) → ∃ (lanes : Mask) (x y : VVal),
        (∀ i : Fin 16, lanes.getLsbD i.val = true ↔ LaneOn s.tile k i) ∧
        (∀ i : Fin 16, x.get i = blockElem f bytes i.val ∧ y.get i = blockElem f bytes (i.val + 16)) ∧
        t.tile.iss.writes = s.tile.iss.writes ++
          [⟨s.tile.iss.cycle + 5, .v d lanes x, none⟩, ⟨s.tile.iss.cycle + 5, .v (d + 1) lanes y, none⟩]) := by
  intro bytes
  let x := lanesOf fun i => blockElem f bytes i.val
  let y := lanesOf fun i => blockElem f bytes (i.val + 16)
  let u := s.tile.vecIssue vblock (s.tile.enabled k) [.m k, .v a]
  have body : (u.putV vblock.lat d (s.tile.enabled k) x none).putV vblock.lat (d + 1) (s.tile.enabled k) y none =
      u.await (laneWrites u.iss.cycle vblock.lat (s.tile.enabled k) (.v d (s.tile.enabled k) x) none ++
        laneWrites u.iss.cycle vblock.lat (s.tile.enabled k) (.v (d + 1) (s.tile.enabled k) y) none) := by
    rw [Tile.putV_await _ (by decide), Tile.putV_await _ (by decide), Tile.await, Tile.await, Tile.await, List.append_assoc]
  obtain ⟨t, next, frame, writes⟩ := vecOp_await (c := vblock) (show exec (.vunpkLb d a f k) s = _ from execVunpkLb.eq_def ..) h body
  rw [Tile.vecIssue_cycle] at writes
  refine ⟨t, next, frame, fun off => ?none, fun ⟨i, on⟩ => ⟨s.tile.enabled k, x, y, s.tile.enabled_bit k,
    fun i => ⟨lanesOf_get .., lanesOf_get ..⟩, ?some⟩⟩
  case none =>
    rw [writes, laneWrites, laneWrites, if_pos ((s.tile.enabled_eq_zero k).mpr off), if_pos ((s.tile.enabled_eq_zero k).mpr off)]
    exact List.append_nil _
  case some =>
    have here : s.tile.enabled k ≠ 0 := fun zero => (s.tile.enabled_eq_zero k).mp zero i on
    rw [writes, laneWrites, laneWrites, if_neg here, if_neg here]
    rfl

end

end Sys2Proof.Machine

open Sys2Proof Sys2Proof.Machine

/-- Settles O25: each lane by its conversion, the blocks by their elements. -/
theorem vectorConversions : Obligations.VectorConversions := fun _ _ _ _ _ _ _ => ⟨vcvt_next, vpackLb_next, vunpkLb_next⟩
end

section
/-! SUPPORT. Vector loads and stores of local memory (R155 to R158): the checks of every element, the operation of a load, the bytes that a
store leaves, and the lane that receives an element (R126). -/

namespace Sys2Proof.Machine

/-! ## The checks of every element -/

/-- A list of checks passes where each of them does. -/
theorem mapM_ok {α β : Type} {f : α → Except Stop β} {g : α → β} {l : List α} (h : ∀ x ∈ l, f x = .ok (g x)) :
    l.mapM f = .ok (l.map g) := by
  induction l with
  | nil => rfl
  | cons x l ih =>
    rw [List.mapM_cons, h x (List.mem_cons_self ..), check_ok_bind, ih fun y hy => h y (List.mem_cons_of_mem _ hy)]
    rfl

/-- The shingle rule passes for every access class alike (R28). -/
theorem Tile.gate_class {t : Tile} {load : Bool} {c : Nat} {bytes : List Nat} (h : t.gate load c none bytes = .ok ()) (c' : Nat) :
    t.gate load c' none bytes = .ok () := by
  rw [Tile.gate] at h ⊢
  split at h
  · exact nomatch h
  · exact h

theorem Tile.gateWaits_ok {t : Tile} {load : Bool} {c : Nat} {bytes : List (List Nat)} (h : ∀ b ∈ bytes, t.gate load c none b = .ok ()) :
    t.gateWaits load bytes = .ok () := by
  rw [Tile.gateWaits, List.any_eq_false.mpr, failIf_false]
  intro b hb
  rw [Tile.gate_class (h b hb) 0]
  exact Bool.false_ne_true

/-- A vector access that counts its events and issues keeps everything else (R252). -/
theorem Tile.keeps_events_issued (t : Tile) (e : Nat) (reads : List RegName) :
    t.KeepsBut (((t.event 35 1).event e 1).issued reads) [] 1 ∧ (((t.event 35 1).event e 1).issued reads).iss.writes = t.iss.writes := by
  have counts := (t.onlyPerf_event 35 1).trans (Tile.onlyPerf_event _ e 1)
  exact ⟨Tile.keeps_issued reads counts.sameUnits counts.ops counts.samePad counts.sameRegs counts.ex,
    (Tile.issued_writes ..).trans (congrArg Issue.writes counts.iss)⟩

/-! ## Loads -/

/-- The window and the offset of an element (R22). -/
def VElem.place (e : VElem) : Window × Nat := (windowOf e.ea.toNat).getD (.raw, 0)

theorem LoadableAt.place {t : Tile} {sz : Nat} {e : VElem} {w : Window} {o : Nat} (h : LoadableAt t sz e w o) : e.place = (w, o) := by
  obtain ⟨-, inside, -⟩ := h
  rw [VElem.place, inside]
  rfl

theorem Tile.checkVload_loadable {t : Tile} {sz : Nat} {e : VElem} {w : Window} {o : Nat} (h : LoadableAt t sz e w o) :
    t.checkVload sz e = .ok (e, w, o) := by
  obtain ⟨even, inside, wide, gate, -⟩ := h
  have narrow : (w.wide && decide (sz < 4)) = false := by
    rw [Bool.and_eq_false_imp]
    intro hw
    rw [wide hw]
    rfl
  have aligned : decide (e.ea.toNat % sz ≠ 0) = false := decide_eq_false (not_not_intro even)
  refine laneCheck_ok ?_
  simp only [aligned, failIf_false, check_ok_bind, localWindow, inside, narrow, Tile.gateTraps_of_gate gate]

/-- The raw bytes that the elements of a local load use. -/
def loadBytes (sz : Nat) (es : List VElem) : List Nat := es.flatMap fun e => e.place.1.touch e.place.2 sz

/-- The words that the elements of a local load use. -/
def loadWords (sz : Nat) (es : List VElem) : List Nat := es.flatMap fun e => e.place.1.words e.place.2 sz

/-- What a local load holds for an element (R155, R157). -/
def Tile.loadedElem (t : Tile) (ty : ElemTy) (e : VElem) : LoadElem :=
  { reg := .v e.reg, lane := e.lane, va := e.ea.toNat, pa := 0, bytes := elemSize ty
    val := some ((fillElem ty (t.readLocal e.place.1 e.place.2 (elemSize ty))).zeroExtend 64) }

/-- The cycle at which a local vector load arrives (R239, R240). -/
def Tile.vloadArrival (t : Tile) (sz : Nat) (es : List VElem) : Nat :=
  t.arrival (loadLatency 5 (es.any fun e => e.place.1.wide) (readCycles (loadWords sz es)).1)

/-- The operation of a local vector load of good bytes (R155, R157). -/
def Tile.vloadOp (t : Tile) (ty : ElemTy) (dst : List RegName) (es : List VElem) : OutLoad :=
  { stamp := t.ops.stamp, kind := .timed (t.vloadArrival (elemSize ty) es) true
    elems := es.map (t.loadedElem ty), regs := dst, hs := 0, issued := t.iss.cycle, aclass := 2, ecc := none }

/-- The access of a local vector load is counted and begins, and the load issues (R239, R252). -/
def Tile.beginVload (t : Tile) (sz : Nat) (reads : List RegName) (es : List VElem) : Tile :=
  (((t.event 35 1).loadEvents (loadBytes sz es)).usePort (some t.ops.stamp) (loadWords sz es) (readCycles (loadWords sz es)).1).issued reads

section
variable {s : State} {i : Instr} {reads : List RegName} {k : MReg} {ty : ElemTy} {dst : Tile → List RegName} {elems : Tile → List VElem}
  (he : exec i s = localVload reads k ty dst elems s)
include he

/-- A local vector load whose elements pass their checks enters class LD (R155 to R157). -/
theorem vload_next (held : elems s.tile ≠ [])
    (hi : s.tile.canIssue { regs := dst s.tile ++ .m k :: reads, reads := .m k :: reads, unit := .localPort, cls := some .ld })
    (good : ∀ e ∈ elems s.tile, LoadableAt s.tile (elemSize ty) e e.place.1 e.place.2) :
    exec i s = .next (s.upd fun t => (t.beginVload (elemSize ty) (.m k :: reads) (elems s.tile)).pushLoad
      (s.tile.vloadOp ty (dst s.tile) (elems s.tile))) := by
  have checks : (elems s.tile).mapM (s.tile.checkVload (elemSize ty)) = .ok ((elems s.tile).map fun e => (e, e.place)) :=
    mapM_ok fun e h => Tile.checkVload_loadable (good e h)
  have waits : s.tile.gateWaits true ((elems s.tile).map fun e => e.place.1.touch e.place.2 (elemSize ty)) = .ok () := by
    refine Tile.gateWaits_ok (c := 2) fun b hb => ?_
    obtain ⟨e, h, rfl⟩ := List.mem_map.mp hb
    obtain ⟨-, -, -, gate, -⟩ := good e h
    exact gate
  have bad : ((elems s.tile).findSome? fun e => (s.tile.badLocal e.place.1 e.place.2 (elemSize ty)).map fun v =>
      ((0 : Nat), v, some e.lane)) = none := by
    refine List.findSome?_eq_none_iff.mpr fun e h => ?_
    obtain ⟨-, -, -, -, correctable⟩ := good e h
    rw [correctable]
    rfl
  have nonempty : (elems s.tile).isEmpty = false := List.isEmpty_eq_false_iff.mpr held
  rw [he, localVload]
  simp only [nonempty, Bool.false_eq_true, if_false]
  refine issue_of_ok hi ?_
  rw [checks, check_ok_bind]
  simp only [List.map_map, List.flatMap_map, List.any_map, List.findSome?_map, Function.comp_def, waits, check_ok_bind, bad]
  rfl

/-- A local vector load without an element performs nothing (R129). -/
theorem vload_none (empty : elems s.tile = [])
    (hi : s.tile.canIssue { regs := dst s.tile ++ .m k :: reads, reads := .m k :: reads, unit := .localPort }) :
    exec i s = .next (s.upd fun t => ((t.event 35 1).event 30 1).issued (.m k :: reads)) := by
  rw [he, localVload, empty]
  exact issue_of_ok hi rfl

theorem localVectorLoad {P : VElem → Prop} (named : ∀ e, e ∈ elems s.tile ↔ P e) :
    LocalVectorLoad s i (dst s.tile) (.m k :: reads) ty P := by
  intro loadable
  have good (e : VElem) (h : e ∈ elems s.tile) : LoadableAt s.tile (elemSize ty) e e.place.1 e.place.2 := by
    obtain ⟨w, o, at_⟩ := loadable e ((named e).mp h)
    rw [LoadableAt.place at_]
    exact at_
  refine ⟨fun ⟨e, he'⟩ hi => ?_, fun off hi => ?_⟩
  · have held : elems s.tile ≠ [] := List.ne_nil_of_mem ((named e).mpr he')
    have counted := (s.tile.onlyPerf_event 35 1).trans (Tile.onlyPerf_loadEvents _ (loadBytes (elemSize ty) (elems s.tile)))
    obtain ⟨keeps, writes⟩ := counted.keeps_port_issued (some s.tile.ops.stamp) (loadWords (elemSize ty) (elems s.tile))
      (readCycles (loadWords (elemSize ty) (elems s.tile))).1 1 (.m k :: reads)
    obtain ⟨units, pad, regs, pc, iss, ops⟩ := Tile.pushLoad_timed (b := s.tile.beginVload (elemSize ty) (.m k :: reads) (elems s.tile))
      (op := s.tile.vloadOp ty (dst s.tile) (elems s.tile)) keeps rfl
    refine ⟨_, _, _, vload_next he held hi good, rfl, units, pad, regs, pc, (congrArg Issue.writes iss).trans writes, ops, rfl, ?_, rfl, rfl,
      rfl, fun x => ?_⟩
    · refine Nat.le_trans ?_ (s.tile.le_arrival _)
      simp only [loadLatency]
      omega
    · rw [show (s.tile.vloadOp ty (dst s.tile) (elems s.tile)).elems = (elems s.tile).map (s.tile.loadedElem ty) from rfl, List.mem_map]
      constructor
      · rintro ⟨e, h, rfl⟩
        exact ⟨e, _, _, (named e).mp h, good e h, rfl⟩
      · rintro ⟨e, w, o, h, at_, rfl⟩
        refine ⟨e, (named e).mpr h, ?_⟩
        rw [Tile.loadedElem, LoadableAt.place at_]
  · have empty : elems s.tile = [] := List.eq_nil_iff_forall_not_mem.mpr fun e h => off e ((named e).mp h)
    obtain ⟨keeps, writes⟩ := s.tile.keeps_events_issued 30 (.m k :: reads)
    exact ⟨_, vload_none he empty hi, frame_upd keeps, writes⟩

end

theorem Tile.mem_velems {t : Tile} {k : MReg} {d : VReg} {f : Fin 16 → Word} {e : VElem} :
    e ∈ t.velems k d f ↔ ∃ i : Fin 16, LaneOn t k i ∧ e = ⟨Fin.ofNat 64 i.val, d, f i⟩ := by
  simp only [Tile.velems, List.mem_map, Tile.mem_enabledLanes, eq_comm (b := e)]

theorem Tile.mem_xposeElems {t : Tile} {d : VReg} {a b : GReg} {k : MReg} {e : VElem} :
    e ∈ t.xposeElems d a b k ↔ ∃ (i : Fin 16) (c : Nat), LaneOn t k i ∧ c < t.regs.vl.val ∧
      e = ⟨Fin.ofNat 64 i.val, d + Fin.ofNat 32 c, t.g a + BitVec.ofInt 64 (i.val * (t.g b).toInt) + BitVec.ofNat 64 (4 * c)⟩ := by
  simp only [Tile.xposeElems, List.mem_flatMap, List.mem_map, Tile.mem_enabledLanes, List.mem_range, strideEa_eq, eq_comm (b := e)]
  exact exists_congr fun i => ⟨fun ⟨on, c, hc, h⟩ => ⟨c, on, hc, h⟩, fun ⟨c, on, hc, h⟩ => ⟨on, c, hc, h⟩⟩

theorem vectorLoads : VectorLoads := fun s d v a b k ty => by
  intro sz lanes
  have strides : strideEa s.tile a b = fun i => s.tile.g a + BitVec.ofInt 64 (i.val * (s.tile.g b).toInt) :=
    funext fun i => strideEa_eq s.tile a b i
  refine ⟨localVectorLoad (show exec (.vld d a k ty) s = _ from execVld.eq_def ..) fun e => Tile.mem_velems, ?_,
    localVectorLoad (show exec (.vldg d a v k ty) s = _ from execVldg.eq_def ..) fun e => Tile.mem_velems,
    fun _ => localVectorLoad (show exec (.vldx d a b k ty) s = _ from execVldx.eq_def ..) fun e => Tile.mem_xposeElems⟩
  rw [← strides]
  exact localVectorLoad (show exec (.vlds d a b k ty) s = _ from execVlds.eq_def ..) fun e => Tile.mem_velems

/-! ## Stores -/

/-- Writes in order leave a byte that none of them covers. -/
theorem Memory.byte_writes_apart {m : Memory} {l : List (Nat × List Byte)} {x : Nat}
    (apart : ∀ w ∈ l, ¬(w.1 ≤ x ∧ x < w.1 + w.2.length)) :
    Memory.byte (l.foldl (fun m w => Memory.write m w.1 w.2) m) x = Memory.byte m x := by
  induction l generalizing m with
  | nil => rfl
  | cons w l ih =>
    rw [List.foldl_cons, ih fun v hv => apart v (List.mem_cons_of_mem _ hv), Memory.byte_write, if_neg (apart w (List.mem_cons_self ..))]

/-- A byte after writes in order is that of the last that covers it. -/
theorem Memory.byte_writes_last {m : Memory} {l1 l2 : List (Nat × List Byte)} {w : Nat × List Byte} {x : Nat}
    (covers : w.1 ≤ x ∧ x < w.1 + w.2.length) (after : ∀ v ∈ l2, ¬(v.1 ≤ x ∧ x < v.1 + v.2.length)) :
    Memory.byte ((l1 ++ w :: l2).foldl (fun m w => Memory.write m w.1 w.2) m) x = w.2.getD (x - w.1) 0 := by
  rw [List.foldl_append, List.foldl_cons, Memory.byte_writes_apart after, Memory.byte_write, if_pos covers]

/-- The lane of an element gives its number back. -/
theorem ofNat_lane (j : Fin 16) : Fin.ofNat 16 (Fin.ofNat 64 j.val).val = j := by
  rw [lane_of]
  exact Fin.ext (Nat.mod_eq_of_lt j.isLt)

/-- Above an enabled lane stand enabled lanes of higher numbers. -/
theorem Tile.enabledLanes_above {t : Tile} {k : MReg} {i : Fin 16} (h : LaneOn t k i) :
    ∃ l1 l2, t.enabledLanes k = l1 ++ i :: l2 ∧ ∀ j ∈ l2, i < j ∧ LaneOn t k j := by
  obtain ⟨l1, l2, e⟩ := List.append_of_mem (Tile.mem_enabledLanes.mpr h)
  have sorted : (t.enabledLanes k).Pairwise (· < ·) := (List.pairwise_lt_finRange 16).filter _
  rw [e] at sorted
  obtain ⟨-, sorted, -⟩ := List.pairwise_append.mp sorted
  refine ⟨l1, l2, e, fun j hj => ⟨List.rel_of_pairwise_cons sorted hj, ?_⟩⟩
  exact Tile.mem_enabledLanes.mp (e ▸ List.mem_append_right _ (List.mem_cons_of_mem _ hj))

/-- What R156 asks of an element of a local store: it lies in the raw window, open to it, and its bytes are correctable. -/
def StorableAt (t : Tile) (sz : Nat) (ea : Word) : Prop :=
  ea.toNat % sz = 0 ∧ ea.toNat < 0x80000 ∧ (t.ex.prv = true ∨ t.regs.shbase.toNat ≤ ea.toNat) ∧
  t.gate false 3 none (upFrom ea.toNat sz) = .ok () ∧ t.pad.bad.contains (ea.toNat / 8) = false

theorem Tile.checkVstore_storable {t : Tile} {sz : Nat} {addrs : List Nat} {e : VElem} (h : StorableAt t sz e.ea) :
    t.checkVstore sz addrs e = .ok (e, e.ea.toNat) := by
  obtain ⟨even, low, permitted, gate, good⟩ := h
  have code : (!t.ex.prv && decide (e.ea.toNat < t.regs.shbase.toNat)) = false := by
    obtain h | h := permitted
    · rw [h]; rfl
    · rw [decide_eq_false (Nat.not_lt.mpr h), Bool.and_false]
  have whole : (t.pad.bad.contains (e.ea.toNat / 8) && !coversWord addrs (e.ea.toNat / 8)) = false := by rw [good, Bool.false_and]
  have aligned : decide (e.ea.toNat % sz ≠ 0) = false := decide_eq_false (not_not_intro even)
  refine laneCheck_ok ?_
  simp only [aligned, failIf_false, check_ok_bind, localWindow, windowOf_raw low, ne_eq, not_true_eq_false, decide_false, code,
    Tile.gateTraps_of_gate gate, whole]

/-- The write of an enabled lane (R155, R157). -/
def Tile.laneStore (t : Tile) (d : VReg) (sz : Nat) (ea : Fin 16 → Word) (j : Fin 16) : Nat × List Byte :=
  ((ea j).toNat, toBytes ((t.v d).get j).toNat sz)

/-- The writes of a local vector store, in ascending order of lanes (R157). -/
def Tile.laneStores (t : Tile) (d : VReg) (k : MReg) (sz : Nat) (ea : Fin 16 → Word) : List (Nat × List Byte) :=
  (t.enabledLanes k).map (t.laneStore d sz ea)

/-- The words that the lanes of a local store use. -/
def storeWords (sz : Nat) (es : List VElem) : List Nat := es.flatMap fun e => Window.words .raw e.ea.toNat sz

/-- A local vector store of the enabled lanes, all of which pass their checks (R155, R157). -/
def Tile.vstored (t : Tile) (d : VReg) (k : MReg) (reads : List RegName) (sz : Nat) (ea : Fin 16 → Word) : Tile :=
  let es := t.velems k d ea
  let u := (t.event 35 1).event 33 1
  if es.isEmpty then u.issued (.v d :: .m k :: reads)
  else ((u.usePort none (storeWords sz es) (writeCycles (storeWords sz es))).issued (.v d :: .m k :: reads)).storeRaw
    (t.laneStores d k sz ea)

/-- A local vector store changes nothing but the bytes of its lanes. -/
theorem Tile.vstored_keeps (t : Tile) (d : VReg) (k : MReg) (reads : List RegName) (sz : Nat) (ea : Fin 16 → Word) :
    let u := t.vstored d k reads sz ea
    t.SameUnits u ∧ u.ops = t.ops ∧ t.SameRegs u [] ∧ t.NextPc u 1 ∧ u.iss.writes = t.iss.writes ∧
      ∃ m : Memory, (∀ x, Memory.byte m x = Memory.byte t.pad.bytes x) ∧
        u.pad.bytes = (t.laneStores d k sz ea).foldl (fun m w => Memory.write m w.1 w.2) m := by
  intro u
  by_cases empty : (t.velems k d ea).isEmpty = true
  · have plain : u = ((t.event 35 1).event 33 1).issued (.v d :: .m k :: reads) := if_pos empty
    have none : t.laneStores d k sz ea = [] := by
      rw [Tile.laneStores, List.map_eq_nil_iff.mp (List.isEmpty_iff.mp empty), List.map_nil]
    rw [plain, none]
    obtain ⟨⟨units, ops, ⟨-, same⟩, regs, pc⟩, writes⟩ := t.keeps_events_issued 33 (.v d :: .m k :: reads)
    exact ⟨units, ops, regs, pc, writes, _, same, rfl⟩
  · have counted := (t.onlyPerf_event 35 1).trans (Tile.onlyPerf_event _ 33 1)
    obtain ⟨⟨units, ops, ⟨-, same⟩, regs, pc⟩, writes⟩ := counted.keeps_port_issued none (storeWords sz (t.velems k d ea))
      (writeCycles (storeWords sz (t.velems k d ea))) 1 (.v d :: .m k :: reads)
    have stored : u = ((((t.event 35 1).event 33 1).usePort none (storeWords sz (t.velems k d ea))
        (writeCycles (storeWords sz (t.velems k d ea)))).issued (.v d :: .m k :: reads)).storeRaw (t.laneStores d k sz ea) := if_neg empty
    rw [stored]
    exact ⟨units, ops, regs, pc, writes, _, same, rfl⟩

section
variable {s : State} {i : Instr} {d : VReg} {reads : List RegName} {k : MReg} {ty : ElemTy} {ea : Tile → Fin 16 → Word}
  (he : exec i s = localVstore d reads k ty (fun u => u.velems k d (ea u)) s)
include he

/-- A local vector store whose lanes pass their checks writes the bytes of its lanes in order (R155 to R157). -/
theorem vstore_next (hi : s.tile.canIssue { regs := .v d :: .m k :: reads, reads := .v d :: .m k :: reads, unit := .localPort })
    (good : ∀ j, LaneOn s.tile k j → StorableAt s.tile (elemSize ty) (ea s.tile j)) :
    exec i s = .next (s.upd fun t => t.vstored d k reads (elemSize ty) (ea t)) := by
  have checks : (s.tile.velems k d (ea s.tile)).mapM (s.tile.checkVstore (elemSize ty)
      ((s.tile.velems k d (ea s.tile)).flatMap fun e => upFrom e.ea.toNat (elemSize ty))) =
      .ok ((s.tile.velems k d (ea s.tile)).map fun e => (e, e.ea.toNat)) := by
    refine mapM_ok fun e h => ?_
    obtain ⟨j, on, rfl⟩ := Tile.mem_velems.mp h
    exact Tile.checkVstore_storable (good j on)
  have waits : s.tile.gateWaits false ((s.tile.velems k d (ea s.tile)).map fun e => upFrom e.ea.toNat (elemSize ty)) = .ok () := by
    refine Tile.gateWaits_ok (c := 3) fun b hb => ?_
    obtain ⟨e, h, rfl⟩ := List.mem_map.mp hb
    obtain ⟨j, on, rfl⟩ := Tile.mem_velems.mp h
    obtain ⟨-, -, -, gate, -⟩ := good j on
    exact gate
  have writes : (s.tile.velems k d (ea s.tile)).map (fun e => (e.ea.toNat, toBytes ((s.tile.v d).get (Fin.ofNat 16 e.lane.val)).toNat
      (elemSize ty))) = s.tile.laneStores d k (elemSize ty) (ea s.tile) := by
    rw [Tile.velems, List.map_map]
    refine List.map_congr_left fun j _ => ?_
    rw [Function.comp_apply, ofNat_lane]
    rfl
  rw [he, localVstore]
  refine issue_of_ok hi ?_
  simp only [checks, List.map_map, List.flatMap_map, Function.comp_def, waits, check_ok_bind, writes]
  rfl

theorem localVectorStore (f : Fin 16 → Word) (hf : ea s.tile = f) : LocalVectorStore s i d k reads ty f := by
  subst hf
  intro good hi
  obtain ⟨units, ops, regs, pc, writes, m, same, bytes⟩ := s.tile.vstored_keeps d k reads (elemSize ty) (ea s.tile)
  refine ⟨_, vstore_next he hi good, rfl, units, ops, regs, pc, writes, fun x => ⟨fun j here above => ?_, fun apart => ?_⟩⟩
  · obtain ⟨on, low, high⟩ := here
    obtain ⟨l1, l2, lanes, after⟩ := Tile.enabledLanes_above on
    rw [State.upd_tile, bytes, Tile.laneStores, lanes, List.map_append, List.map_cons, Memory.byte_writes_last]
    · exact toBytes_getD (show x - (ea s.tile j).toNat < elemSize ty by omega)
    · rw [Tile.laneStore, toBytes_length]
      exact ⟨low, high⟩
    · intro v hv
      obtain ⟨l, hl, rfl⟩ := List.mem_map.mp hv
      obtain ⟨gt, on⟩ := after l hl
      rw [Tile.laneStore, toBytes_length]
      exact fun hx => above l gt ⟨on, hx⟩
  · rw [State.upd_tile, bytes, Memory.byte_writes_apart, same]
    intro v hv
    obtain ⟨l, hl, rfl⟩ := List.mem_map.mp hv
    rw [Tile.laneStore, toBytes_length]
    exact fun hx => apart l ⟨Tile.mem_enabledLanes.mp hl, hx⟩

end

theorem vectorStores : VectorStores := fun s d v a b k ty => by
  have strides : strideEa s.tile a b = fun i => s.tile.g a + BitVec.ofInt 64 (i.val * (s.tile.g b).toInt) :=
    funext fun i => strideEa_eq s.tile a b i
  exact ⟨localVectorStore (show exec (.vst d a k ty) s = _ from execVst.eq_def ..) _ rfl,
    localVectorStore (show exec (.vsts d a b k ty) s = _ from execVsts.eq_def ..) _ strides,
    localVectorStore (show exec (.vstg d a v k ty) s = _ from execVstg.eq_def ..) _ rfl⟩

theorem laneFill : LaneFill := by
  refine ⟨fun ty => by cases ty <;> rfl, fun ty x k _ hk => ?_⟩
  rw [fillElem_getLsbD, decide_eq_true hk, Bool.true_and]

end Sys2Proof.Machine

open Sys2Proof Sys2Proof.Machine

/-- Settles O26: the checks of all elements pass, so that a load enters its class with the values read at issue, and a store writes the
bytes of its lanes in ascending order, whose last write to a byte stands. -/
theorem localVectors : Obligations.LocalVectors := ⟨vectorLoads, vectorStores, laneFill⟩
end

section
/-! SUPPORT. VGLD and VGST at issue (R155, R156, R159): the checks of every lane, the translations of all the elements, and the operation with
an element for each. -/

namespace Sys2Proof.Machine

/-! ## An access of several elements that enters its class -/

/-- The micro-TLB of b holds the translations of that of a, in the order that some accesses left; nothing else of the tile differs (R340). -/
def Tile.HasUsed (a b : Tile) : Prop :=
  ∃ tlb got noLeaf, b = { a with ni := { a.ni with tlb := tlb, got := got, noLeaf := noLeaf } } ∧ tlb.Perm a.ni.tlb

theorem Tile.HasUsed.refl (a : Tile) : a.HasUsed a := ⟨_, _, _, rfl, .refl _⟩

theorem Tile.HasUsed.trans {a b c : Tile} (h : a.HasUsed b) (k : b.HasUsed c) : a.HasUsed c := by
  obtain ⟨_, _, _, rfl, perm⟩ := h
  obtain ⟨_, _, _, rfl, perm'⟩ := k
  exact ⟨_, _, _, rfl, perm'.trans perm⟩

theorem Tile.hasUsed_usePages (t : Tile) (va n : Nat) : t.HasUsed (t.usePages va n) := ⟨_, _, _, rfl, t.usePages_tlb va n⟩

/-- The translations that the elements of an access use, one after the other. -/
theorem Tile.hasUsed_foldl {α : Type} (va n : α → Nat) (l : List α) (t : Tile) :
    t.HasUsed (l.foldl (fun t e => t.usePages (va e) (n e)) t) :=
  foldl_rel Tile.HasUsed.refl Tile.HasUsed.trans (fun t _ => t.hasUsed_usePages ..) l t

/-- An access of several elements that enters its class: f adds it to the outstanding operations, and its requests leave or are held. -/
theorem accesses_enter {s : State} {b c : Tile} {f : Outstanding → Outstanding} (keeps : s.tile.KeepsBut b [] 1)
    (writes : b.iss.writes = s.tile.iss.writes) (used : b.HasUsed c) (kept : ∀ o, (f o).kept = o.kept) (sites : List Nat) :
    let t := (s.upd fun _ => { c with ops := f c.ops }).injectReqs s.tile.ops.stamp sites
    Enters s t ∧ t.tile.eng = s.tile.eng ∧ t.tile.ops = { f s.tile.ops with kept := t.tile.ops.kept } := by
  intro t
  obtain ⟨⟨id, gang, inb, eng, ni, pl⟩, ops, pad, regs, pc⟩ := keeps
  obtain ⟨tlb, got, noLeaf, rfl, perm⟩ := used
  have tile : t.tile = { b with ni := { b.ni with tlb := tlb, got := got, noLeaf := noLeaf }
                                ops := { f s.tile.ops with kept := t.tile.ops.kept } } := by
    rw [← ops]
    exact tileSends_injectReqs ..
  have flits : SameButFlits s t := SameButFlits.trans (b := s.upd fun _ => _) rfl (State.injectReqs_sameButFlits ..)
  obtain ⟨more, held, own⟩ := State.injectReqs_holdsMore
    (s.upd fun _ => { b with ni := { b.ni with tlb := tlb, got := got, noLeaf := noLeaf }, ops := f b.ops }) s.tile.ops.stamp sites
  have before : (f b.ops).kept = s.tile.ops.kept := (kept _).trans (congrArg _ ops)
  refine ⟨⟨flits, (congrArg Tile.id tile).trans id, (congrArg Tile.gang tile).trans gang, (congrArg Tile.inb tile).trans inb,
    (congrArg Tile.pl tile).trans pl, ⟨?_, ?_⟩, ?_, ?_, ?_, (congrArg (·.iss.writes) tile).trans writes, more, ?_, own⟩,
    (congrArg Tile.eng tile).trans eng, congrArg Tile.ops tile⟩
  · rw [tile, ← ni]
  · rw [tile, ← ni]
    exact perm
  · rw [tile]; exact pad
  · rw [tile]; exact regs
  · rw [tile]; exact pc
  · exact held.trans (congrArg (· ++ more) before)

/-! ## The elements of the lanes -/

/-- The elements of a global vector access, each with its physical address (R159). -/
def Tile.laneElems (t : Tile) (k : MReg) (d : VReg) (ea : Fin 16 → Word) (pa : Fin 16 → Nat) : List (VElem × Nat) :=
  (t.enabledLanes k).map fun i => (⟨Fin.ofNat 64 i.val, d, ea i⟩, pa i)

theorem Tile.mem_map_laneElems {α : Type} {t : Tile} {k : MReg} {d : VReg} {ea : Fin 16 → Word} {pa : Fin 16 → Nat}
    {g : VElem × Nat → α} {x : α} :
    x ∈ (t.laneElems k d ea pa).map g ↔ ∃ i : Fin 16, LaneOn t k i ∧ x = g (⟨Fin.ofNat 64 i.val, d, ea i⟩, pa i) := by
  simp only [Tile.laneElems, List.map_map, List.mem_map, Tile.mem_enabledLanes, Function.comp_apply, eq_comm (b := x)]

theorem Tile.velems_isEmpty {t : Tile} {k : MReg} {d : VReg} {f : Fin 16 → Word} (on : ∃ i, LaneOn t k i) :
    (t.velems k d f).isEmpty = false := by
  obtain ⟨i, on⟩ := on
  exact List.isEmpty_eq_false_iff.mpr (List.ne_nil_of_mem (Tile.mem_velems.mpr ⟨i, on, rfl⟩))

/-- The sites that the requests for the lines of an access go to (R296). -/
def lineSites (pas : List Nat) : List Nat := (pas.map (· / 64)).eraseDups.map fun l => stackOf (64 * l)

/-- The checks of a global vector access pass in every lane that reaches its page (R109, R110, R156). -/
theorem State.vglobal_checks {s : State} {kind : AccessKind} {c sz : Nat} {k : MReg} {d : VReg} {ea : Fin 16 → Word}
    {page : Fin 16 → TlbEntry} {pa : Fin 16 → Nat} (phys : ∀ i, (page i).pa + ((ea i).toNat - (page i).va) = pa i)
    (ready : ∀ i, LaneOn s.tile k i → (ea i).toNat % sz = 0 ∧ Reaches s kind (ea i).toNat sz (page i)) :
    (s.tile.velems k d ea).mapM (s.checkVglobal kind c sz) = .ok (s.tile.laneElems k d ea pa) := by
  rw [Tile.velems, List.mapM_map]
  refine mapM_ok fun i hi => ?_
  obtain ⟨even, reaches⟩ := ready i (Tile.mem_enabledLanes.mp hi)
  exact laneCheck_ok (by rw [State.scalarGlobal_ok even reaches, check_ok_bind, phys])

/-- The load that VGLD makes outstanding (R159). -/
def Tile.vgldOp (t : Tile) (d : VReg) (ty : ElemTy) (hs : BitVec 8) (xs : List (VElem × Nat)) : OutLoad :=
  { stamp := t.ops.stamp, kind := .global (.elem ty)
    elems := xs.map fun x =>
      { reg := .v d, lane := x.1.lane, va := x.1.ea.toNat, pa := x.2, bytes := elemSize ty, val := none }
    regs := [.v d], hs := hs, issued := t.iss.cycle, aclass := 4, ecc := none }

/-- The store that VGST makes outstanding (R159). -/
def Tile.vgstOp (t : Tile) (d : VReg) (ty : ElemTy) (hs : BitVec 8) (xs : List (VElem × Nat)) : OutStore :=
  { stamp := t.ops.stamp, vec := true, ecc := none, hs := hs
    elems := xs.map fun x =>
      { lane := x.1.lane, va := x.1.ea.toNat, pa := x.2, done := false
        data := toBytes ((t.v d).get (Fin.ofNat 16 x.1.lane.val)).toNat (elemSize ty) } }

section
variable {s : State} {d : VReg} {a : GReg} {k : MReg} {ty : ElemTy} {hs : BitVec 8} {page : Fin 16 → TlbEntry} {ea : Fin 16 → Word}
  {pa : Fin 16 → Nat} (address : unitEa s.tile a ty = ea) (phys : ∀ i, (page i).pa + ((ea i).toNat - (page i).va) = pa i)
  (handles : s.tile.handlesOf ((s.tile.velems k d ea).map fun e => (e.ea.toNat, elemSize ty)) = hs) (on : ∃ i, LaneOn s.tile k i)
include address phys handles on

theorem vgld_next (ready : ∀ i, LaneOn s.tile k i → (ea i).toNat % elemSize ty = 0 ∧ Reaches s .load (ea i).toNat (elemSize ty) (page i))
    (hi : s.tile.canIssue { regs := [.v d, .m k, .g a], reads := [.m k, .g a], cls := some .ld, hs := hs }) :
    ∃ t, exec (.vgld d a k ty) s = .next t ∧ Enters s t ∧ t.tile.eng = s.tile.eng ∧
      t.tile.ops = { s.tile.ops.addLoad (s.tile.vgldOp d ty hs (s.tile.laneElems k d ea pa)) with kept := t.tile.ops.kept } := by
  obtain ⟨keeps, writes⟩ := s.tile.keeps_events_issued 31 [.m k, .g a]
  refine ⟨_, ?next, accesses_enter (f := (·.addLoad _)) keeps writes
    (Tile.hasUsed_foldl LoadElem.va LoadElem.bytes (s.tile.vgldOp d ty hs (s.tile.laneElems k d ea pa)).elems _)
    (fun _ => rfl) (lineSites ((s.tile.laneElems k d ea pa).map (·.2)))⟩
  subst address handles
  rw [show exec (.vgld d a k ty) s = _ from execVgld.eq_def ..]
  simp only [Tile.velems_isEmpty on, Bool.false_eq_true, if_false]
  refine issue_of_ok hi ?_
  rw [State.vglobal_checks phys ready, check_ok_bind]
  rfl

theorem vgst_next (ready : ∀ i, LaneOn s.tile k i → (ea i).toNat % elemSize ty = 0 ∧ Reaches s .store (ea i).toNat (elemSize ty) (page i))
    (hi : s.tile.canIssue { regs := [.v d, .m k, .g a], reads := [.v d, .m k, .g a], cls := some .st, hs := hs }) :
    ∃ t, exec (.vgst d a k ty) s = .next t ∧ Enters s t ∧ t.tile.eng = s.tile.eng ∧
      t.tile.ops = { s.tile.ops.addStore (s.tile.vgstOp d ty hs (s.tile.laneElems k d ea pa)) with kept := t.tile.ops.kept } := by
  obtain ⟨keeps, writes⟩ := s.tile.keeps_events_issued 32 [.v d, .m k, .g a]
  refine ⟨_, ?next, accesses_enter (f := (·.addStore _)) keeps writes
    (Tile.hasUsed_foldl StoreElem.va (fun e => e.data.length) (s.tile.vgstOp d ty hs (s.tile.laneElems k d ea pa)).elems _)
    (fun _ => rfl) (lineSites ((s.tile.laneElems k d ea pa).map (·.2)))⟩
  subst address handles
  rw [show exec (.vgst d a k ty) s = _ from execVgst.eq_def ..]
  simp only [Tile.velems_isEmpty on, Bool.false_eq_true, if_false]
  refine issue_of_ok hi ?_
  rw [State.vglobal_checks phys ready, check_ok_bind]
  rfl

end

end Sys2Proof.Machine

open Sys2Proof Sys2Proof.Machine

/-- Settles O28: the checks of every enabled lane pass, and the operation, with an element for each, enters its class as that of a scalar
access does. -/
theorem globalVectors : Obligations.GlobalVectors := by
  intro s d a k ty hs page sz ea pa ready bits on
  have handles : s.tile.handlesOf ((s.tile.velems k d ea).map fun e => (e.ea.toNat, sz)) = hs :=
    BitVec.eq_of_getLsbD_eq fun j hj => Bool.eq_iff_iff.mpr ((Tile.handlesOf_velems ⟨j, hj⟩).trans (bits ⟨j, hj⟩).symm)
  refine ⟨fun loads hi => ?_, fun stores hi => ?_⟩
  · obtain ⟨t, next, enters, eng, ops⟩ := vgld_next (ea := ea) (pa := pa) rfl (fun _ => rfl) handles on loads hi
    exact ⟨t, _, next, enters, eng, ops, rfl, rfl, rfl, rfl, rfl, rfl, fun x => Tile.mem_map_laneElems⟩
  · obtain ⟨t, next, enters, eng, ops⟩ := vgst_next (ea := ea) (pa := pa) rfl (fun _ => rfl) handles on stores hi
    refine ⟨t, _, next, enters, eng, ops, rfl, rfl, rfl, rfl, fun x => Tile.mem_map_laneElems.trans ?_⟩
    simp only [ofNat_lane]
    rfl
end

section
/-! SUPPORT. Atomics at issue (R219 to R221), and the values that an atomic or a reduction gives (R134, R221, R223). -/

namespace Sys2Proof.Machine

/-! ## Issue -/

/-- An atomic whose line is reached passes its checks (R219, R220). -/
theorem State.checkLine_ok {s : State} {c n : Nat} {ea : Word} {e : TlbEntry} (h : LineReaches s .atomic ea.toNat n e) :
    s.checkLine .atomic c ea n = .ok (e.pa + (ea.toNat - e.va)) := by
  obtain ⟨even, reach, home, -⟩ := h
  have line : s.linePa ea.toNat = some (e.pa + (ea.toNat - e.va)) := by
    obtain ⟨-, -, held, -⟩ := reach
    rw [State.linePa, held]
    rfl
  have free : LineFree s .atomic ea.toNat := fun pa hp => by
    obtain rfl := Option.some.inj (line.symm.trans hp)
    exact ⟨home, nofun⟩
  rw [State.checkLine_free c n free, State.scalarGlobal_ok even reach]

/-- The registers of an atomic; ACAS has one more (R221). -/
def atomicRegs (a b : GReg) (c : Option GReg) : List RegName :=
  [.g a, .g b] ++ (match c with
    | some c => [.g c]
    | none => [])

/-- The second operand of ACAS, and of no other atomic (R221). -/
def Tile.comparand (t : Tile) (c : Option GReg) : Word :=
  match c with
  | some c => t.g c
  | none => 0

/-- The load that an atomic makes outstanding (R221). -/
def Tile.atomicLoad (t : Tile) (b : GReg) (va pa n : Nat) (k : LoadKind) (hs : BitVec 8) : OutLoad :=
  { stamp := t.ops.stamp, kind := k
    elems := [{ reg := .g b, lane := 0, va := va, pa := pa, bytes := n, val := none }]
    regs := [.g b], hs := hs, issued := t.iss.cycle, aclass := 6, ecc := none }

/-- An instruction whose step is that of an access to global memory enters its class. -/
theorem access_next {s : State} {i : Instr} {b : Tile} {va n : Nat} {f : Outstanding → Outstanding} {sites : List Nat}
    (keeps : s.tile.KeepsBut b [] 1) (writes : b.iss.writes = s.tile.iss.writes) (kept : ∀ o, (f o).kept = o.kept)
    (next : exec i s = .next ((s.upd fun _ => b.afterAccess va n f).injectReqs s.tile.ops.stamp sites)) :
    ∃ t, exec i s = .next t ∧ Enters s t ∧ t.tile.eng = s.tile.eng ∧ t.tile.ops = { f s.tile.ops with kept := t.tile.ops.kept } :=
  have ⟨enters, _, eng, ops⟩ := access_enters keeps writes kept sites
  ⟨_, next, enters, eng, ops⟩

theorem atomic_next {s : State} {i : Instr} {op : AtomicOp} {a b : GReg} {c : Option GReg} {dw nat : Bool} {e : TlbEntry}
    (he : exec i s = atomicOp op a b c dw nat s) (reach : LineReaches s .atomic (s.tile.g a).toNat (if dw then 8 else 4) e)
    (hi : s.tile.canIssue { regs := atomicRegs a b c, reads := atomicRegs a b c, cls := some .ld
                            hs := s.tile.handlesOf [((s.tile.g a).toNat, if dw then 8 else 4)] }) :
    ∃ t, exec i s = .next t ∧ Enters s t ∧ t.tile.eng = s.tile.eng ∧
      t.tile.ops = { s.tile.ops.addLoad (s.tile.atomicLoad b (s.tile.g a).toNat (e.pa + ((s.tile.g a).toNat - e.va)) (if dw then 8 else 4)
        (.atomic op (s.tile.g b) (s.tile.comparand c) nat (if nat then .zero else .signed))
        (s.tile.handlesOf [((s.tile.g a).toNat, if dw then 8 else 4)])) with kept := t.tile.ops.kept } := by
  obtain ⟨keeps, writes⟩ := s.tile.keeps_event_issued 45 (atomicRegs a b c)
  refine access_next (va := (s.tile.g a).toNat) (n := if dw then 8 else 4) (sites := ?sites) (f := (·.addLoad _)) keeps writes
    (fun _ => rfl) ?next
  case next =>
    rw [he, atomicOp.eq_def]
    refine issue_of_ok hi ?_
    rw [State.checkLine_ok reach, check_ok_bind]
    rfl

theorem atomicsEnter : AtomicsEnter := fun s a b c dw nat e => by
  intro va n hs pa reach enters ext
  refine ⟨fun hi => ⟨atomic_next (c := none) (execAxchg.eq_def ..) reach hi, atomic_next (c := none) (execAadd.eq_def ..) reach hi,
    atomic_next (c := none) (execAmin.eq_def ..) reach hi, atomic_next (c := none) (execAmax.eq_def ..) reach hi⟩,
    fun hi => atomic_next (c := some c) (execAcas.eq_def ..) reach hi⟩

/-! ## Values -/

/-- A number of n bytes, signed or natural (R221). -/
def numVal (signed : Bool) (n z : Nat) : Int := if signed && decide (z ≥ 2 ^ (8 * n - 1)) then (z : Int) - 2 ^ (8 * n) else z

theorem pickNum_false (signed : Bool) (n x y : Nat) :
    pickNum false signed n x y = if numVal signed n x ≤ numVal signed n y then x else y := by
  simp [pickNum, numVal]

theorem pickNum_true (signed : Bool) (n x y : Nat) :
    pickNum true signed n x y = if numVal signed n x ≤ numVal signed n y then y else x := by
  simp only [pickNum, Bool.bne_true, Bool.not_eq_true', decide_eq_false_iff_not, ite_not]
  rfl

theorem pickNum_min (signed : Bool) (n x y : Nat) :
    numVal signed n (pickNum false signed n x y) = min (numVal signed n x) (numVal signed n y) := by
  rw [pickNum_false, min_def, apply_ite (numVal signed n)]

theorem pickNum_max (signed : Bool) (n x y : Nat) :
    numVal signed n (pickNum true signed n x y) = max (numVal signed n x) (numVal signed n y) := by
  rw [pickNum_true, max_def, apply_ite (numVal signed n)]

/-- The type of a reduction of words or of doublewords, signed or natural (R223). -/
def intRedTy (dw signed : Bool) : RedTy := if dw then (if signed then .s64 else .n64) else if signed then .s32 else .n32

theorem reduceNew_int (dw signed : Bool) (old x : Nat) :
    let n := if dw then 8 else 4
    reduceNew .radd (intRedTy dw signed) old x = (old + x) % 2 ^ (8 * n) ∧
    reduceNew .rmin (intRedTy dw signed) old x = pickNum false signed n old x ∧
    reduceNew .rmax (intRedTy dw signed) old x = pickNum true signed n old x := by
  cases dw <;> cases signed <;> exact ⟨rfl, rfl, rfl⟩

/-- An FP32 encoding is a NaN where its exponent is all ones and its fraction is not 0 (R45). -/
theorem decode_isNan (z : Nat) : (fp32.decode z).isNan = true ↔ z / 2 ^ 23 % 256 = 255 ∧ z % 2 ^ 23 ≠ 0 := by
  have exp : z / 2 ^ 23 % 256 = 255 ↔ z / 2 ^ fp32.wf % 2 ^ fp32.we = 2 ^ fp32.we - 1 := Iff.rfl
  have frac : z % 2 ^ 23 = z % 2 ^ fp32.wf := rfl
  rw [exp, frac, FFmt.decode]
  split_ifs with top zero <;> simp_all [FVal.isNan]

/-- The bits of an FP32 encoding as a number that orders as the real value does, with -0 below +0 (R134). -/
def wordKey (z : Nat) : Int := if 2 ^ 31 ≤ z then 2 ^ 31 - 1 - (z : Int) else z

theorem wordKey_injective : Function.Injective wordKey := fun x y h => by
  unfold wordKey at h
  split_ifs at h <;> omega

theorem fpPick_nan (max : Bool) {x y : Nat} (h : (fp32.decode x).isNan = true ∨ (fp32.decode y).isNan = true) :
    fpPick max x y = 0x7FC00000 := by
  rw [fpPick, if_pos (Bool.or_eq_true_iff.mpr h)]
  rfl

section
variable {x y : Nat} (hx : ¬(fp32.decode x).isNan = true) (hy : ¬(fp32.decode y).isNan = true)
include hx hy

theorem fpPick_number (max : Bool) : fpPick max x y = if decide (wordKey x ≤ wordKey y) != max then x else y := by
  have key (z : Nat) : (if z ≥ 2 ^ 31 then -((z : Int) - 2 ^ 31) - 1 else (z : Int)) = wordKey z := by
    unfold wordKey
    split_ifs <;> omega
  rw [fpPick, if_neg (by rw [Bool.or_eq_true_iff]; exact not_or.mpr ⟨hx, hy⟩)]
  simp only [key]

theorem fpPick_min : fpPick false x y = if wordKey x ≤ wordKey y then x else y := by
  rw [fpPick_number hx hy, Bool.bne_false]
  simp only [decide_eq_true_eq]

theorem fpPick_max : fpPick true x y = if wordKey y ≤ wordKey x then x else y := by
  rw [fpPick_number hx hy, Bool.bne_true]
  obtain less | same | more := lt_trichotomy (wordKey x) (wordKey y)
  · simp [less.le, less.not_ge]
  · simp [wordKey_injective same]
  · simp [more.le, more.not_ge]

end

theorem atomicResults : AtomicResults := by
  intro dw nat old x y n num ty
  obtain ⟨add, min, max⟩ := reduceNew_int dw nat old x
  refine ⟨rfl, rfl, rfl, pickNum_min (!nat) n old x, pickNum_max (!nat) n old x, add,
    (congrArg _ min).trans (pickNum_min nat n old x), (congrArg _ max).trans (pickNum_max nat n old x), rfl, fun _ _ => ?_⟩
  intro nan key
  have number {z : Nat} (h : ¬nan z) : ¬(fp32.decode z).isNan = true := mt (decode_isNan z).mp h
  exact ⟨fun h => have h := h.imp (decode_isNan old).mpr (decode_isNan x).mpr
      ⟨fpPick_nan false h, fpPick_nan true h⟩,
    fun ho hx => ⟨fpPick_min (number ho) (number hx), fpPick_max (number ho) (number hx)⟩⟩

end Sys2Proof.Machine

open Sys2Proof Sys2Proof.Machine

/-- Settles O37: the five atomics run one issue rule, whose checks pass where the line is reached; the values follow from the order of
the integers, and for FP32 from the key of the bits, which is injective, so that equal keys are equal words. -/
theorem atomics : Obligations.Atomics := ⟨atomicsEnter, atomicResults⟩
end

section
/-! SUPPORT. WAIT at issue (R195), and the statement about it. -/

namespace Sys2Proof.Machine

theorem waitMet_iff {n : Nat} {f : Fin 16} : waitMet n f = true ↔ f.val = 15 ∨ n ≤ f.val := decide_eq_true_iff

/-- Whether the tile meets every field of a WAIT (R195). -/
def Tile.waitsMet (t : Tile) (ld st cp mx ms : Fin 16) : Bool :=
  waitMet (t.count .ld) ld && waitMet (t.count .st) st && waitMet (t.count .cp) cp && waitMet (t.count .mx) mx && waitMet (t.count .ms) ms

theorem Tile.waitsMet_iff {t : Tile} {ld st cp mx ms : Fin 16} : t.waitsMet ld st cp mx ms = true ↔
    (ld.val = 15 ∨ t.count .ld ≤ ld.val) ∧ (st.val = 15 ∨ t.count .st ≤ st.val) ∧ (cp.val = 15 ∨ t.count .cp ≤ cp.val) ∧
    (mx.val = 15 ∨ t.count .mx ≤ mx.val) ∧ (ms.val = 15 ∨ t.count .ms ≤ ms.val) := by
  simp only [Tile.waitsMet, Bool.and_eq_true, waitMet_iff, and_assoc]

section
variable {s : State} {ld st cp mx ms : Fin 16}

theorem wait_issues (h : s.tile.waitsMet ld st cp mx ms = true) :
    exec (.wait ld st cp mx ms) s = .next (s.upd fun t => t.issued []) := by
  refine show execWait ld st cp mx ms s = _ from issue_of_ok s.tile.canIssue_nothing ?_
  show (failIf (!s.tile.waitsMet ld st cp mx ms) _ >>= _) = _
  rw [h, Bool.not_true, failIf_false, check_ok_bind]

theorem wait_stalls (h : s.tile.waitsMet ld st cp mx ms = false) : exec (.wait ld st cp mx ms) s = .next (s.stall 12) := by
  refine show execWait ld st cp mx ms s = _ from issue_of_wait s.tile.canIssue_nothing ?_
  show (failIf (!s.tile.waitsMet ld st cp mx ms) _ >>= _) = _
  rw [h, Bool.not_false, failIf_true, check_error_bind]

end

end Sys2Proof.Machine

open Sys2Proof Sys2Proof.Machine

/-- Settles O12: the five counts make one check, which passes exactly where each is met. -/
theorem wait : Obligations.Wait := fun s ld st cp mx ms => by
  intro met all
  refine ⟨fun h => ⟨_, wait_issues (Tile.waitsMet_iff.mpr h), frame_issued s []⟩, fun h => wait_stalls ?_⟩
  rw [← Bool.not_eq_true, Tile.waitsMet_iff]
  exact h
end

section
/-! SUPPORT. The copies at issue (R187 to R193): what leaves the tile's NI, how a copy enters class CP, and each instruction by its checks. -/

namespace Sys2Proof.Machine

/-! ## What leaves the NI -/

/-- Flits, packets, remote fills and credits leave the tile for its operation of a stamp; of the tile, requests of that operation alone may
be held at the NI (R188, R192, R305). -/
def SendsFor (stamp : Nat) (s t : State) : Prop :=
  t = { s with
    tile := t.tile, sync := t.sync
    fab := { s.fab with serial := t.fab.serial, flits := t.fab.flits, moves := t.fab.moves, remotes := t.fab.remotes } } ∧
  TileSends s t ∧ HoldsMore stamp s t

theorem SendsFor.refl (stamp : Nat) (s : State) : SendsFor stamp s s := ⟨rfl, TileSends.refl s, HoldsMore.refl stamp s⟩

theorem SendsFor.trans {stamp : Nat} {a b c : State} (h : SendsFor stamp a b) (k : SendsFor stamp b c) : SendsFor stamp a c := by
  obtain ⟨same, tile, held⟩ := h
  obtain ⟨same', tile', held'⟩ := k
  refine ⟨?_, tile.trans tile', held.trans held'⟩
  rw [same', same]

/-- What changes no part of the tile holds no request. -/
theorem SendsFor.of_tile {stamp : Nat} {s t : State} (tile : t.tile = s.tile) (h : t = { s with
    sync := t.sync
    fab := { s.fab with serial := t.fab.serial, flits := t.fab.flits, moves := t.fab.moves, remotes := t.fab.remotes } }) :
    SendsFor stamp s t := by
  refine ⟨by rw [tile]; exact h, ?_, [], ?_, nofun⟩
  · rw [TileSends, tile]
  · rw [tile, List.append_nil]

theorem State.injectReqs_sendsFor (s : State) (stamp : Nat) (sites : List Nat) : SendsFor stamp s (s.injectReqs stamp sites) := by
  refine ⟨?_, tileSends_injectReqs .., State.injectReqs_holdsMore ..⟩
  have flits := s.injectReqs_sameButFlits stamp sites
  rw [SameButFlits] at flits
  rw [flits]

theorem State.injectReqs_sync (s : State) (stamp : Nat) (sites : List Nat) : (s.injectReqs stamp sites).sync = s.sync :=
  (congrArg State.sync (s.injectReqs_sameButFlits stamp sites)).trans rfl

theorem State.injectReqs_remotes (s : State) (stamp : Nat) (sites : List Nat) : (s.injectReqs stamp sites).fab.remotes = s.fab.remotes :=
  (congrArg (·.fab.remotes) (s.injectReqs_sameButFlits stamp sites)).trans rfl

/-! ## Pending bytes -/

/-- With XP, a credit of pending bytes is on its way to a counter that is named, and nothing else is new at the sync engines (R188). -/
def Expects (s t : State) (xp : Bool) (id : W32) (total : Nat) : Prop :=
  if xp = true ∧ id ≠ 0 then
    ∃ k, t.sync = { s.sync with credits := s.sync.credits ++ [⟨k, s.tile.gang.asid, s.tile.id.gid, id, 0, total⟩] }
  else t.sync = s.sync

/-- A credit leaves by a packet of its own. -/
theorem State.credit_eq (s : State) (asid : Nat) {id : W32} (value : Nat) (pend : Int) (h : id ≠ 0) :
    let t := s.credit asid id value pend
    t = { s with
      sync := { s.sync with credits := s.sync.credits ++ [⟨s.fab.serial, asid, s.tile.id.gid, id, value, pend⟩] }
      fab := { s.fab with serial := t.fab.serial, flits := t.fab.flits, moves := t.fab.moves } } := by
  simp only [State.credit, if_neg h]
  rfl

theorem State.expect_sends (s : State) (xp : Bool) (id : W32) (total stamp : Nat) :
    SendsFor stamp s (s.expect xp id total) ∧ Expects s (s.expect xp id total) xp id total ∧
    (s.expect xp id total).fab.remotes = s.fab.remotes := by
  unfold Expects
  by_cases h : xp = true ∧ id ≠ 0
  · obtain ⟨rfl, named⟩ := h
    have leaves := s.credit_eq s.tile.gang.asid 0 total named
    rw [show s.expect true id total = s.credit s.tile.gang.asid id 0 total from rfl, if_pos ⟨rfl, named⟩]
    generalize s.credit s.tile.gang.asid id 0 total = t at leaves
    refine ⟨SendsFor.of_tile ((congrArg State.tile leaves).trans rfl) ?_, ⟨_, (congrArg State.sync leaves).trans rfl⟩,
      (congrArg (·.fab.remotes) leaves).trans rfl⟩
    rw [leaves]
  · have same : s.expect xp id total = s := by
      cases xp with
      | false => rfl
      | true => exact if_pos (not_not.mp fun named => h ⟨rfl, named⟩)
    rw [same, if_neg h]
    exact ⟨SendsFor.refl stamp s, rfl, rfl⟩

/-! ## Remote fills -/

/-- A remote fill before it leaves. -/
def Remote.bare (x : Remote) : Remote := { x with serial := 0, phys := none }

/-- The remote fill of one recipient, by its place, its virtual tile and its bytes (R192). -/
def remoteFill (id : TileId) (stamp : Nat) (sh : Fin 64) (ctr : W32) (r : Nat × Nat × Nat) : Remote :=
  ⟨0, { id with vt := r.2.1 }, id.vt, stamp, r.1, sh, r.2.2, ctr, none, false⟩

/-- Remote fills leave, one for each recipient, and nothing but the fabric changes. -/
theorem State.sendFills_next (s : State) (tr stamp : Nat) (sh : Fin 64) (ctr : W32) (l : List (Nat × Nat × Nat)) :
    let t := s.sendFills tr stamp sh ctr l
    t = { s with fab := { s.fab with serial := t.fab.serial, remotes := t.fab.remotes } } ∧
    ∃ new, t.fab.remotes = s.fab.remotes ++ new ∧ new.map Remote.bare = l.map (remoteFill s.tile.id stamp sh ctr) := by
  induction l generalizing s with
  | nil => exact ⟨rfl, [], by simp [State.sendFills], rfl⟩
  | cons r l ih =>
    let x : Remote := { remoteFill s.tile.id stamp sh ctr r with serial := s.fab.serial, phys := s.seen { s.tile.id with vt := r.2.1 } tr }
    obtain ⟨same, new, remotes, told⟩ := ih { s with fab := { s.fab with serial := s.fab.serial + 1, remotes := s.fab.remotes ++ [x] } }
    exact ⟨same, x :: new, remotes.trans (List.append_assoc ..), congrArg (List.cons _) told⟩

/-- One remote fill leaves under the next serial number. -/
theorem State.sendFills_one (s : State) (tr stamp : Nat) (sh : Fin 64) (ctr : W32) (r : Nat × Nat × Nat) : ∃ phys,
    (s.sendFills tr stamp sh ctr [r]).fab.remotes =
      s.fab.remotes ++ [{ remoteFill s.tile.id stamp sh ctr r with serial := s.fab.serial, phys := phys }] := ⟨_, rfl⟩

section
variable (s : State) (tr stamp : Nat) (sh : Fin 64) (ctr : W32) (l : List (Nat × Nat × Nat))

theorem State.sendFills_tile : (s.sendFills tr stamp sh ctr l).tile = s.tile :=
  (congrArg State.tile (s.sendFills_next tr stamp sh ctr l).1).trans rfl

theorem State.sendFills_sync : (s.sendFills tr stamp sh ctr l).sync = s.sync :=
  (congrArg State.sync (s.sendFills_next tr stamp sh ctr l).1).trans rfl

theorem State.sendFills_sendsFor : SendsFor stamp s (s.sendFills tr stamp sh ctr l) := by
  refine SendsFor.of_tile (s.sendFills_tile tr stamp sh ctr l) ?_
  have same := (s.sendFills_next tr stamp sh ctr l).1
  generalize s.sendFills tr stamp sh ctr l = t at same
  rw [same]

end

/-- The recipients of a deal that have a block, each with its virtual tile and its bytes (R191). -/
def Deal.fills (d : Deal) (total : Nat) : List (Nat × Nat × Nat) :=
  (List.range d.count).filterMap fun t => if d.share total t = 0 then none else some (t, d.recipient t, d.share total t)

theorem Deal.mem_fills {d : Deal} {total : Nat} {f : Nat × Nat × Nat} : f ∈ d.fills total ↔
    ∃ r, (r < d.rows * d.cols ∧ d.share total r ≠ 0) ∧ f = (r, d.recipient r, d.share total r) := by
  rw [Deal.fills, List.mem_filterMap]
  refine exists_congr fun r => ?_
  rw [List.mem_range, Deal.count, Option.ite_none_left_eq_some, Option.some.injEq, and_assoc, eq_comm (a := f)]

/-- The remote fills of a deal, one for each recipient that has a block (R191, R192). -/
def Deal.Sent (d : Deal) (total : Nat) (id : TileId) (stamp : Nat) (sh : Fin 64) (ctr : W32) (new : List Remote) : Prop :=
  (∀ r, (∃ m ∈ new, m.recip = r) ↔ r < d.rows * d.cols ∧ d.share total r ≠ 0) ∧
  ∀ m ∈ new, m.dst = { id with vt := d.recipient m.recip } ∧ m.issuer = id.vt ∧ m.stamp = stamp ∧ m.sh = sh ∧
    m.len = d.share total m.recip ∧ m.ctr = ctr ∧ m.parked = false

theorem Deal.sent_of_bare {d : Deal} {total stamp : Nat} {id : TileId} {sh : Fin 64} {ctr : W32} {new : List Remote}
    (h : new.map Remote.bare = (d.fills total).map (remoteFill id stamp sh ctr)) : d.Sent total id stamp sh ctr new := by
  have sent {m : Remote} (hm : m ∈ new) : ∃ r, (r < d.rows * d.cols ∧ d.share total r ≠ 0) ∧
      m.bare = remoteFill id stamp sh ctr (r, d.recipient r, d.share total r) := by
    obtain ⟨f, hf, bare⟩ := List.mem_map.mp (h ▸ List.mem_map_of_mem (f := Remote.bare) hm)
    obtain ⟨r, block, rfl⟩ := Deal.mem_fills.mp hf
    exact ⟨r, block, bare.symm⟩
  refine ⟨fun r => ⟨?_, fun block => ?_⟩, fun m hm => ?_⟩
  · rintro ⟨m, hm, rfl⟩
    obtain ⟨r, block, bare⟩ := sent hm
    rwa [show m.recip = r from congrArg Remote.recip bare]
  · have mem := List.mem_map_of_mem (f := remoteFill id stamp sh ctr) (Deal.mem_fills.mpr ⟨r, block, rfl⟩)
    obtain ⟨m, hm, bare⟩ := List.mem_map.mp (h ▸ mem)
    exact ⟨m, hm, congrArg Remote.recip bare⟩
  · obtain ⟨r, -, bare⟩ := sent hm
    rw [show m.recip = r from congrArg Remote.recip bare]
    exact ⟨congrArg Remote.dst bare, congrArg Remote.issuer bare, congrArg Remote.stamp bare, congrArg Remote.sh bare,
      congrArg Remote.len bare, congrArg Remote.ctr bare, congrArg Remote.parked bare⟩

/-! ## A copy that enters its class -/

theorem Tile.pushCopy_hasUsed (t : Tile) (c : OutCopy) : ∃ u, t.HasUsed u ∧ t.pushCopy c = { u with ops := { t.ops with
    stamp := t.ops.stamp + 1, copies := t.ops.copies ++ [{ c with stamp := t.ops.stamp }] } } := by
  unfold Tile.pushCopy
  split
  · exact ⟨t, Tile.HasUsed.refl t, rfl⟩
  · exact ⟨_, t.hasUsed_usePages c.va c.len, rfl⟩

theorem Tile.pushCopy_ops (t : Tile) (c : OutCopy) : (t.pushCopy c).ops = { t.ops with
    stamp := t.ops.stamp + 1, copies := t.ops.copies ++ [{ c with stamp := t.ops.stamp }] } := by
  obtain ⟨u, -, pushed⟩ := t.pushCopy_hasUsed c
  rw [pushed]

theorem Tile.pushCopy_eng (t : Tile) (c : OutCopy) : (t.pushCopy c).eng = t.eng := by
  obtain ⟨u, ⟨_, _, _, rfl, -⟩, pushed⟩ := t.pushCopy_hasUsed c
  rw [pushed]

theorem Tile.pushCopy_g (t : Tile) (c : OutCopy) (r : GReg) : (t.pushCopy c).g r = t.g r := by
  obtain ⟨u, ⟨_, _, _, rfl, -⟩, pushed⟩ := t.pushCopy_hasUsed c
  rw [pushed]
  rfl

theorem Tile.issued_g (t : Tile) (reads : List RegName) (r : GReg) : (t.issued reads).g r = t.g r := by
  obtain ⟨-, -, -, ⟨g, -, -, -⟩, -⟩ := t.keeps_issuedWords 1 reads
  exact g r List.not_mem_nil

/-- The tile of a copy that issues: the copy is entered, with the shingles and the fills that its form leaves. -/
def Tile.enterCopy (t : Tile) (reads : List RegName) (c : OutCopy) (shs : Vector (Option Shingle) 64) (fills : List Fill) : Tile :=
  let u := (t.issued reads).pushCopy c
  { u with eng := { u.eng with shingles := shs }, ops := { u.ops with fills := fills } }

section
variable (t : Tile) (reads : List RegName) (c : OutCopy)

theorem Tile.enterCopy_of_fields {u : Tile} (h : (t.issued reads).pushCopy c = u) :
    u = t.enterCopy reads c u.eng.shingles u.ops.fills := by
  rw [Tile.enterCopy, h]

/-- A copy that changes neither the shingles nor the fills of its tile. -/
theorem Tile.pushCopy_eq : (t.issued reads).pushCopy c = t.enterCopy reads c t.eng.shingles t.ops.fills := by
  have eng : ((t.issued reads).pushCopy c).eng = t.eng := (Tile.pushCopy_eng ..).trans (t.issued_eng reads)
  have fills : ((t.issued reads).pushCopy c).ops.fills = t.ops.fills := by rw [Tile.pushCopy_ops, Tile.issued_ops]
  rw [← eng, ← fills]
  exact t.enterCopy_of_fields reads c rfl

theorem Tile.setSh_enterCopy (shs : Vector (Option Shingle) 64) (fills : List Fill) (n : Fin 64) (x : Option Shingle) :
    (t.enterCopy reads c shs fills).setSh n x = t.enterCopy reads c (shs.set n.val x n.isLt) fills := rfl

theorem Tile.enterCopy_same (shs : Vector (Option Shingle) 64) (fills : List Fill) :
    (t.enterCopy reads c shs fills).id = t.id ∧ (t.enterCopy reads c shs fills).gang = t.gang ∧
    (t.enterCopy reads c shs fills).ops.stamp = t.ops.stamp + 1 := by
  obtain ⟨u, ⟨_, _, _, rfl, -⟩, pushed⟩ := (t.issued reads).pushCopy_hasUsed c
  rw [Tile.enterCopy, pushed, Tile.issued_ops]
  exact ⟨t.issued_id reads, t.issued_gang reads, rfl⟩

end

theorem Tile.enterCopy_g (t : Tile) (reads : List RegName) (c : OutCopy) (shs : Vector (Option Shingle) 64) (fills : List Fill) (r : GReg) :
    (t.enterCopy reads c shs fills).g r = t.g r := (Tile.pushCopy_g ..).trans (t.issued_g reads r)

/-- A copy has issued, and nothing has left for it yet. -/
def State.withCopy (s : State) (reads : List RegName) (c : OutCopy) (shs : Vector (Option Shingle) 64) (fills : List Fill) : State :=
  s.upd fun t => t.enterCopy reads c shs fills

section
variable (s : State) (reads : List RegName) (c : OutCopy) (shs : Vector (Option Shingle) 64) (fills : List Fill)

theorem State.withCopy_id : (s.withCopy reads c shs fills).tile.id = s.tile.id := (s.tile.enterCopy_same reads c shs fills).1

theorem State.withCopy_gang : (s.withCopy reads c shs fills).tile.gang = s.tile.gang := (s.tile.enterCopy_same reads c shs fills).2.1

theorem State.withCopy_stamp : (s.withCopy reads c shs fills).tile.ops.stamp = s.tile.ops.stamp + 1 :=
  (s.tile.enterCopy_same reads c shs fills).2.2

end

/-- A copy enters its class, and what it sends leaves. -/
theorem entersCopy_of {s u : State} {reads : List RegName} {c : OutCopy} {shs : Vector (Option Shingle) 64} {fills : List Fill}
    (sends : SendsFor s.tile.ops.stamp (s.withCopy reads c shs fills) u) (units : c.units = []) (visible : c.visible = false) :
    EntersCopy s u { c with stamp := s.tile.ops.stamp } ∧ u.tile.ops.fills = fills ∧
      u.tile.eng = { s.tile.eng with shingles := shs } := by
  obtain ⟨same, tile, more, held, own⟩ := sends
  obtain ⟨⟨id, gang, inb, eng, ni, pl⟩, ops, pad, regs, pc⟩ := s.tile.keeps_issuedWords 1 reads
  obtain ⟨v, ⟨tlb, got, noLeaf, rfl, perm⟩, pushed⟩ := (s.tile.issued reads).pushCopy_hasUsed c
  rw [TileSends, State.withCopy, State.upd_tile, Tile.enterCopy, pushed, Tile.issued_ops] at tile
  rw [State.withCopy, State.upd_tile, Tile.enterCopy, pushed, Tile.issued_ops] at held
  have engine : u.tile.eng = { s.tile.eng with shingles := shs } :=
    (congrArg Tile.eng tile).trans (congrArg (fun x : Engine => { x with shingles := shs }) eng)
  refine ⟨⟨same, (congrArg Tile.id tile).trans id, (congrArg Tile.gang tile).trans gang, (congrArg Tile.inb tile).trans inb,
    (congrArg Tile.pl tile).trans pl, ⟨?_, ?_⟩, ?_, ?_, ?_, (congrArg (·.iss.writes) tile).trans (s.tile.issued_writes reads), ?_,
    ⟨more, held, own⟩, ?_, rfl, units, visible⟩, (congrArg (·.ops.fills) tile).trans rfl, engine⟩
  · rw [tile]; exact congrArg (fun x : Phys => { x with tlb := tlb, got := got, noLeaf := noLeaf }) ni
  · rw [tile]; exact perm.trans (.of_eq (congrArg _ ni))
  · rw [tile]; exact pad
  · rw [tile]; exact regs
  · rw [tile]; exact pc
  · rw [tile]
  · rw [engine]

theorem Expects.congr {s s' t t' : State} {xp : Bool} {id : W32} {total : Nat} (h : Expects s t xp id total)
    (gang : s.tile.gang = s'.tile.gang) (tile : s.tile.id = s'.tile.id) (before : s.sync = s'.sync) (after : t'.sync = t.sync) :
    Expects s' t' xp id total := by
  rw [Expects, gang, tile, before] at h
  rwa [Expects, after]

theorem Expects.before_fills {s t : State} {tr stamp : Nat} {sh : Fin 64} {ctr : W32} {l : List (Nat × Nat × Nat)} {xp : Bool} {id : W32}
    {total : Nat} (h : Expects (s.sendFills tr stamp sh ctr l) t xp id total) : Expects s t xp id total :=
  h.congr (congrArg Tile.gang (s.sendFills_tile ..)) (congrArg Tile.id (s.sendFills_tile ..)) (s.sendFills_sync ..) rfl

theorem Expects.before_copy {s t : State} {reads : List RegName} {c : OutCopy} {shs : Vector (Option Shingle) 64} {fills : List Fill}
    {xp : Bool} {id : W32} {total : Nat} (h : Expects (s.withCopy reads c shs fills) t xp id total) : Expects s t xp id total :=
  h.congr (s.withCopy_gang ..) (s.withCopy_id ..) rfl rfl

/-- A shingle of a tile whose engine has one shingle set. -/
theorem Tile.sh_of_set {t u : Tile} {n : Fin 64} {x : Option Shingle}
    (h : u.eng = { t.eng with shingles := t.eng.shingles.set n.val x n.isLt }) (j : Fin 64) : u.sh j = if j = n then x else t.sh j := by
  rw [Tile.sh, h]
  exact vget_set t.eng.shingles n j x

theorem State.askStacks_sendsFor {s : State} {stamp : Nat} (pages : List (Nat × Nat)) (h : s.tile.ops.stamp = stamp + 1) :
    SendsFor stamp s (s.askStacks pages) := by
  rw [State.askStacks, h, Nat.add_sub_cancel]
  exact s.injectReqs_sendsFor ..

/-- The total is expected at the counter, and the bytes of the range are asked for. -/
theorem State.expect_askStacks {s : State} {stamp : Nat} (xp : Bool) (id : W32) (total : Nat) (pages : List (Nat × Nat))
    (h : s.tile.ops.stamp = stamp + 1) :
    let t := (s.expect xp id total).askStacks pages
    SendsFor stamp s t ∧ Expects s t xp id total ∧ t.fab.remotes = s.fab.remotes := by
  obtain ⟨sends, expects, remotes⟩ := s.expect_sends xp id total stamp
  have ⟨_, tile, _⟩ := sends
  have count : (s.expect xp id total).tile.ops.stamp = stamp + 1 := (congrArg (·.ops.stamp) tile).trans h
  exact ⟨sends.trans (State.askStacks_sendsFor pages count), expects.congr rfl rfl rfl (State.injectReqs_sync ..),
    (State.injectReqs_remotes ..).trans remotes⟩

/-! ## Checks -/

theorem State.checkRange_pages {s : State} {k : AccessKind} {ids : List W32} {va n : Nat} {l : List TlbEntry}
    (h : RangeReaches s k va n l) (free : ∀ c ∈ ids, CtrFree s c) : s.checkRange k ids va n = .ok (pageBases l va n) := by
  obtain ⟨pages, mode, perms⟩ := h
  obtain ⟨l', ok⟩ := State.checkRange_reaches ⟨l, pages, mode, perms⟩ free
  rw [ok]
  simp only [State.checkRange, modeWait_false mode, failIf_false, check_ok_bind, pages, State.checkGap] at ok
  split at ok
  · cases ok
  · split at ok
    · cases ok
    · split at ok
      · cases ok
      · exact ok.symm

/-- A shingle that is not in use and not held lets a role go on (R166). -/
theorem Tile.namedWaits_ok {t : Tile} {n : Fin 64} {x : Shingle} (role : ShRole) (hs : x.st = .empty ∨ x.st = .ready)
    (hh : t.holds n = false) : t.namedWaits n x role = .ok () := by
  obtain e | e := hs <;> simp [Tile.namedWaits, e, hh]

/-- No word of a shingle below its watermark is bad. -/
theorem Tile.badWords_nil {t : Tile} {base n : Nat} (h : ∀ k, base ≤ k → k < base + n + 8 → t.pad.bad.contains (k / 8) = false) :
    t.badWords base n = [] := by
  rw [Tile.badWords, List.filter_eq_nil_iff]
  intro k hk
  have low := List.mem_range.mp hk
  rw [show base / 8 + k = (base + 8 * k) / 8 by omega, h _ (by omega) (by omega)]
  decide

/-- The bytes that a copy has read at issue are those of its source. -/
theorem Memory.byte_copied (m : Memory) {base n k : Nat} (h : k < n) :
    Memory.byte (Memory.write [] 0 (Memory.bytes m base n)) k = Memory.byte m (base + k) := by
  rw [Memory.byte_write, Memory.bytes_length, if_pos ⟨Nat.zero_le k, by omega⟩, Nat.sub_zero, Memory.bytes_getD m h]

theorem waitsFirst_ok {α : Type} (x : α) (w : Except Stop Unit) : waitsFirst (.ok x) w = .ok x := rfl

/-! ## CPIN -/

/-- The copy of a CPIN (R189). -/
def State.cpinCopy (s : State) (n : Fin 64) (va len : Nat) (pages : List (Nat × Nat)) (id : W32) (acq : Bool) (sc : Scope) : OutCopy :=
  { stamp := 0, kind := .cpin, sh := n, va := va, len := len, pages := pages, ctr := id, vis := 0, flag := false
    hostWait := s.acquireList acq sc, buf := [], bad := [], units := [], left := len, released := false, visible := false, ecc := none
    hs := s.tile.handlesOf [(va, len)] }

/-- The shingle of a fill becomes FILLING. -/
theorem Tile.startFill_enterCopy {t : Tile} {reads : List RegName} {c : OutCopy} {fills : List Fill} {n : Fin 64} {x : Shingle}
    (h : t.sh n = some x) (id : W32) : (t.enterCopy reads c t.eng.shingles fills).startFill n id =
      t.enterCopy reads c (t.eng.shingles.set n.val (some { x with st := .filling, wmark := 0, fctr := id }) n.isLt) fills := by
  rw [Tile.startFill, show (t.enterCopy reads c t.eng.shingles fills).sh n = some x from h, Tile.setSh_enterCopy]
  rfl

/-- One more fill is in progress at a tile. -/
def Tile.addFill (t : Tile) (f : Fill) : Tile := { t with ops := { t.ops with fills := t.ops.fills ++ [f] } }

/-- The tile of a CPIN that issues: its shingle fills, and its fill is one more. -/
theorem Tile.startFill_fills {t : Tile} {reads : List RegName} {c : OutCopy} {n : Fin 64} {x : Shingle} (h : t.sh n = some x) (id : W32)
    (stamp len : Nat) :
    let u := ((t.issued reads).pushCopy c).startFill n id
    u.addFill ⟨.copy u.id.vt stamp 0, n, len, len, []⟩ =
      t.enterCopy reads c (t.eng.shingles.set n.val (some { x with st := .filling, wmark := 0, fctr := id }) n.isLt)
        (t.ops.fills ++ [⟨.copy t.id.vt stamp 0, n, len, len, []⟩]) := by
  intro u
  have filling : u = t.enterCopy reads c (t.eng.shingles.set n.val (some { x with st := .filling, wmark := 0, fctr := id }) n.isLt)
      t.ops.fills := (congrArg (·.startFill n id) (t.pushCopy_eq reads c)).trans (Tile.startFill_enterCopy h id)
  have same : u.id = t.id := by rw [filling]; exact (t.enterCopy_same ..).1
  rw [same, filling]
  rfl

section
variable {s : State} {a b : GReg} {sc : Scope} {acq rel xp : Bool} {x : Shingle} {va : Nat} {pages : List (Nat × Nat)} {n : Fin 64}
  {id : W32}

section
variable {len : Nat} (hn : copySh (s.tile.g a) = n) (hva : copyVa (s.tile.g a) = va) (hid : ctrId (s.tile.g b) = id)
  (hlen : (if bitsOf (s.tile.g b).toNat 51 32 ≠ 0 then bitsOf (s.tile.g b).toNat 51 32 else x.len * 64) = len)
  (hi : s.tile.canIssue { regs := [.g a, .g b], reads := [.g a, .g b], cls := some .cp, hs := s.tile.handlesOf [(va, len)] })
  (free : CtrFree s id) (range : s.checkRange .copyIn [id] va len = .ok pages) (hx : s.tile.sh n = some x)
  (hs : x.st = .empty ∨ x.st = .ready) (hh : s.tile.holds n = false) (fits : len ≤ x.len * 64)
include hn hva hid hlen hi free range hx hs hh fits

theorem cpin_next : exec (.cpin a b sc acq xp) s = .next (((s.withCopy [.g a, .g b] (s.cpinCopy n va len pages id acq sc)
    (s.tile.eng.shingles.set n.val (some { x with st := .filling, wmark := 0, fctr := id }) n.isLt)
    (s.tile.ops.fills ++ [⟨.copy s.tile.id.vt s.tile.ops.stamp 0, n, len, len, []⟩])).expect xp id len).askStacks pages) := by
  subst hn hva hid
  rw [show exec (.cpin a b sc acq xp) s = execCpin a b sc acq xp s from rfl, execCpin]
  simp only [hx, hlen]
  refine issue_of_ok hi ?_
  simp only [State.throttleCopy_free (forall_mem_one (undenied_of_free free)), range, waitsFirst_ok,
    Tile.namedTraps_open (role := .fill) 8 hx fun _ => rfl, extentTrap_inside 8 fits, Tile.namedWaits_ok .fill hs hh, check_ok_bind]
  exact congrArg (fun v : Tile => Except.ok ((State.expect { s with tile := v } xp (ctrId (s.tile.g b)) len).askStacks _))
    (Tile.startFill_fills (c := s.cpinCopy _ _ len _ _ acq sc) hx _ _ len)

theorem cpin_enters : ∃ t c, exec (.cpin a b sc acq xp) s = .next t ∧ Expects s t xp id len ∧ EntersCopy s t c ∧
    t.fab.remotes = s.fab.remotes ∧ c.kind = .cpin ∧ c.sh = n ∧ c.va = va ∧ c.len = len ∧ c.pages = pages ∧ c.ctr = id ∧
    c.left = len ∧ t.tile.ops.fills = s.tile.ops.fills ++ [⟨.copy s.tile.id.vt s.tile.ops.stamp 0, n, len, len, []⟩] ∧
    ∀ j, t.tile.sh j = if j = n then some { x with st := .filling, wmark := 0, fctr := id } else s.tile.sh j := by
  have next := cpin_next (sc := sc) (acq := acq) (xp := xp) hn hva hid hlen hi free range hx hs hh fits
  obtain ⟨sends, expects, remotes⟩ := State.expect_askStacks xp id len pages (s.withCopy_stamp ..)
  obtain ⟨enters, fills, eng⟩ := entersCopy_of (c := s.cpinCopy n va len _ id acq sc) sends rfl rfl
  exact ⟨_, _, next, expects.before_copy, enters, remotes, rfl, rfl, rfl, rfl, rfl, rfl, rfl, fills, Tile.sh_of_set eng⟩

end

/-! ## CPOUT -/

/-- The copy of a CPOUT, with the bytes of its shingle (R190). -/
def State.cpoutCopy (s : State) (n : Fin 64) (x : Shingle) (va : Nat) (pages : List (Nat × Nat)) (id id2 : W32) (rel : Bool) : OutCopy :=
  { stamp := s.tile.ops.stamp, kind := .cpout, sh := n, va := va, len := x.wmark, pages := pages, ctr := id, vis := id2, flag := rel
    hostWait := [], buf := Memory.write [] 0 (Memory.bytes s.tile.pad.bytes x.base x.wmark), bad := [], units := [], left := 0
    released := false, visible := false, ecc := none, hs := s.tile.handlesOf [(va, x.wmark)] }

section
variable {id2 : W32} (hn : copySh (s.tile.g a) = n) (hva : copyVa (s.tile.g a) = va) (hid : ctrId (s.tile.g b) = id)
  (hid2 : ctrId (s.tile.g b >>> 32) = id2)
  (hi : s.tile.canIssue { regs := [.g a, .g b], reads := [.g a, .g b], cls := some .cp, hs := s.tile.handlesOf [(va, x.wmark)] })
  (free : CtrFree s id) (free2 : CtrFree s id2) (range : s.checkRange .copyOut [id, id2] va x.wmark = .ok pages)
  (hx : s.tile.sh n = some x) (hs : x.st = .ready) (hh : s.tile.holds n = false) (good : s.tile.badWords x.base x.wmark = [])
include hn hva hid hid2 hi free free2 range hx hs hh good

theorem cpout_next :
    let c := s.cpoutCopy n x va pages id id2 rel
    exec (.cpout a b sc rel) s = .next ((s.withCopy [.g a, .g b] c
      (s.tile.eng.shingles.set n.val (some { x with st := .draining, dctr := id }) n.isLt) s.tile.ops.fills).sendUnits c) := by
  subst hn hva hid hid2
  rw [show exec (.cpout a b sc rel) s = execCpout a b sc rel s from rfl, execCpout]
  simp only [hx]
  refine issue_of_ok hi ?_
  simp only [State.throttleCopy_free (forall_mem_two (undenied_of_free free) (undenied_of_free free2)),
    range, waitsFirst_ok, Tile.namedTraps_open (role := .drain) 8 hx fun e => ShState.noConfusion (hs.symm.trans e),
    Tile.namedWaits_ok .drain (.inr hs) hh, good, check_ok_bind, State.sourceEcc, State.upd, Tile.pushCopy_eq, Tile.setSh_enterCopy]
  rfl

theorem cpout_enters : ∃ t c, exec (.cpout a b sc rel) s = .next t ∧ t.sync = s.sync ∧ EntersCopy s t c ∧
    t.fab.remotes = s.fab.remotes ∧ c.kind = .cpout ∧ c.sh = n ∧ c.va = va ∧ c.len = x.wmark ∧ c.pages = pages ∧
    c.ctr = id ∧ c.vis = id2 ∧ c.flag = rel ∧ c.bad = [] ∧
    (∀ k, k < x.wmark → Memory.byte c.buf k = Memory.byte s.tile.pad.bytes (x.base + k)) ∧ t.tile.ops.fills = s.tile.ops.fills ∧
    ∀ j, t.tile.sh j = if j = n then some { x with st := .draining, dctr := id } else s.tile.sh j := by
  have next := cpout_next (sc := sc) (rel := rel) hn hva hid hid2 hi free free2 range hx hs hh good
  obtain ⟨enters, fills, eng⟩ := entersCopy_of (c := s.cpoutCopy n x va _ id id2 rel) (State.injectReqs_sendsFor ..) rfl rfl
  exact ⟨_, _, next, State.injectReqs_sync .., enters, State.injectReqs_remotes .., rfl, rfl, rfl, rfl, rfl, rfl, rfl, rfl, rfl,
    fun k hk => Memory.byte_copied _ hk, fills, Tile.sh_of_set eng⟩

end

/-! ## CPDEAL -/

/-- The copy of a CPDEAL (R191). -/
def State.cpdealCopy (s : State) (d : Deal) (n : Fin 64) (va total : Nat) (pages : List (Nat × Nat)) (id : W32) (acq : Bool)
    (sc : Scope) : OutCopy :=
  { stamp := 0, kind := .cpdeal d, sh := n, va := va, len := total, pages := pages, ctr := id, vis := 0, flag := false
    hostWait := s.acquireList acq sc, buf := [], bad := [], units := [], left := total, released := false, visible := false, ecc := none
    hs := s.tile.handlesOf [(va, total)] }

/-- The stack of the first page of a range, whose streamer sends the fills of a deal (R191). -/
def firstStack (pages : List (Nat × Nat)) : Nat :=
  match pages with
  | p :: _ => p.2 / 2 ^ 36
  | [] => 0

section
variable {total : Nat} {dl : Deal} (htotal : bitsOf (s.tile.g b).toNat 63 40 = total)
  (hd : s.tile.gang.prog.deals[bitsOf (s.tile.g b).toNat 39 32]? = some dl)
include htotal hd

/-- A deal of no byte has no effect (R191). -/
theorem cpdeal_nothing (zero : total = 0) (hi : s.tile.canIssue { regs := [.g a, .g b], reads := [.g a, .g b] }) :
    exec (.cpdeal a b sc acq xp) s = .next (s.upd fun t => t.issued [.g a, .g b]) := by
  rw [show exec (.cpdeal a b sc acq xp) s = execCpdeal a b sc acq xp s from rfl, execCpdeal]
  simp only [hd, htotal, zero, if_true]
  exact issue_of_ok hi rfl

variable (hn : copySh (s.tile.g a) = n) (hva : copyVa (s.tile.g a) = va) (hid : ctrId (s.tile.g b) = id) (nonzero : total ≠ 0)
  (hi : s.tile.canIssue { regs := [.g a, .g b], reads := [.g a, .g b], cls := some .cp, hs := s.tile.handlesOf [(va, total)] })
  (free : CtrFree s id) (range : s.checkRange .copyIn [id] va total = .ok pages)
include hn hva hid nonzero hi free range

theorem cpdeal_next : exec (.cpdeal a b sc acq xp) s = .next ((((s.withCopy [.g a, .g b]
    (s.cpdealCopy dl n va total pages id acq sc) s.tile.eng.shingles s.tile.ops.fills).sendFills
      (streamerTr (firstStack pages)) s.tile.ops.stamp n id (dl.fills total)).expect xp id total).askStacks pages) := by
  subst hn hva hid
  rw [show exec (.cpdeal a b sc acq xp) s = execCpdeal a b sc acq xp s from rfl, execCpdeal]
  simp only [hd, htotal, nonzero, if_false]
  refine issue_of_ok hi ?_
  simp only [State.throttleCopy_free (forall_mem_one (undenied_of_free free)), range, check_ok_bind, State.upd,
    Tile.pushCopy_eq, Tile.enterCopy_g]
  rfl

theorem cpdeal_enters : ∃ t c new, exec (.cpdeal a b sc acq xp) s = .next t ∧ Expects s t xp id total ∧ EntersCopy s t c ∧
    c.kind = .cpdeal dl ∧ c.sh = n ∧ c.va = va ∧ c.len = total ∧ c.pages = pages ∧ c.ctr = id ∧ c.left = total ∧
    t.tile.ops.fills = s.tile.ops.fills ∧ t.tile.eng = s.tile.eng ∧ t.fab.remotes = s.fab.remotes ++ new ∧
    dl.Sent total s.tile.id s.tile.ops.stamp n id new := by
  have next := cpdeal_next (sc := sc) (acq := acq) (xp := xp) htotal hd hn hva hid nonzero hi free range
  set v := s.withCopy [.g a, .g b] (s.cpdealCopy dl n va total pages id acq sc) s.tile.eng.shingles s.tile.ops.fills
  obtain ⟨-, new, sent, bare⟩ := v.sendFills_next (streamerTr (firstStack pages)) s.tile.ops.stamp n id (dl.fills total)
  rw [show v.tile.id = s.tile.id from s.withCopy_id ..] at bare
  obtain ⟨sends, expects, remotes⟩ := State.expect_askStacks xp id total pages
    ((congrArg (·.ops.stamp) (v.sendFills_tile ..)).trans (s.withCopy_stamp ..))
  obtain ⟨enters, fills, eng⟩ := entersCopy_of ((v.sendFills_sendsFor ..).trans sends) rfl rfl
  exact ⟨_, _, new, next, expects.before_fills.before_copy, enters, rfl, rfl, rfl, rfl, rfl, rfl, rfl, fills, eng, remotes.trans sent,
    Deal.sent_of_bare bare⟩

end

/-! ## CPT -/

/-- The copy of a CPT (R193). -/
def cptCopy (n : Fin 64) (len : Nat) (id : W32) : OutCopy :=
  { stamp := 0, kind := .cpt, sh := n, va := 0, len := len, pages := [], ctr := id, vis := 0, flag := false, hostWait := [], buf := []
    bad := [], units := [], left := len, released := decide (len = 0), visible := false, ecc := none, hs := 0 }

section
variable {dst : Nat} {rsh : Fin 64} (hdst : bitsOf (s.tile.g a).toNat 23 0 = dst)
  (hrsh : Fin.ofNat 64 (bitsOf (s.tile.g a).toNat 29 24) = rsh) (hn : Fin.ofNat 64 (bitsOf (s.tile.g a).toNat 37 32) = n)
  (hid : ctrId (s.tile.g b) = id) (hi : s.tile.canIssue { regs := [.g a, .g b], reads := [.g a, .g b], cls := some .cp })
  (free : CtrFree s id) (inside : inGrid s.tile.gang.rows s.tile.gang.cols dst = true) (hx : s.tile.sh n = some x) (hs : x.st = .ready)
  (good : s.tile.badWords x.base x.wmark = [])
include hdst hrsh hn hid hi free inside hx hs good

theorem cpt_next :
    let v := s.withCopy [.g a, .g b] (cptCopy n x.wmark id) s.tile.eng.shingles s.tile.ops.fills
    exec (.cpt a b xp) s =
      .next ((v.sendFills v.tile.pl.phys s.tile.ops.stamp rsh id [(0, dst, x.wmark)]).expect xp id x.wmark) := by
  subst hdst hrsh hn hid
  refine show execCpt a b xp s = _ from issue_of_ok hi ?_
  simp only [State.throttleCopy_free (forall_mem_one (undenied_of_free free)), inside, sysCtr_of_free free, Bool.not_true, failIf_false,
    Tile.namedTraps_open (role := .read) 8 hx fun e => ShState.noConfusion (hs.symm.trans e), Tile.namedWaits_read hs, good,
    check_ok_bind, State.sourceEcc, State.upd, Tile.pushCopy_eq]
  rfl

theorem cpt_enters : ∃ t c phys, exec (.cpt a b xp) s = .next t ∧ Expects s t xp id x.wmark ∧ EntersCopy s t c ∧ c.kind = .cpt ∧
    c.sh = n ∧ c.len = x.wmark ∧ c.ctr = id ∧ c.left = x.wmark ∧ c.pages = [] ∧ c.released = decide (x.wmark = 0) ∧
    t.tile.ops.fills = s.tile.ops.fills ∧ t.tile.eng = s.tile.eng ∧ t.fab.remotes = s.fab.remotes ++
      [⟨s.fab.serial, { s.tile.id with vt := dst }, s.tile.id.vt, s.tile.ops.stamp, 0, rsh, x.wmark, id, phys, false⟩] := by
  have next := cpt_next (xp := xp) hdst hrsh hn hid hi free inside hx hs good
  set v := s.withCopy [.g a, .g b] (cptCopy n x.wmark id) s.tile.eng.shingles s.tile.ops.fills
  obtain ⟨phys, sent⟩ := v.sendFills_one v.tile.pl.phys s.tile.ops.stamp rsh id (0, dst, x.wmark)
  rw [show v.tile.id = s.tile.id from s.withCopy_id ..] at sent
  obtain ⟨sends, expects, remotes⟩ := State.expect_sends (v.sendFills v.tile.pl.phys s.tile.ops.stamp rsh id [(0, dst, x.wmark)]) xp id
    x.wmark s.tile.ops.stamp
  obtain ⟨enters, fills, eng⟩ := entersCopy_of ((v.sendFills_sendsFor ..).trans sends) rfl rfl
  exact ⟨_, _, phys, next, expects.before_fills.before_copy, enters, rfl, rfl, rfl, rfl, rfl, rfl, rfl, fills, eng, remotes.trans sent⟩

end

end

end Sys2Proof.Machine

open Sys2Proof Sys2Proof.Machine

/-- Settles O33: each copy passes its checks, enters its class by one lemma, and its fills and its credit leave one after the other. -/
theorem copies : Obligations.Copies := fun s a b sc acq rel xp x l dl => by
  intro w y va n id id2 cpFree expects
  have hn : copySh (s.tile.g a) = n := sh_of_bits _ 56
  have hva : copyVa (s.tile.g a) = va := bitsOf_low _ 55
  have hid : ctrId (s.tile.g b) = id := ctrId_eq _
  have total_eq : bitsOf (s.tile.g b).toNat 63 40 = y / 2 ^ 40 := Nat.mod_eq_of_lt (by omega)
  refine ⟨fun len hlen hi free range hx hs hh fits => ?cpin, fun hi free free2 range hx hs hh good => ?cpout,
    fun total htotal hd => ⟨fun zero hi => ?nothing, fun nonzero hi free range => ?cpdeal⟩,
    fun hi free src hsrc inside hx hs good => ?cpt⟩
  case cpin =>
    have pages := State.checkRange_pages range (forall_mem_one free)
    exact cpin_enters hn hva hid hlen.symm hi free pages hx hs hh fits
  case cpout =>
    have pages := State.checkRange_pages range (forall_mem_two free free2)
    exact cpout_enters hn hva hid (ctrId_high _) hi free free2 pages hx hs hh (Tile.badWords_nil good)
  case nothing =>
    exact ⟨_, cpdeal_nothing (total_eq.trans htotal.symm) hd zero hi, frame_issued s _⟩
  case cpdeal =>
    have pages := State.checkRange_pages range (forall_mem_one free)
    exact cpdeal_enters (total_eq.trans htotal.symm) hd hn hva hid nonzero hi free pages
  case cpt =>
    exact cpt_enters (bitsOf_low _ 23) (sh_of_bits _ 24) ((sh_of_bits _ 32).trans hsrc.symm) hid hi free inside hx hs
      (Tile.badWords_nil good)
end

section
/-! SUPPORT. The statement about GSTOP and GRESUME: it does not say that a counter is listed once, and fails where one is listed twice.

The name of a gang that is not live only signals the counter (R236). The signal gives every entry of the counter what the first one holds,
waiters among it. As at the release point of a CPOUT, a counter that is listed twice then takes the engine's table past its quota (R346),
with no overflow allocation to hold the rest, and the gang that issues is removed (R347). The statement says that the signal adds 1 to the
counter and does nothing else. -/

namespace Sys2Proof.Machine

/-- The module whose engines list counter 7 twice, each table within its quota. Its tile, at S, names gang 2, which is not live, in g1 and
counter 7 in g2. -/
def stopsNoGang : State :=
  { twiceListed with
    tile := { Tile.fresh with
      id := ⟨0, 1, 0⟩
      ex := { Exec.fresh with prv := true }
      regs := { Regs.fresh with g := (Regs.fresh.g.set 1 2).set 2 7 } } }

/-- The tables are within their quota: the engines are those of the other counterexample. -/
theorem stopsNoGang_roomy : Roomy stopsNoGang 0 := twiceListed_roomy

theorem stopsNoGang_canIssue : stopsNoGang.tile.canIssue { regs := [.g 1, .g 2], reads := [.g 1, .g 2] } :=
  (Tile.lacks_eq_nil ..).1 (by decide +kernel)

/-- GSTOP removes the gang that issues it. -/
theorem stopsNoGang_removed : ∃ v, exec (.gstop 1 2) stopsNoGang = .next v ∧ v.gangs = [] := ⟨_, rfl, by decide +kernel⟩

/-- The signal of a counter by itself leaves the gangs as they are, where the engine has met no error. -/
theorem State.gangs_ctrSignal_of_sound (s : State) {asid : Nat} {id : W32} (gid : Nat) (sound : s.sync.bad.contains (ctrKey asid id) = false) :
    (s.ctrSignal asid id gid).gangs = s.gangs := by
  unfold State.ctrSignal
  split
  · rfl
  · rw [State.ctrBy, State.ctrMeet, sound]
    exact (State.keepsPosts_ctrRaw ..).1

end Sys2Proof.Machine

open Sys2Proof Sys2Proof.Machine

/-- Refutes O41: with a counter that is listed twice, the signal of a GSTOP that names no live gang takes the engine's table past its quota,
and the gang that issues is removed, where the statement says that the counter gains 1 and nothing else changes. -/
theorem not_gangControl : ¬ Obligations.GangControl := by
  intro h
  obtain ⟨unnamed, -⟩ := h stopsNoGang 1 2 (stopsNoGang.newGang 0 2 ⟨0, [], 0⟩ default) rfl (.inr (by decide +kernel)) stopsNoGang_canIssue
  obtain ⟨u, next, frame, -, alone⟩ := unnamed (by decide +kernel) (.gstop 1 2) (.inl rfl)
  obtain ⟨module, -⟩ := frame
  obtain ⟨v, next', removed⟩ := stopsNoGang_removed
  have same : State.gangSignal 0 u ⟨0, 7, 1⟩ = v := Host.Outcome.next.inj (next.symm.trans next')
  have signalled : v = u.ctrSignal 0 7 1 := same.symm.trans (alone stopsNoGang_roomy (by decide +kernel))
  have gangs : v.gangs = stopsNoGang.gangs := by
    rw [signalled, State.gangs_ctrSignal_of_sound _ _ (by rw [module]; rfl), module]
  exact absurd (removed.symm.trans gangs) (by decide +kernel)
end

section
/-! SUPPORT. The statement about the sync engines' work: it does not say that a counter is listed once, and fails where one is listed twice.

The engine puts the waiter of a CWAIT whose threshold is not met in the entry of its counter (R216), which gives every entry of the counter
what the first one holds. Where the counter is listed twice, one CWAIT takes two waiters of its partition's quota (R346). Where the quota is
one, and the overflow allocation holds no second, the gang of the CWAIT is removed (R347). The statement says that the CWAIT is queued. -/

namespace Sys2Proof.Machine

/-- A CWAIT of counter 7, on its way to the engine, which waits for 1000. -/
def waitForMany : CwState := ⟨7, 1000, true, 0, none, true, false, false, none⟩

/-- A module whose engines list counter 7 of ASID 0 twice, with no waiter. The quota of a partition is one waiter in each engine, and three
entries of every other table; there is no overflow allocation. The tile belongs to a gang that is live, and holds at the CWAIT. -/
def twiceAwaited : State :=
  let image : Image := ⟨1, 0, false, [], 2, 2, 0, 0x1000, 0x200, [], [], ⟨[], [], [], []⟩⟩
  { State.reset.updPart 0 fun p => { p with gov := { p.gov with quota := #v[3, 1, 3, 3] } } with
    tile := { Tile.fresh with id := ⟨0, 1, 0⟩, ex := { Exec.fresh with cw := some waitForMany } }
    sync := { State.reset.sync with ctrs := [⟨0, 7, 0, 0, false, false, []⟩, ⟨0, 7, 0, 0, false, false, []⟩] }
    gangs := [State.reset.newGang 0 1 ⟨0, [], 0⟩ image] }

/-- Two counters are within a quota of three, and no waiter within a quota of one. -/
theorem twiceAwaited_roomy : Roomy twiceAwaited 0 := by
  have one : ∀ k : Fin 4, 0 < (twiceAwaited.part 0).gov.quota.get k := by decide
  intro table engine
  match table with
  | 0 => exact Nat.lt_of_le_of_lt List.countP_le_length (show 2 < 3 by decide)
  | 1 =>
    have waiters (p : Counter → Bool) : (twiceAwaited.sync.ctrs.filter p).foldl (fun n c => n + c.waiters.length) 0 = 0 := by
      show ((List.filter p [_, _]).foldl _ 0) = 0
      rw [List.filter_cons, List.filter_cons, List.filter_nil]
      split_ifs <;> rfl
    exact (waiters _).trans_lt (one _)
  | 2 => exact Nat.lt_of_le_of_lt List.countP_le_length (one _)
  | _ + 3 => exact Nat.lt_of_le_of_lt List.countP_le_length (one _)

/-- The CWAIT does not reach the queue: its gang is removed. -/
theorem twiceAwaited_removed {u : State} (h : exec .waiterRequest twiceAwaited = .next u) :
    u.tile.ex.cw ≠ some { waitForMany with queued := true } := by
  have next : ∃ v, exec .waiterRequest twiceAwaited = .next v ∧ v.tile.ex.cw = none := ⟨_, rfl, by decide +kernel⟩
  obtain ⟨v, hv, none⟩ := next
  obtain rfl : u = v := Host.Outcome.next.inj (h.symm.trans hv)
  rw [none]
  exact (Option.some_ne_none _).symm

end Sys2Proof.Machine

open Sys2Proof Sys2Proof.Machine

/-- Refutes O44: with a counter that is listed twice, the waiter of a CWAIT takes the engine's table past its quota, and the gang of the CWAIT
is removed, where the statement says that the CWAIT is queued. -/
theorem not_syncEvents : ¬ Obligations.SyncEvents := by
  intro h
  obtain ⟨-, -, waiter, -⟩ := h twiceAwaited
  obtain ⟨u, next, -, unmet⟩ := waiter waitForMany _ rfl rfl rfl rfl rfl ⟨by decide +kernel, twiceAwaited_roomy⟩ (by decide +kernel)
    (by decide +kernel) rfl rfl
  exact twiceAwaited_removed next (unmet (by decide +kernel)).1
end

section
/-! SUPPORT. The statement about the end of a gang-stop: it does not say that a counter is listed once, and fails where one is listed twice.

The end of a gang-stop signals the counters of its GSTOPs (R236). As at the release point of a CPOUT, a counter that is listed twice then
takes the engine's table past its quota (R346), with no overflow allocation to hold the rest. The signal is for the gang that stopped, whose
GSTOP named it, and that gang is removed (R347). The statement says that the gang is live and stopped. -/

namespace Sys2Proof.Machine

/-- Gang 1 has asked for its own stop, and for a signal of counter 7. -/
def selfStopped : Gang :=
  let image : Image := ⟨1, 0, false, [], 2, 2, 0, 0x1000, 0x200, [], [], ⟨[], [], [], []⟩⟩
  { State.reset.newGang 0 1 ⟨0, [], 0⟩ image with byGstop := true, stopWork := true, stopCtrs := [⟨0, 7, 1⟩] }

/-- The module whose engines list counter 7 twice, each table within its quota. Gang 1 has no virtual tile that is still to stop. -/
def stopsItself : State := { twiceListed with tile := Tile.fresh, gangs := [selfStopped] }

/-- The tables have room for one entry more: the engines are those of the other counterexample. -/
theorem stopsItself_roomFor : RoomFor stopsItself 0 1 := twiceListed_roomy

/-- The end of the gang-stop removes the gang. -/
theorem stopsItself_removed {u : State} (h : exec (.gangStopComplete 0 1) stopsItself = .next u) : u.gang 0 1 = none := by
  have next : ∃ v, exec (.gangStopComplete 0 1) stopsItself = .next v ∧ v.gang 0 1 = none := ⟨_, rfl, by decide +kernel⟩
  obtain ⟨v, hv, none⟩ := next
  obtain rfl : u = v := Host.Outcome.next.inj (h.symm.trans hv)
  exact none

end Sys2Proof.Machine

open Sys2Proof Sys2Proof.Machine

/-- Refutes O51: with a counter that is listed twice, the signal at the end of a gang-stop takes the engine's table past its quota, and the
gang is removed, where the statement says that it is live and stopped. -/
theorem not_placementEvents : ¬ Obligations.PlacementEvents := by
  intro h
  obtain ⟨-, -, -, -, -, -, complete, -⟩ := h stopsItself 0 1 0 selfStopped (by decide +kernel)
  have noTiles : stopsItself.tilesOf 0 1 = [] := by decide +kernel
  obtain ⟨u, next, live, -⟩ := complete (.inl rfl) rfl (by decide +kernel) rfl (by simp [noTiles]) stopsItself_roomFor rfl
  exact nomatch (stopsItself_removed next).symm.trans live
end

section
/-! SUPPORT. The statement about INRD: it does not exclude the error that fails a site, and fails there.

The sixteenth uncorrectable error of a site within 3,600 s of TIME fails the site (R389, R390), and repair stops every gang that has a
context there (R391). A tile that is idle stops at once (R334), and is not idle where it resumes. An INRD that meets the error in the
metadata of its slot is such a sixteenth error, and the statement does not say that the tile that issues it is at work: it says that an INRD
leaves the execution point at the next word, and else as it was. -/

namespace Sys2Proof.Machine

/-- An idle tile of gang 1 at physical tile 0. The metadata of its slot 0 is uncorrectable. -/
def idleWithBadSlot : Tile :=
  { Tile.fresh with
    id := ⟨0, 1, 0⟩
    ex := { Exec.fresh with idle := true }
    inb := { Inbox.fresh with bad := [2048] }
    pl := { Place.fresh with res := .resident, touched := true } }

/-- Physical tile 0 has met fifteen uncorrectable errors since power-on. -/
def fifteenBeforeInrd : State :=
  let image : Image := ⟨1, 0, false, [], 1, 1, 0, 0x1000, 0x200, [], [], ⟨[], [], [], []⟩⟩
  { State.reset with
    tile := idleWithBadSlot
    gangs := [State.reset.newGang 0 1 ⟨0, [], 0⟩ image]
    svc := { State.reset.svc with errs := [(0, { SiteErr.fresh with unc := 15, times := List.replicate 15 0 })] } }

/-- The sixteenth, which INRD meets, fails the site: the tile stops, and is idle no longer. -/
theorem fifteenBeforeInrd_stops {u : State} (h : exec (.inrd 1 0 false) fifteenBeforeInrd = .next u) : u.tile.ex.idle = false := by
  have next : ∃ v, exec (.inrd 1 0 false) fifteenBeforeInrd = .next v ∧ v.tile.ex.idle = false := ⟨_, rfl, by decide +kernel⟩
  obtain ⟨v, hv, stopped⟩ := next
  obtain rfl : u = v := Host.Outcome.next.inj (h.symm.trans hv)
  exact stopped

end Sys2Proof.Machine

open Sys2Proof Sys2Proof.Machine

/-- Refutes O35: where INRD meets the sixteenth uncorrectable error of a site, the site fails, and its gang stops, which changes more of an
idle tile's execution point than the PC. -/
theorem not_handlers : ¬ Obligations.Handlers := by
  intro h
  obtain ⟨-, -, metadataRead, -⟩ := h
  obtain ⟨u, -, next, -, -, nextPc, -⟩ :=
    metadataRead fifteenBeforeInrd 1 0 false ((Tile.lacks_eq_nil ..).1 (by decide +kernel)) (fun h => nomatch h)
  have idle : u.tile.ex.idle = true := congrArg Exec.idle nextPc
  exact nomatch idle.symm.trans (fifteenBeforeInrd_stops next)
end

section
/-! SUPPORT. The statement about RESOLVE: it does not exclude a record that waits for the slot of the fault, and fails where one does.

A record of the fault ring waits in the engine's log while the slot it goes to is taken (R343). RESOLVE frees the slot, and the record is
written before the reduction is tried again. The page of the fault ring may be the one that holds the page tables: the record then takes
the leaf away by which the reduction's address was mapped, and the reduction faults again (R228). The statement looks at the page tables as
they were before the RESOLVE, and says that the reduction is applied. -/

namespace Sys2Proof.Machine

/-- The reduction that stands in the fault log: it adds 1 to the word at 0x10000. -/
def faultedRadd : Hold := ⟨⟨0, 1, 0⟩, 0, 0, 0, .radd, .s32, 0x10000, 0x10000, 1, false, none⟩

/-- Its fault, which the ring has in slot 0. -/
def openRadd : RedFault := ⟨0, 0, 6, faultedRadd, [], true, 0⟩

/-- The page tables of ASID 0: one table at 0, whose word 0 leads to itself, is the table of every level. Word 1 maps the page at 0x10000 to
frame 1 as REDUCE, word 2 the page at 0x20000 to frame 0 as OPEN, where the table stands. -/
def tableInRing : Memory :=
  Memory.setNat (Memory.setNat (Memory.setNat [] 0 8 1) 8 8 (2 * 2 ^ 62 + 1 * 2 ^ 12 + 63)) 16 8 (3 * 2 ^ 62 + 63)

/-- RESOLVE of the fault of slot 0, by the command interface, while another record waits for the slot, which is at 0x20000. -/
def recordWaits : State :=
  { State.reset with
    mem := { State.reset.mem with hbm := tableInRing, asids := [⟨0, 0, 0, 0, 0, 0, 0, 0, 0⟩] }
    sync := { State.reset.sync with
      lines := [⟨0, 0x10000, 0x10000⟩], faults := [openRadd], waiting := [⟨0, 0, List.replicate 64 0⟩] }
    host := { State.reset.host with
      ctrl := { State.reset.host.ctrl with cmdRun := true, cmdbuf := State.reset.host.ctrl.cmdbuf.set 0 8 } } }

/-- The record clears the table: the reduction is not applied. -/
theorem recordWaits_unapplied {u : State} (h : exec (.resolve .command) recordWaits = .next u) : u.sync.lineMem = [] := by
  have next : ∃ v, exec (.resolve .command) recordWaits = .next v ∧ v.sync.lineMem = [] := ⟨_, rfl, by decide +kernel⟩
  obtain ⟨v, hv, none⟩ := next
  obtain rfl : u = v := Host.Outcome.next.inj (h.symm.trans hv)
  exact none

/-- RESOLVE is the command that firmware serves next. -/
theorem recordWaits_requested : Requested recordWaits .command 4 ⟨4, 0, 0, 0, 0, 0⟩ :=
  ⟨by decide +kernel, rfl, fun _ _ h => ReqSource.noConfusion h, fun _ => ⟨by decide +kernel, by decide +kernel, _, rfl⟩⟩

end Sys2Proof.Machine

open Sys2Proof Sys2Proof.Machine

/-- Refutes O50: where a record that waits for the slot of the fault is written over the page tables, the reduction is not applied. -/
theorem not_serviceEvents : ¬ Obligations.ServiceEvents := by
  intro h
  obtain ⟨-, -, -, requests⟩ := h
  obtain ⟨-, -, -, -, open_, -⟩ := requests recordWaits .command ⟨4, 0, 0, 0, 0, 0⟩
  obtain ⟨resolve, -⟩ := open_ openRadd (by decide +kernel) rfl rfl rfl (by decide +kernel)
  obtain ⟨u, next, -, -, applied⟩ :=
    resolve recordWaits_requested 0x10000 rfl ⟨_, List.mem_singleton_self _, rfl⟩ (by decide +kernel)
  rw [recordWaits_unapplied next] at applied
  exact absurd applied (by decide +kernel)
end

section
/-! SUPPORT. Fences (R234, R235, R292): when the wait of a release is met, and what a fence does whose wait is. -/

namespace Sys2Proof.Machine

section

variable {s : State}

/-! ## The counts -/

/-- A tile with nothing outstanding counts nothing at any handle (R33, R235). -/
theorem Tile.allZero_iff (t : Tile) : t.allZero = true ↔
    t.ops.loads = [] ∧ t.ops.stores = [] ∧ t.ops.copies = [] ∧ t.ops.mx = [] ∧ t.ops.ms = [] := by
  simp only [Tile.allZero, Tile.count, Bool.and_eq_true, decide_eq_true_eq, List.length_eq_zero_iff, and_iff_left_iff_imp]
  rintro ⟨loads, stores, copies, -, ms⟩
  have none (k : Nat) : t.hcount k = 0 := by rw [Tile.hcount, loads, stores, copies, ms]; rfl
  simp only [none, decide_true, List.all_eq_true, implies_true]

/-- No handle of a fence's set counts an operation (R234). -/
def Tile.clearOf (t : Tile) (hs : BitVec 8) : Bool := !(List.range 8).any fun k => hs.getLsbD k && decide (t.hcount k ≠ 0)

theorem Tile.clearOf_iff (t : Tile) (hs : BitVec 8) :
    t.clearOf hs = true ↔ ∀ k : Fin 8, hs.getLsbD k.val = true → t.hcount k.val = 0 := by
  simp only [Tile.clearOf, Bool.not_eq_true', List.any_eq_false, List.mem_range, Bool.and_eq_true, decide_eq_true_eq, not_and, not_not,
    Fin.forall_iff]

/-! ## The acquire -/

/-- The host writes that an acquire at HOST scope waits for (R292): those of its acquire point, which may have been in an earlier cycle. -/
def State.acquirePoint (s : State) : List Nat := s.tile.ex.acqWait.getD (s.hostQueue s.tile.gang.asid)

/-- A fence has passed: nothing changes but the PC, and for one that acquires at HOST scope the writes that it waited for. -/
def FencePasses (s t : State) (host : Bool) : Prop :=
  SameModule s t ∧ s.tile.SameUnits t.tile ∧ t.tile.ops = s.tile.ops ∧ s.tile.SamePad t.tile ∧ s.tile.SameRegs t.tile [] ∧
  t.tile.iss.writes = s.tile.iss.writes ∧
  t.tile.ex = { s.tile.ex with
    pc := s.tile.ex.pc + 4, branch := none, tvecFetch := false, acqWait := if host then none else s.tile.ex.acqWait }

theorem fenceAcquire_passes {host : Bool} (h : ¬(host = true ∧ s.hostPending s.acquirePoint = true)) :
    ∃ t, fenceAcquire host s = .next t ∧ FencePasses s t host := by
  obtain ⟨⟨module, units, ops, pad, regs, pc⟩, writes⟩ := frame_issued s []
  unfold fenceAcquire
  cases host with
  | false => exact ⟨_, rfl, module, units, ops, pad, regs, writes, pc⟩
  | true =>
    have done : ¬s.hostPending (s.tile.ex.acqWait.getD (s.hostQueue s.tile.gang.asid)) = true := fun p => h ⟨rfl, p⟩
    rw [Bool.not_true, if_neg Bool.false_ne_true]
    dsimp only
    rw [if_neg done]
    exact ⟨_, rfl, rfl, units, ops, pad, regs, writes, congrArg (fun x : Exec => { x with acqWait := none }) pc⟩

theorem fenceAcquire_awaits (h : s.hostPending s.acquirePoint = true) :
    fenceAcquire true s = .next ((s.upd fun t => { t with ex := { t.ex with acqWait := some s.acquirePoint } }).stall 13) := by
  unfold fenceAcquire
  rw [Bool.not_true, if_neg Bool.false_ne_true]
  exact if_pos h

/-! ## The instructions -/

variable {acq rel : Bool} {sc : Scope} {hs : BitVec 8}

theorem fence_acquires (role : (acq || rel) = true) (some : hs ≠ 0) (clear : rel = true → s.tile.clearOf hs = true) :
    exec (.fence acq rel sc hs) s = fenceAcquire (acq && decide (sc = .host)) s := by
  show execFence acq rel sc hs s = _
  have met : (rel && (List.range 8).any fun k => hs.getLsbD k && decide (s.tile.hcount k ≠ 0)) = false := by
    cases rel with
    | false => rfl
    | true => exact (Bool.not_eq_true' _).mp (clear rfl)
  rw [execFence, role, met, decide_eq_false some]
  rfl

theorem fence_stalls (some : hs ≠ 0) (busy : s.tile.clearOf hs = false) : exec (.fence acq true sc hs) s = .next (s.stall 13) := by
  show execFence acq true sc hs s = _
  have any : ((List.range 8).any fun k => hs.getLsbD k && decide (s.tile.hcount k ≠ 0)) = true := (Bool.not_eq_false' _).mp busy
  rw [execFence, any, Bool.or_true, decide_eq_false some]
  rfl

theorem fencea_acquires (role : (acq || rel) = true) (zero : s.tile.allZero = true) :
    exec (.fencea acq rel sc) s = fenceAcquire (acq && decide (sc = .host)) s := by
  show execFencea acq rel sc s = _
  rw [execFencea, role, zero]
  rfl

theorem fencea_stalls (role : (acq || rel) = true) (busy : s.tile.allZero = false) :
    exec (.fencea acq rel sc) s = .next (s.stall 13) := by
  show execFencea acq rel sc s = _
  rw [execFencea, role, busy]
  rfl

/-- A form that always traps ILLEGAL, with its word. -/
theorem illegal_taken {i : Instr} (he : exec i s = issue {} (fun _ => .error (.cause 0x01 (instrWord i))) s) (hw : s.tile.ex.cw = none) :
    ∃ t, exec i s = .next t ∧
      TrapTaken s t 0x01 (instrWord i) s.tile.ex.pc (BitVec.ofNat 64 (s.tile.ni.step.val * 2 ^ 14)) s.tile.iss.cycle := by
  rw [he]
  exact issue_causePlain s.tile.canIssue_nothing hw (by decide) rfl

theorem fence_illegal (h : (acq || rel) = false ∨ hs = 0) :
    exec (.fence acq rel sc hs) s = issue {} (fun _ => .error (.cause 0x01 (instrWord (.fence acq rel sc hs)))) s := by
  show execFence acq rel sc hs s = _
  have bad : (!(acq || rel) || decide (hs = 0)) = true := by simpa using h
  rw [execFence, bad]
  rfl

theorem fencea_illegal (h : (acq || rel) = false) :
    exec (.fencea acq rel sc) s = issue {} (fun _ => .error (.cause 0x01 (instrWord (.fencea acq rel sc)))) s := by
  show execFencea acq rel sc s = _
  rw [execFencea, h]
  rfl

/-- A fence whose counts are zero passes, or awaits the host writes. -/
theorem fence_ends {i : Instr} (he : exec i s = fenceAcquire (acq && decide (sc = .host)) s) :
    (¬((acq = true ∧ sc = .host) ∧ s.hostPending s.acquirePoint = true) →
      ∃ t, exec i s = .next t ∧ FencePasses s t (acq && decide (sc = .host))) ∧
    (acq = true ∧ sc = .host → s.hostPending s.acquirePoint = true →
      exec i s = .next ((s.upd fun t => { t with ex := { t.ex with acqWait := some s.acquirePoint } }).stall 13)) := by
  rw [he]
  constructor
  · intro h
    exact fenceAcquire_passes (by simpa using h)
  · rintro ⟨rfl, rfl⟩ pending
    exact fenceAcquire_awaits pending

end

end Sys2Proof.Machine

open Sys2Proof Sys2Proof.Machine

/-- Settles O40: a fence whose release waits stalls, one that needs none goes on to its acquire, and one without a role or a handle traps. -/
theorem fences : Obligations.Fences := by
  intro s acq rel sc hs
  refine ⟨fun role some clear => ?fence, fun release some busy => ?fenceStalls, fun role zero => ?fencea, fun role busy => ?fenceaStalls,
    fun hw => ⟨fun acquire release => ?noRole, fun empty => ?empty⟩⟩
  case fence =>
    exact fence_ends (fence_acquires (by simpa using role) some fun r => (s.tile.clearOf_iff hs).mpr (clear r))
  case fenceStalls =>
    subst release
    exact fence_stalls some (Bool.eq_false_iff.mpr fun clear => busy ((s.tile.clearOf_iff hs).mp clear))
  case fencea => exact fence_ends (fencea_acquires (by simpa using role) (s.tile.allZero_iff.mpr zero))
  case fenceaStalls =>
    exact fencea_stalls (by simpa using role) (Bool.eq_false_iff.mpr fun zero => busy (s.tile.allZero_iff.mp zero))
  case noRole =>
    have none : (acq || rel) = false := by rw [acquire, release]; rfl
    exact ⟨illegal_taken (fence_illegal (.inl none)) hw, illegal_taken (fencea_illegal none) hw⟩
  case empty => exact illegal_taken (fence_illegal (.inr empty)) hw
end

section
/-! SUPPORT. Requests to the sync engines at issue (R198, R210, R219, R223 to R226): counter operations, reductions and seals. -/

namespace Sys2Proof.Machine

/-! ## Checks -/

/-- A counter that is no system counter, and whose home is not denied, passes its check (R210, R219). -/
theorem State.checkCtr_free {s : State} {id : W32} (aclass : Nat) (free : CtrFree s id) : s.checkCtr id aclass = .ok () := by
  by_cases zero : id = 0
  · rw [State.checkCtr, if_pos zero]
  · obtain ⟨-, open_⟩ := free.resolve_left zero
    rw [State.checkCtr, if_neg zero, State.throttle, open_, failIf_false, check_ok_bind, sysCtr_of_free free, failIf_false]

theorem State.checkCounter_free {s : State} {id : W32} (i : Instr) (named : id ≠ 0) (free : CtrFree s id) :
    s.checkCounter i id = .ok () := by
  rw [State.checkCounter, decide_eq_false named, failIf_false, check_ok_bind, State.checkCtr_free 10 free]

/-- An atomic or a reduction whose line is reached passes its checks (R219, R220, R223). -/
theorem State.checkLine_reached {s : State} {k : AccessKind} {c n : Nat} {ea : Word} {e : TlbEntry} (h : LineReaches s k ea.toNat n e) :
    s.checkLine k c ea n = .ok (e.pa + (ea.toNat - e.va)) := by
  obtain ⟨even, reach, home, det⟩ := h
  have line : s.linePa ea.toNat = some (e.pa + (ea.toNat - e.va)) := by
    obtain ⟨-, -, held, -⟩ := reach
    rw [State.linePa, held]
    rfl
  have free : LineFree s k ea.toNat := fun pa hp => by
    obtain rfl := Option.some.inj (line.symm.trans hp)
    exact ⟨home, det⟩
  rw [State.checkLine_free c n free, State.scalarGlobal_ok even reach]

/-! ## The operation enters its class -/

/-- An operation enters class MS under the next stamp. -/
def Outstanding.addMs (o : Outstanding) (k : MsKind) (rel : Bool) (hs : BitVec 8) : Outstanding :=
  { o with stamp := o.stamp + 1, ms := o.ms ++ [{ stamp := o.stamp, kind := k, rel := rel, hs := hs, done := false }] }

/-- An operation without a range enters its class: f adds it to the outstanding operations, and its requests leave or are held. -/
theorem request_next {s : State} {i : Instr} {b : Tile} {f : Outstanding → Outstanding} {sites : List Nat}
    (keeps : s.tile.KeepsBut b [] 1) (writes : b.iss.writes = s.tile.iss.writes) (kept : ∀ o, (f o).kept = o.kept)
    (next : exec i s = .next ((s.upd fun _ => { b with ops := f b.ops }).injectReqs s.tile.ops.stamp sites)) :
    ∃ t, exec i s = .next t ∧ Enters s t ∧ t.tile.eng = s.tile.eng ∧ t.tile.ops = { f s.tile.ops with kept := t.tile.ops.kept } := by
  refine ⟨_, next, ?_⟩
  generalize ht : (s.upd fun _ => { b with ops := f b.ops }).injectReqs s.tile.ops.stamp sites = t
  obtain ⟨⟨id, gang, inb, eng, ni, pl⟩, ops, pad, regs, pc⟩ := keeps
  have flits : SameButFlits s t := SameButFlits.trans (b := s.upd fun _ => { b with ops := f b.ops }) rfl
    (ht ▸ State.injectReqs_sameButFlits ..)
  have tile : t.tile = { b with ops := { f s.tile.ops with kept := t.tile.ops.kept } } := by
    rw [← ops, ← ht]
    exact tileSends_injectReqs ..
  have held : s.tile.Keeps t.tile := by
    obtain ⟨more, own⟩ := State.injectReqs_holdsMore (s.upd fun _ => { b with ops := f b.ops }) s.tile.ops.stamp sites
    rw [show (s.upd fun _ => { b with ops := f b.ops }).tile.ops.kept = s.tile.ops.kept from (kept _).trans (congrArg _ ops)] at own
    exact ⟨more, ht ▸ own⟩
  have same : t.tile.ni = s.tile.ni := (congrArg Tile.ni tile).trans ni
  have phys : s.tile.SamePhys t.tile := ⟨by rw [same], by rw [same]⟩
  have scratch : s.tile.SamePad t.tile := by rw [tile]; exact pad
  have registers : s.tile.SameRegs t.tile [] := by rw [tile]; exact regs
  have pc : s.tile.NextPc t.tile 1 := by rw [tile]; exact pc
  exact ⟨⟨flits, (congrArg Tile.id tile).trans id, (congrArg Tile.gang tile).trans gang, (congrArg Tile.inb tile).trans inb,
    (congrArg Tile.pl tile).trans pl, phys, scratch, registers, pc, (congrArg (·.iss.writes) tile).trans writes, held⟩,
    (congrArg Tile.eng tile).trans eng, congrArg Tile.ops tile⟩

/-- An operation has entered class MS, and left the given epoch and issue sequence. -/
theorem entersMs_of {s t : State} {k : MsKind} {rel : Bool} {hs : BitVec 8} {epoch redSeq : Nat} (enters : Enters s t)
    (eng : t.tile.eng = s.tile.eng)
    (ops : t.tile.ops = { s.tile.ops.addMs k rel hs with epoch := epoch, redSeq := redSeq, kept := t.tile.ops.kept }) :
    t.tile.ops.epoch = epoch ∧ t.tile.ops.redSeq = redSeq ∧ EntersMs s t k rel hs := by
  have e : t.tile.ops.epoch = epoch := congrArg Outstanding.epoch ops
  have r : t.tile.ops.redSeq = redSeq := congrArg Outstanding.redSeq ops
  refine ⟨e, r, enters, eng, ?_⟩
  rw [e, r]
  exact ops

/-! ## Reductions -/

section
variable {s : State} {a b : GReg}

theorem reduction_next {i : Instr} {op : RedOp} {ty : RedTy} {e : TlbEntry} (he : exec i s = reductionOp op a b ty s)
    (reach : LineReaches s .red (s.tile.g a).toNat (redSize ty) e)
    (hi : s.tile.canIssue { regs := [.g a, .g b], reads := [.g a, .g b], cls := some .ms
                            hs := s.tile.handlesOf [((s.tile.g a).toNat, redSize ty)] }) :
    ∃ t, exec i s = .next t ∧ t.tile.ops.epoch = s.tile.ops.epoch ∧ t.tile.ops.redSeq = s.tile.ops.redSeq + 1 ∧
      EntersMs s t (.red op ty (s.tile.g a).toNat (e.pa + ((s.tile.g a).toNat - e.va)) (s.tile.g b) s.tile.ex.prv s.tile.ops.epoch
        s.tile.ops.redSeq) false (s.tile.handlesOf [((s.tile.g a).toNat, redSize ty)]) := by
  obtain ⟨keeps, writes⟩ := s.tile.keeps_event_issued 46 [.g a, .g b]
  obtain ⟨t, next, enters, eng, ops⟩ := access_next (va := (s.tile.g a).toNat) (n := redSize ty) (sites := [_])
    (f := fun o => { o.addMs (.red op ty (s.tile.g a).toNat (e.pa + ((s.tile.g a).toNat - e.va)) (s.tile.g b) s.tile.ex.prv
      s.tile.ops.epoch s.tile.ops.redSeq) false (s.tile.handlesOf [((s.tile.g a).toNat, redSize ty)]) with redSeq := o.redSeq + 1 })
    keeps writes (fun _ => rfl) (i := i) (by
      rw [he, reductionOp.eq_def]
      refine issue_of_ok hi ?_
      rw [State.checkLine_reached reach, check_ok_bind]
      rfl)
  exact ⟨t, next, entersMs_of enters eng ops⟩

/-! ## Seals -/

theorem rseal_next (hi : s.tile.canIssue { regs := [.g a, .g b], reads := [.g a, .g b], cls := some .ms })
    (named : ctrId (s.tile.g a) ≠ 0) (some : (s.tile.g b).toNat % 2 ^ 32 ≠ 0) (free : CtrFree s (ctrId (s.tile.g a))) :
    ∃ t, exec (.rseal a b) s = .next t ∧ t.tile.ops.epoch = s.tile.ops.epoch + 1 ∧ t.tile.ops.redSeq = s.tile.ops.redSeq ∧
      EntersMs s t (.seal (ctrId (s.tile.g a)) ((s.tile.g b).toNat % 2 ^ 32) s.tile.ops.epoch) false 0 := by
  obtain ⟨keeps, writes⟩ := s.tile.keeps_event_issued 44 [.g a, .g b]
  obtain ⟨t, next, enters, eng, ops⟩ := request_next (i := .rseal a b) (sites := [_])
    (f := fun o => { o.addMs (.seal (ctrId (s.tile.g a)) ((s.tile.g b).toNat % 2 ^ 32) s.tile.ops.epoch) false 0 with epoch := o.epoch + 1 })
    keeps writes (fun _ => rfl) (by
      show execRseal a b s = _
      refine issue_of_ok hi ?_
      simp only [bitsOf_low, named, some, or_self, decide_false, failIf_false, State.checkCtr_free 10 free, check_ok_bind]
      rfl)
  exact ⟨t, next, entersMs_of enters eng ops⟩

end

end Sys2Proof.Machine

open Sys2Proof Sys2Proof.Machine

/-- Settles O38: the three reductions run one issue rule, whose checks pass where the line is reached; RSEAL is a request without a range. -/
theorem reductionsEnter : Obligations.ReductionsEnter := by
  intro s a b ty e va n hs two id p
  have size : n = redSize ty := by cases ty <;> rfl
  refine ⟨?reductions, fun hi named some free => ?rseal⟩
  case reductions =>
    subst hs
    rw [size]
    rintro reach hi i op (⟨rfl, rfl⟩ | ⟨rfl, rfl⟩ | ⟨rfl, rfl⟩)
    · exact reduction_next (execRadd.eq_def ..) reach hi
    · exact reduction_next (execRmin.eq_def ..) reach hi
    · exact reduction_next (execRmax.eq_def ..) reach hi
  case rseal =>
    have name : id = ctrId (s.tile.g a) := (ctrId_eq _).symm
    rw [name] at named free ⊢
    obtain ⟨t, next, epoch, redSeq, enters⟩ := rseal_next hi named some free
    exact ⟨t, next, enters, epoch, redSeq⟩
end

section
/-! SUPPORT. Counter instructions at issue (R210 to R217): operations on a counter, CRD, and CWAIT as it holds and goes on. -/

namespace Sys2Proof.Machine

section
variable {s : State} {d a b : GReg}

/-! ## Operations -/

/-- An operation on a counter that passes its checks enters class MS (R32, R212 to R214). -/
theorem counterOp_next {i : Instr} {k : MsKind} {rel : Bool} (hi : s.tile.canIssue { regs := [.g a, .g b], reads := [.g a, .g b], cls := some .ms })
    (named : ctrId (s.tile.g a) ≠ 0) (free : CtrFree s (ctrId (s.tile.g a)))
    (he : exec i s = issue { regs := [.g a, .g b], reads := [.g a, .g b], cls := some .ms } (fun s =>
      s.checkCounter i (ctrId (s.tile.g a)) >>= fun _ => .ok (s.issueCtr [.g a, .g b] (ctrId (s.tile.g a)) k rel)) s) :
    ∃ t, exec i s = .next t ∧ EntersMs s t k rel 0 ∧ t.tile.ops.epoch = s.tile.ops.epoch ∧ t.tile.ops.redSeq = s.tile.ops.redSeq := by
  obtain ⟨keeps, writes⟩ := s.tile.keeps_event_issued 44 [.g a, .g b]
  obtain ⟨t, next, enters, eng, ops⟩ := request_next (i := i) (sites := [_]) (f := fun o => o.addMs k rel 0) keeps writes (fun _ => rfl) (by
    rw [he]
    refine issue_of_ok hi ?_
    rw [State.checkCounter_free i named free, check_ok_bind]
    rfl)
  obtain ⟨epoch, redSeq, enters⟩ := entersMs_of (epoch := s.tile.ops.epoch) (redSeq := s.tile.ops.redSeq) enters eng ops
  exact ⟨t, next, enters, epoch, redSeq⟩

/-- The load that CRD makes outstanding (R215). -/
def Tile.counterLoad (t : Tile) (d : GReg) (id : W32) (pend : Bool) : OutLoad :=
  { stamp := t.ops.stamp, kind := .crd id pend, elems := [{ reg := .g d, lane := 0, va := 0, pa := 0, bytes := 8, val := none }]
    regs := [.g d], hs := 0, issued := t.iss.cycle, aclass := 10, ecc := none }

theorem crd_next {pend : Bool} (hi : s.tile.canIssue { regs := [.g d, .g a], reads := [.g a], cls := some .ld })
    (named : ctrId (s.tile.g a) ≠ 0) :
    ∃ t, exec (.crd d a pend) s = .next t ∧ Enters s t ∧ t.tile.eng = s.tile.eng ∧
      t.tile.ops = { s.tile.ops.addLoad (s.tile.counterLoad d (ctrId (s.tile.g a)) pend) with kept := t.tile.ops.kept } := by
  obtain ⟨keeps, writes⟩ := s.tile.keeps_event_issued 44 [.g a]
  refine request_next (sites := [?site]) (f := fun o => { o with
    stamp := s.tile.ops.stamp + 1, loads := o.loads ++ [s.tile.counterLoad d (ctrId (s.tile.g a)) pend] }) keeps writes (fun _ => rfl) ?next
  case next =>
    show execCrd d a pend s = _
    refine issue_of_ok hi ?_
    simp only [named, decide_false, failIf_false, check_ok_bind]
    rfl

/-! ## CWAIT -/

variable {sc : Scope} {acq nopend : Bool} {texp : Fin 32}

/-- The state of a CWAIT that has just begun (R216, R217). -/
def State.freshCwait (s : State) (id : W32) (thr : Word) (nopend : Bool) (texp : Nat) : CwState :=
  { ctr := id, thr := thr, nopend := nopend, stamp := s.tile.ops.stamp
    deadline := if texp = 0 then none else some (s.tileTime + 2 ^ texp), sent := true, queued := false, released := false, acquired := none }

/-- The tile of a CWAIT that has just begun, before its request leaves. -/
def State.beganCwait (s : State) (c : CwState) : Tile :=
  { s.tile.nextStamp with ex := { s.tile.ex with cw := some c, withdrawn := none }, pl := { s.tile.pl with idleSince := s.fab.time } }

theorem startCwait_holds (id : W32) (thr : Word) (texp : Nat) :
    let c := s.freshCwait id thr nopend texp
    let t := s.startCwait id thr nopend texp
    SameButFlits s t ∧ s.tile.Keeps t.tile ∧ t.tile = { s.beganCwait c with
      ops := { s.tile.ops with stamp := s.tile.ops.stamp + 1, kept := t.tile.ops.kept }, iss := { s.tile.iss with stall := some 14 } } := by
  intro c t
  let began : State := s.upd fun _ => s.beganCwait c
  let site := Config.engineSite (began.ctrEngine began.tile.gang.asid id)
  have sent : t = (began.injectReqs s.tile.ops.stamp [site]).stall 14 := rfl
  have tile : (began.injectReqs s.tile.ops.stamp [site]).tile = _ := tileSends_injectReqs ..
  have flits : SameButFlits s (began.injectReqs s.tile.ops.stamp [site]) :=
    SameButFlits.trans (b := began) rfl (State.injectReqs_sameButFlits ..)
  rw [sent]
  refine ⟨SameButFlits.trans flits rfl, State.injectReqs_holdsMore began s.tile.ops.stamp [site], ?_⟩
  rw [State.stall, State.upd_tile, tile]
  rfl

theorem cwait_begins (hi : s.tile.canIssue { regs := [.g a, .g b], reads := [.g a, .g b] }) (none : s.tile.ex.cw = none)
    (named : ctrId (s.tile.g a) ≠ 0) (free : s.tile.denied 1 ((s.part s.tile.id.part).ctrHome (ctrId (s.tile.g a))) = false)
    (away : s.atShedBarrier (ctrId (s.tile.g a)) = false) :
    exec (.cwait a b sc acq nopend texp) s = .next (s.startCwait (ctrId (s.tile.g a)) (s.tile.g b) nopend texp.val) := by
  show execCwait a b sc acq nopend texp s = _
  simp only [execCwait, none]
  refine issue_of_ok hi ?_
  simp only [named, decide_false, State.throttle, free, failIf_false, check_ok_bind, away]
  rfl

section
variable {c : CwState} (held : s.tile.ex.cw = some c) (away : s.atShedBarrier c.ctr = false)
include held away

theorem cwait_unacquired (unacquired : c.acquired = none) : exec (.cwait a b sc acq nopend texp) s = .next (s.stall 14) := by
  show execCwait a b sc acq nopend texp s = _
  simp only [execCwait, held, away, unacquired]
  rfl

theorem cwait_hostWaits {l : List Nat} (acquired : c.acquired = some l) (pending : (acq && decide (sc = .host) && s.hostPending l) = true) :
    exec (.cwait a b sc acq nopend texp) s = .next (s.stall 14) := by
  show execCwait a b sc acq nopend texp s = _
  simp only [execCwait, held, away, acquired, pending]
  rfl

theorem cwait_ends {l : List Nat} (acquired : c.acquired = some l) (done : (acq && decide (sc = .host) && s.hostPending l) = false) :
    exec (.cwait a b sc acq nopend texp) s = .next (s.upd fun t =>
      { (t.event 44 1).issued [.g a, .g b] with ex := { ((t.event 44 1).issued [.g a, .g b]).ex with cw := none } }) := by
  show execCwait a b sc acq nopend texp s = _
  simp only [execCwait, held, away, acquired, done]
  rfl

end

end

theorem counterInstructions : CounterInstructions := by
  intro s d a b sc rel acq nopend pend texp id x two
  have name : id = ctrId (s.tile.g a) := (ctrId_eq _).symm
  rw [name]
  refine ⟨fun hi named free => ?operations, fun hi named => ?crd, fun hi none named free away => ?begins, fun c l held away => ?holds⟩
  case operations =>
    have narrow : (s.tile.g b).truncate 32 = BitVec.ofNat 32 x.toNat := ctrId_eq x
    rw [← narrow]
    exact ⟨counterOp_next hi named free (execCadd.eq_def ..), counterOp_next hi named free (execCexp.eq_def ..),
      counterOp_next hi named free (execCset.eq_def ..)⟩
  case crd =>
    obtain ⟨t, next, enters, eng, ops⟩ := crd_next hi named
    exact ⟨t, s.tile.counterLoad d (ctrId (s.tile.g a)) pend, next, enters, eng, ops, rfl, rfl, rfl, _, rfl, rfl, rfl⟩
  case begins =>
    obtain ⟨flits, keeps, tile⟩ := startCwait_holds (s := s) (nopend := nopend) (ctrId (s.tile.g a)) x texp.val
    have field {α : Type} (f : Tile → α) := congrArg f tile
    refine ⟨_, _, cwait_begins hi none named free away, flits, field Tile.id, field Tile.gang, field Tile.inb, field Tile.eng, field Tile.ni,
      field Tile.regs, field Tile.pad, field Tile.ops, keeps, field Tile.ex, field Tile.iss, field Tile.pl, rfl, rfl, rfl, rfl, rfl, ?_⟩
    simp only [State.freshCwait, Fin.ext_iff, Fin.val_zero]
  case holds =>
    refine ⟨cwait_unacquired held away, fun acquired => ⟨cwait_hostWaits held away acquired, fun done => ?_⟩⟩
    obtain ⟨⟨units, ops, pad, regs, pc⟩, writes⟩ := s.tile.keeps_event_issued 44 [.g a, .g b]
    exact ⟨_, cwait_ends held away acquired done, rfl, units, ops, pad, regs, writes, congrArg (fun x : Exec => { x with cw := none }) pc⟩

end Sys2Proof.Machine
end

section
/-! SUPPORT. The stop of a shedding gang at its barrier (R268, R334, R361): what the stop of a gang does to its record, and to the tile that
begins it. -/

namespace Sys2Proof.Machine

/-! ## Withdrawn waiters -/

/-- Only the sync engines and deny bits may change, and packets that tell of them leave (R216, R218). -/
def State.OnlyWithdraws (s t : State) : Prop := t = { s with sync := t.sync, fab := t.fab, parts := t.parts }

theorem State.OnlyWithdraws.trans {s t u : State} (h : s.OnlyWithdraws t) (k : t.OnlyWithdraws u) : s.OnlyWithdraws u := by
  unfold State.OnlyWithdraws at *
  rw [k, h]

theorem State.OnlyDenies.onlyWithdraws {s t : State} (h : s.OnlyDenies t) : s.OnlyWithdraws t := by
  unfold State.OnlyDenies at h
  rw [h]
  rfl

theorem State.onlyWithdraws_withdraw (s : State) (id : TileId) (ctr : W32) (asid : Nat) : s.OnlyWithdraws (s.withdraw id ctr asid) := by
  unfold State.withdraw
  refine State.OnlyWithdraws.trans ?_ (State.onlyDenies_denySteps ..).onlyWithdraws
  rfl

theorem State.OnlyWithdraws.tile {s t : State} (h : s.OnlyWithdraws t) : t.tile = s.tile := (congrArg State.tile (show t = _ from h)).trans rfl

theorem State.OnlyWithdraws.gangs {s t : State} (h : s.OnlyWithdraws t) : t.gangs = s.gangs := (congrArg State.gangs (show t = _ from h)).trans rfl

theorem State.onlyWithdraws_dropWaiter (s : State) (t : Tile) : s.OnlyWithdraws (s.dropWaiter t) := by
  unfold State.dropWaiter
  split
  · exact s.onlyWithdraws_withdraw ..
  · rfl

theorem State.onlyWithdraws_withdrawStopped (s : State) (part gid : Nat) : s.OnlyWithdraws (s.withdrawStopped part gid) := by
  refine foldl_rel (r := State.OnlyWithdraws) (fun _ => rfl) State.OnlyWithdraws.trans (fun s t => ?_) _ s
  split
  · exact s.onlyWithdraws_dropWaiter t
  · rfl

/-! ## The tile -/

/-- A tile has stopped at its boundary: no CWAIT is left, and the PC and the registers are those of before (R334). -/
def Tile.Halted (a b : Tile) : Prop := b.pl.stopped = true ∧ b.ex.cw = none ∧ b.ex.pc = a.ex.pc ∧ b.regs = a.regs

/-- A tile goes on for now: it has not stopped, and the PC and the registers are those of before. -/
def Tile.Unhalted (a b : Tile) : Prop := b.pl.stopped = false ∧ b.ex.pc = a.ex.pc ∧ b.regs = a.regs

theorem Tile.takeStop_halted (t : Tile) : t.Halted t.takeStop := by
  refine ⟨rfl, rfl, rfl, ?_⟩
  show t.cwaitPassed.regs = t.regs
  unfold Tile.cwaitPassed
  split <;> rfl

/-- A tile that a gang-stop marks stops at once, or later. -/
theorem Tile.stopMark_cases {t : Tile} (running : t.pl.stopped = false) : t.Halted t.stopMark ∨ t.Unhalted t.stopMark := by
  unfold Tile.stopMark
  split_ifs
  · exact .inr ⟨running, rfl, rfl⟩
  · exact .inl t.takeStop_halted
  · exact .inr ⟨running, rfl, rfl⟩

/-! ## The gang -/

theorem State.gang_updGang (s : State) (part gid : Nat) {f : Gang → Gang} (named : ∀ g, (f g).part = g.part ∧ (f g).gid = g.gid) :
    (s.updGang part gid f).gang part gid = (s.gang part gid).map f := by
  unfold State.gang State.updGang
  induction s.gangs with
  | nil => rfl
  | cons g gs ih =>
    by_cases hit : g.part = part ∧ g.gid = gid
    · simp [hit, named g]
    · simpa [List.find?_cons, hit] using ih

/-- A gang whose tiles are to stop (R334). -/
def Gang.working (g : Gang) : Gang := { g with stopWork := true, stopDone := false }

theorem State.gangStop_of_live {s : State} {part gid : Nat} {g : Gang} {why : Gang → Gang} (live : s.gang part gid = some g) :
    s.gangStop part gid why = if g.stopping then s.updGang part gid why
      else ((s.updGang part gid why).updGang part gid Gang.working).stopTiles part gid := by
  rw [State.gangStop, live]
  rfl

theorem State.stopTiles_gang (s : State) (part gid p q : Nat) : (s.stopTiles part gid).gang p q = s.gang p q :=
  congrArg (List.find? _) (s.onlyWithdraws_withdrawStopped part gid).gangs

theorem State.stopTiles_tile (s : State) (part gid : Nat) :
    (s.stopTiles part gid).tile = s.tile.stopMark ∨ (s.stopTiles part gid).tile = s.tile := by
  rw [State.stopTiles, State.updAll, (s.onlyWithdraws_withdrawStopped part gid).tile]
  dsimp only
  split
  · exact .inl rfl
  · exact .inr rfl

/-- A gang-stop begins: the gang's record gives the reason, and where nothing stopped the gang before, its tile, here one that runs, is marked. -/
theorem State.gangStop_begins {s : State} {part gid : Nat} {g : Gang} {why : Gang → Gang}
    (named : ∀ g, (why g).part = g.part ∧ (why g).gid = g.gid) (live : s.gang part gid = some g) (running : s.tile.pl.stopped = false) :
    (∃ h, (s.gangStop part gid why).gang part gid = some h ∧ (h = why g ∨ h = (why g).working)) ∧
      (s.tile.Halted (s.gangStop part gid why).tile ∨ s.tile.Unhalted (s.gangStop part gid why).tile) := by
  have recorded : (s.updGang part gid why).gang part gid = some (why g) := by
    rw [s.gang_updGang part gid named, live]
    rfl
  have working : ((s.updGang part gid why).updGang part gid Gang.working).gang part gid = some (why g).working := by
    rw [State.gang_updGang (f := Gang.working) _ part gid fun _ => ⟨rfl, rfl⟩, recorded]
    rfl
  rw [State.gangStop_of_live live]
  split
  · exact ⟨⟨_, recorded, .inl rfl⟩, .inr ⟨running, rfl, rfl⟩⟩
  · refine ⟨⟨_, (State.stopTiles_gang ..).trans working, .inr rfl⟩, ?_⟩
    obtain marked | same := State.stopTiles_tile ((s.updGang part gid why).updGang part gid Gang.working) part gid
    · rw [marked]
      exact Tile.stopMark_cases running
    · rw [same]
      exact .inr ⟨running, rfl, rfl⟩

/-- Shedding stops a gang (R361). -/
def Gang.ShedNow (g : Gang) : Prop := g.byShed = true ∧ g.shedWait = false

theorem State.shedStop_begins {s : State} {part gid : Nat} {g : Gang} (live : s.gang part gid = some g) (running : s.tile.pl.stopped = false) :
    (∃ h, (s.shedStop part gid).gang part gid = some h ∧ h.ShedNow) ∧
      (s.tile.Halted (s.shedStop part gid).tile ∨ s.tile.Unhalted (s.shedStop part gid).tile) := by
  obtain ⟨⟨h, gang, form⟩, tile⟩ := State.gangStop_begins (why := fun g => { g with byShed := true, shedWait := false })
    (fun _ => ⟨rfl, rfl⟩) live running
  refine ⟨⟨h, gang, ?_⟩, tile⟩
  obtain rfl | rfl := form <;> exact ⟨rfl, rfl⟩

/-- The stop of the gang begins at its barrier, and the tile has stopped before its CWAIT (R361). -/
theorem State.shedHere_stops {s : State} {g : Gang} (live : s.gang s.tile.id.part s.tile.id.gid = some g)
    (running : s.tile.pl.stopped = false) :
    (∃ h, s.shedHere.gang s.tile.id.part s.tile.id.gid = some h ∧ h.ShedNow) ∧ s.tile.Halted s.shedHere.tile := by
  obtain ⟨gang, tile⟩ := State.shedStop_begins live running
  rw [State.shedHere]
  generalize s.shedStop s.tile.id.part s.tile.id.gid = u at gang tile
  obtain ⟨stopped, rest⟩ | ⟨running, pc, regs⟩ := tile
  · rw [if_pos stopped]
    exact ⟨gang, stopped, rest⟩
  · have withdraws := u.onlyWithdraws_dropWaiter u.tile
    obtain ⟨stopped, cw, pc', regs'⟩ := u.tile.takeStop_halted
    rw [if_neg (by rw [running]; exact Bool.false_ne_true)]
    obtain ⟨h, live, shed⟩ := gang
    refine ⟨⟨h, (congrArg (List.find? _) withdraws.gangs).trans live, shed⟩, ?_⟩
    have tile : (u.stopHere.stall 15).tile = { u.tile.takeStop with iss := { u.tile.takeStop.iss with stall := some 15 } } := by
      rw [State.stall, State.stopHere, State.upd_tile, State.upd_tile, withdraws.tile]
    rw [tile]
    exact ⟨stopped, cw, pc'.trans pc, regs'.trans regs⟩

/-! ## The barrier -/

theorem State.atShedBarrier_of {s : State} {g : Gang} (live : s.gang s.tile.id.part s.tile.id.gid = some g) (waits : g.shedWait = true)
    (named : g.barrier ≠ 0) : s.atShedBarrier g.barrier = true := by
  rw [State.atShedBarrier, live]
  simp only [waits, ne_eq, named, not_false_eq_true, and_self, decide_true, Bool.and_self]

section
variable {s : State} {a b : GReg} {sc : Scope} {acq nopend : Bool} {texp : Fin 32}

theorem cwait_arrivesAtBarrier (none : s.tile.ex.cw = none) (hi : s.tile.canIssue { regs := [.g a, .g b], reads := [.g a, .g b] })
    (named : ctrId (s.tile.g a) ≠ 0) (there : s.atShedBarrier (ctrId (s.tile.g a)) = true) :
    exec (.cwait a b sc acq nopend texp) s = .next s.shedHere := by
  show execCwait a b sc acq nopend texp s = _
  simp only [execCwait, none]
  refine issue_of_ok hi ?_
  simp only [named, decide_false, there, Bool.not_true, Bool.false_and, failIf_false, check_ok_bind, if_true]

theorem cwait_holdsAtBarrier {c : CwState} (held : s.tile.ex.cw = some c) (there : s.atShedBarrier c.ctr = true) :
    exec (.cwait a b sc acq nopend texp) s = .next s.shedHere := by
  show execCwait a b sc acq nopend texp s = _
  simp only [execCwait, held, there, if_true]

end

theorem barrierStops : BarrierStops := by
  intro s a b sc acq nopend texp g id arrives holds live waits named running here
  have there := State.atShedBarrier_of live waits named
  have next : exec (.cwait a b sc acq nopend texp) s = .next s.shedHere := by
    obtain ⟨none, barrier, hi⟩ | ⟨c, held, barrier⟩ := here
    · have name : g.barrier = ctrId (s.tile.g a) := barrier.trans (ctrId_eq _).symm
      exact cwait_arrivesAtBarrier none hi (name ▸ named) (name ▸ there)
    · exact cwait_holdsAtBarrier held (barrier ▸ there)
  obtain ⟨⟨h, gang, byShed, shedWait⟩, stopped, cw, pc, regs⟩ := State.shedHere_stops live running
  have same : s.tile.SameRegs s.shedHere.tile [] := by
    refine ⟨fun r _ => ?_, fun r => ?_, fun r => ?_, ?_⟩
    · rw [Tile.g, Tile.g, regs]
    · rw [Tile.v, Tile.v, regs]
    · rw [Tile.m, Tile.m, regs]
    · rw [Tile.SameSpecial, regs]
  exact ⟨_, h, next, gang, byShed, shedWait, stopped, cw, pc, same⟩

end Sys2Proof.Machine

open Sys2Proof Sys2Proof.Machine

/-- Settles O36: the operations are requests without a range, CWAIT by what it holds, and the stop at the barrier by what the stop of a gang
does to its record and to a tile that it marks. -/
theorem counters : Obligations.Counters := ⟨counterInstructions, barrierStops⟩
end

section
/-! SUPPORT. Messages at issue (R199 to R201, R307): the number of a message, its way into the fabric, and the checks that SEND, SENDV and CALLAT
pass. -/

namespace Sys2Proof.Machine

/-! ## The number of a message -/

/-- An entry of the numbers that a tile gives is for a destination and a channel (R307). -/
def OutSeq.isFor (dst : Nat) (c : Fin 64) (o : OutSeq) : Bool := decide (o.dst = dst ∧ o.chan = c)

/-- The number that the next message for a destination and a channel gets (R307). -/
def Tile.nextNumber (t : Tile) (dst : Nat) (c : Fin 64) : BitVec 16 := (t.inb.outSeqs.find? (OutSeq.isFor dst c)).elim 0 OutSeq.next

/-- The entry of a destination and a channel counts on, and no entry goes over to another destination or channel. -/
theorem find?_countOn {dst : Nat} {c : Fin 64} {l : List OutSeq} {o : OutSeq} (h : l.find? (OutSeq.isFor dst c) = some o) :
    (l.map fun x => if x.dst = dst ∧ x.chan = c then { x with next := x.next + 1 } else x).find? (OutSeq.isFor dst c) =
      some ⟨dst, c, o.next + 1⟩ := by
  induction l with
  | nil => exact nomatch h
  | cons x l ih =>
    by_cases hit : x.dst = dst ∧ x.chan = c
    · obtain ⟨rfl, rfl⟩ := hit
      have first : x = o := by simpa [OutSeq.isFor] using h
      simp [OutSeq.isFor, first]
    · have rest : l.find? (OutSeq.isFor dst c) = some o := by simpa [List.find?_cons, OutSeq.isFor, hit] using h
      simpa [List.find?_cons, OutSeq.isFor, hit] using ih rest

/-- A message takes the next number of its destination and channel, and the tile counts it. -/
theorem Tile.number_next (t : Tile) (dst : Nat) (c : Fin 64) :
    (t.number dst c).1 = t.nextNumber dst c ∧
    (t.number dst c).2 = { t with inb := { t.inb with outSeqs := (t.number dst c).2.inb.outSeqs } } ∧
    (t.number dst c).2.inb.outSeqs.find? (OutSeq.isFor dst c) = some ⟨dst, c, t.nextNumber dst c + 1⟩ := by
  rw [Tile.number, Tile.nextNumber, show (fun o : OutSeq => decide (o.dst = dst ∧ o.chan = c)) = OutSeq.isFor dst c from rfl]
  cases found : t.inb.outSeqs.find? (OutSeq.isFor dst c) with
  | some o => exact ⟨rfl, rfl, find?_countOn found⟩
  | none =>
    refine ⟨rfl, rfl, ?_⟩
    show (t.inb.outSeqs ++ [_]).find? _ = _
    rw [List.find?_append, found]
    simp [OutSeq.isFor]

/-! ## The way into the fabric -/

/-- A message without what its leaving its source settles: whether it has left, and for which physical tile. -/
def Msg.unsent (m : Msg) : Msg := { m with sent := false, phys := none }

/-- Messages may have left their source, as flits; nothing else changes. -/
def State.OnlySends (s t : State) : Prop :=
  t = { s with fab := { s.fab with flight := t.fab.flight, flits := t.fab.flits, moves := t.fab.moves } } ∧
  t.fab.flight.map Msg.unsent = s.fab.flight.map Msg.unsent

theorem State.OnlySends.refl (s : State) : s.OnlySends s := ⟨rfl, rfl⟩

theorem State.OnlySends.trans {s t u : State} (h : s.OnlySends t) (k : t.OnlySends u) : s.OnlySends u := by
  obtain ⟨same, flight⟩ := h
  obtain ⟨same', flight'⟩ := k
  refine ⟨?_, flight'.trans flight⟩
  rw [same', same]

theorem State.onlySends_sendNow (s : State) (m : Msg) : s.OnlySends (s.sendNow m) := by
  have marks (phys : Option Nat) : (s.fab.flight.map fun x => if x.serial = m.serial then { x with sent := true, phys := phys } else x).map
      Msg.unsent = s.fab.flight.map Msg.unsent := by
    rw [List.map_map]
    refine List.map_congr_left fun x _ => ?_
    show Msg.unsent (if _ then _ else _) = _
    split <;> rfl
  simp only [State.sendNow]
  split <;> exact ⟨rfl, marks _⟩

theorem State.onlySends_sendReady (s : State) (p : Msg → Bool) : s.OnlySends (s.sendReady p) := by
  refine foldl_rel (r := State.OnlySends) State.OnlySends.refl State.OnlySends.trans (fun s m => ?_) _ s
  split
  · exact .refl s
  · exact s.onlySends_sendNow m

/-- A message given to its source is one message more in the fabric, under the next serial. -/
theorem State.post_flies (s : State) (m : Msg) :
    s.post m = { s with fab := { s.fab with
      serial := s.fab.serial + 1, flight := (s.post m).fab.flight, flits := (s.post m).fab.flits, moves := (s.post m).fab.moves } } ∧
    (s.post m).fab.flight.map Msg.unsent = s.fab.flight.map Msg.unsent ++ [{ m.unsent with serial := s.fab.serial }] := by
  obtain ⟨same, flight⟩ := State.onlySends_sendReady { s with fab := { s.fab with
    serial := s.fab.serial + 1, flight := s.fab.flight ++ [{ m with serial := s.fab.serial }] } }
    fun x => x.samePair { m with serial := s.fab.serial }
  refine ⟨same, flight.trans ?_⟩
  rw [List.map_append]
  rfl

/-- The tile of a message that has issued, before the message is numbered. -/
def Tile.pushMessage (t : Tile) (reads : List RegName) (rel : Bool) : Tile := ((t.event 29 1).issued reads).pushMs .msg rel 0

/-- The message that the NI of a virtual tile is given (R200, R307). -/
def messageFrom (id : TileId) (origin : Origin) (dst : Nat) (c : Fin 64) (kind : MsgKind) (q : BitVec 16) (payload : List Byte) : Msg :=
  { serial := 0, part := id.part, gid := id.gid, origin := origin, dst := dst, chan := c, kind := kind, rfs := false, seqno := q
    src := BitVec.ofNat 24 id.vt, payload := payload, sent := false, phys := none, parked := false }

theorem issueMsg_posts (s : State) (reads : List RegName) (rel : Bool) (dst : Nat) (c : Fin 64) (kind : MsgKind) (payload : List Byte) :
    s.issueMsg reads rel dst c kind payload =
      State.post { s with tile := ((s.tile.pushMessage reads rel).number dst c).2 }
        (messageFrom s.tile.id (.op s.tile.id.vt s.tile.ops.stamp) dst c kind ((s.tile.pushMessage reads rel).nextNumber dst c) payload) := by
  obtain ⟨⟨⟨id, -⟩, -⟩, -⟩ := s.tile.keeps_event_issued 29 reads
  obtain ⟨number, numbered, -⟩ := (s.tile.pushMessage reads rel).number_next dst c
  have same : (s.tile.pushMessage reads rel).id = s.tile.id := id
  have names : ((s.tile.pushMessage reads rel).number dst c).2.id = s.tile.id := (congrArg Tile.id numbered).trans id
  have posts : s.issueMsg reads rel dst c kind payload =
      State.post { s with tile := ((s.tile.pushMessage reads rel).number dst c).2 }
        (messageFrom ((s.tile.pushMessage reads rel).number dst c).2.id (.op (s.tile.pushMessage reads rel).id.vt s.tile.ops.stamp)
          dst c kind ((s.tile.pushMessage reads rel).number dst c).1 payload) := rfl
  rw [posts, names, same, number]

/-- A message that issues enters class MS, and is in the fabric with its number (R200, R307). -/
theorem issueMsg_sends (s : State) (reads : List RegName) (rel : Bool) (dst : Nat) (c : Fin 64) (kind : MsgKind) (payload : List Byte) :
    Sends s (s.issueMsg reads rel dst c kind payload) rel dst c kind payload := by
  obtain ⟨⟨⟨id, gang, inb, eng, ni, pl⟩, ops, pad, regs, pc⟩, writes⟩ := s.tile.keeps_event_issued 29 reads
  obtain ⟨-, numbered, counted⟩ := (s.tile.pushMessage reads rel).number_next dst c
  have next : (s.tile.pushMessage reads rel).nextNumber dst c = s.tile.nextNumber dst c :=
    congrArg (fun i : Inbox => (i.outSeqs.find? (OutSeq.isFor dst c)).elim 0 OutSeq.next) inb
  rw [next] at counted
  rw [issueMsg_posts, next]
  generalize ((s.tile.pushMessage reads rel).number dst c).2 = b at numbered counted
  generalize hm : messageFrom s.tile.id (.op s.tile.id.vt s.tile.ops.stamp) dst c kind (s.tile.nextNumber dst c) payload = m
  obtain ⟨same, flight⟩ := State.post_flies { s with tile := b } m
  generalize State.post { s with tile := b } m = t at same flight
  have tile : t.tile = b := (congrArg State.tile same).trans rfl
  have field {α : Type} (f : Tile → α) : f t.tile = f _ := congrArg f (tile.trans numbered)
  refine ⟨by rw [tile]; exact same, (field Tile.id).trans id, (field Tile.gang).trans gang, (field Tile.eng).trans eng,
    (field Tile.ni).trans ni, (field Tile.pl).trans pl, ?pad, ?regs, (field Tile.ex).trans pc, (field (·.iss.writes)).trans writes,
    ?inb, ?outSeqs, ?ops, ?flight⟩
  case pad => rw [tile, numbered]; exact pad
  case regs => rw [tile, numbered]; exact regs
  case inb =>
    rw [tile, numbered]
    exact congrArg (fun i : Inbox => { i with outSeqs := b.inb.outSeqs }) inb
  case outSeqs =>
    rw [tile]
    exact counted
  case ops => exact (field Tile.ops).trans (congrArg (fun o : Outstanding => o.addMs .msg rel 0) ops)
  case flight =>
    subst hm
    exact flight

/-! ## The checks -/

theorem wordChan_eq (x : Word) : wordChan x = Fin.ofNat 64 (x.toNat / 2 ^ 24) := sh_of_bits x.toNat 24

theorem Tile.checkVtile_inside {t : Tile} {x : Word} (h : inGrid t.gang.rows t.gang.cols (x.toNat % 2 ^ 24) = true) :
    t.checkVtile x = .ok () := by
  rw [Tile.checkVtile, bitsOf_low, h, Bool.not_true, failIf_false]

section
variable {s : State} {a b : GReg} {v : VReg} {sc : Scope} {rel : Bool} {w : Window} {o : Nat}
  (inside : inGrid s.tile.gang.rows s.tile.gang.cols ((s.tile.g a).toNat % 2 ^ 24) = true)
include inside

/-- A payload in one window, open to the tile and correctable, is read at issue (R199). -/
theorem Tile.checkPayload_ok {ea : Word} (aligned : ea.toNat % 64 = 0) (window : windowOf ea.toNat = some (w, o))
    (gate : s.tile.gate true 10 none (w.touch o 64) = .ok ()) (good : s.tile.badLocal w o 64 = none) :
    s.tile.checkPayload (s.tile.g a) ea = .ok (toBytes (s.tile.readLocal w o 64) 64) := by
  rw [Tile.checkPayload, decide_eq_false (not_not_intro aligned), failIf_false, check_ok_bind, localWindow, window, check_ok_bind]
  simp only [Tile.checkVtile_inside inside, Tile.gateTraps_of_gate gate, check_ok_bind, good, gate]

theorem send_next (aligned : (s.tile.g b).toNat % 64 = 0) (window : windowOf (s.tile.g b).toNat = some (w, o))
    (gate : s.tile.gate true 10 none (w.touch o 64) = .ok ()) (good : s.tile.badLocal w o 64 = none)
    (hi : s.tile.canIssue { regs := [.g a, .g b], reads := [.g a, .g b], cls := some .ms }) :
    exec (.send a b sc rel) s = .next (s.issueMsg [.g a, .g b] rel ((s.tile.g a).toNat % 2 ^ 24) (wordChan (s.tile.g a)) .send
      (toBytes (s.tile.readLocal w o 64) 64)) := by
  show execSend a b sc rel s = _
  refine issue_of_ok hi ?_
  simp only [Tile.checkPayload_ok inside aligned window gate good, check_ok_bind, bitsOf_low]

theorem sendv_next (hi : s.tile.canIssue { regs := [.g a, .v v], reads := [.g a, .v v], cls := some .ms }) :
    exec (.sendv a v sc rel) s = .next (s.issueMsg [.g a, .v v] rel ((s.tile.g a).toNat % 2 ^ 24) (wordChan (s.tile.g a)) .sendv
      ((s.tile.v v).toList.flatMap fun l => toBytes l.toNat 4)) := by
  show execSendv a v sc rel s = _
  refine issue_of_ok hi ?_
  simp only [Tile.checkVtile_inside inside, check_ok_bind, bitsOf_low]

/-- The payload of a CALL (R201): the target, four arguments, and the caller's address, with the channel of the call word. -/
def Tile.callPayload (t : Tile) (a b : GReg) : List Byte :=
  toBytes ((t.g a).toNat / 2 ^ 32 % 2 ^ 19) 8 ++ toBytes (t.g b).toNat 8 ++ toBytes (t.g (b + 1)).toNat 8 ++
    toBytes (t.g (b + 2)).toNat 8 ++ toBytes (t.g (b + 3)).toNat 8 ++
    toBytes (t.id.vt % 2 ^ 24 + (t.g a).toNat / 2 ^ 24 % 64 * 2 ^ 24) 4 ++ toBytes 0 20

theorem callat_next (low : b.val ≤ 28)
    (hi : s.tile.canIssue { regs := .g a :: (callArgs b).map .g, reads := .g a :: (callArgs b).map .g, cls := some .ms }) :
    exec (.callat a b sc rel) s = .next (s.issueMsg (.g a :: (callArgs b).map .g) rel ((s.tile.g a).toNat % 2 ^ 24) 63
      .call (s.tile.callPayload a b)) := by
  have payload : toBytes (bitsOf (s.tile.g a).toNat 50 32) 8 ++ ((callArgs b).flatMap fun r => toBytes (s.tile.g r).toNat 8) ++
      toBytes (s.tile.id.vt % 2 ^ 24 + bitsOf (s.tile.g a).toNat 29 24 * 2 ^ 24) 4 ++ toBytes 0 20 = s.tile.callPayload a b := by
    simp only [callArgs, List.flatMap_cons, List.flatMap_nil, List.append_nil, Tile.callPayload, List.append_assoc]
    rfl
  rw [show exec (.callat a b sc rel) s = execCallat a b sc rel s from rfl, execCallat]
  refine issue_of_ok hi ?_
  simp only [decide_eq_false (Nat.not_lt.mpr low), failIf_false, Tile.checkVtile_inside inside, check_ok_bind, bitsOf_low, ← payload]

end

end Sys2Proof.Machine

open Sys2Proof Sys2Proof.Machine

/-- Settles O34: each instruction passes its checks and gives its payload to the one rule by which a message issues. -/
theorem messages : Obligations.Messages := by
  intro s a b v sc rel w o x dst c inside
  have chan : wordChan (s.tile.g a) = c := wordChan_eq _
  refine ⟨fun aligned window gate good hi => ⟨_, send_next inside aligned window gate good hi, ?send⟩,
    fun hi => ⟨_, sendv_next inside hi, ?sendv⟩, ?callat⟩
  case send =>
    rw [chan]
    exact issueMsg_sends ..
  case sendv =>
    rw [chan]
    exact issueMsg_sends ..
  case callat =>
    intro low rs hi
    exact ⟨_, callat_next inside low hi, issueMsg_sends ..⟩
end
